-- ==== Sys2Proof/Word.lean ====
section
/-!
DEFINITION. The words of the part: bytes, register words, and the sorted tables the state is made of.
Only abbreviations stand here; every computation on them is in Sys2Proof/Machine/Bits.lean.
-/

namespace Sys2Proof

/-- One byte (R8: byte offset 0 holds bits [7:0]). -/
abbrev Byte := BitVec 8

/-- A 32-bit register (R8). -/
abbrev Word32 := BitVec 32

/-- A 64-bit register (R8). -/
abbrev Word64 := BitVec 64

/-- A sparse table of the part: index and entry, sorted by index, no index twice.
An index that is not listed holds the table's reset entry. -/
abbrev Table (α : Type) := List (Nat × α)

end Sys2Proof
end

