-- ==== Sys2Proof/Syntax/Board.lean ====
section
/-!
DEFINITION. What the board presents to the part at a boot and at a sensor sample: modules, clocks, pins, readings
(R296, R297, R460, R519, R550, R553).
-/

namespace Sys2Proof

/-- One DDR5 module as its SPD hub reports it, and whether its channel trains (R296 to R298). -/
structure Module where
  present  : Bool
  mrdimm   : Bool
  by4      : Bool
  gib      : Nat
  /-- highest rate the SPD gives, coded as MEM_CH_STATUS_n.RATE -/
  rate     : Nat
  ranks    : Nat
  trains   : Bool
  deriving DecidableEq, Repr

/-- The board at the moment of a boot command. -/
structure BootEnv where
  /-- channels MC00 … MC23 -/
  modules    : List Module
  rngOk      : Bool
  /-- the boot NOR reports 8D-8D-8D and 4 KiB erase (R472) -/
  norOk      : Bool
  coreRefclk : Bool
  vin48      : Nat
  resetN     : Bool
  /-- HP0_PERST_N and HP1_PERST_N deasserted -/
  perst      : List Bool
  /-- NPn_PRSNT_N low, drives 0 … 7 -/
  drives     : List Bool
  /-- GPIO[1:0], which have pull-downs (R551, R554) -/
  straps     : Nat
  deriving DecidableEq, Repr

/-- One sensor sample (R460, R519): temperature sensors in 0.25 °C with INVALID marks, voltages in mV, module
temperatures in °C, input power in W and VIN48 in mV. -/
structure Sensors where
  temps   : List Nat
  invalid : List Bool
  volts   : List Nat
  modules : List Nat
  inputW  : Nat
  vin48   : Nat
  deriving DecidableEq, Repr

/-- The tables that a spine keeps in retention over a fast reset (R419). -/
inductive SpineTable | routes | paths | salts | groups | members | foldSlots
  deriving DecidableEq, Repr

/-- The on-die memories of R319 in which an uncorrectable error can fall, and one that is found as a memory leaves retention (R419). -/
inductive SramUe
  | tables | retention (table : SpineTable) | cellPayload (port : Nat) (vc : Nat) | cellMetadata | reduction (ctx : Nat) (chunk : Nat)
  | mending (stream : Nat) (tile : Nat)
  deriving DecidableEq, Repr

/-- What a drive shows when it has been brought up (R324, R325, R330, R345): whether it is a lone NVMe endpoint; the link rates it
supports (1 for 16.0, 2 for 32.0, 3 for 64.0 GT/s) and its lanes; the items of R325: major version of its specification, Zoned
Namespace Command Set, NSID 1 zoned, data and metadata bytes of its LBA format and protection information, zone capacity (of the
smallest zone and of the largest) and zone size in LBAs, number of zones, largest data transfer in bytes and active zones (none: no
limit), I/O queue pairs and their entries; Percentage Used; the data zones in use (zone, write pointer in LBAs from its start,
finished), the blocks of its two journal zones, zero bytes at their end left out, and the lines in which it differs from what this
part last wrote to it: local line number, bytes, poison. -/
structure DriveInfo where
  alone    : Bool
  rates    : List Nat
  lanes    : Nat
  version  : Nat
  zns      : Bool
  zoned    : Bool
  lbaBytes : Nat
  metadata : Nat
  protect  : Bool
  zcap     : Nat
  zcapMax  : Nat
  zsize    : Nat
  nzones   : Nat
  transfer : Option Nat
  actives  : Option Nat
  queues   : Nat
  entries  : Nat
  percent  : Nat
  used     : List (Nat × Nat × Bool)
  journal  : List (List (List Byte))
  contents : List (Nat × List Byte × Bool)
  deriving DecidableEq, Repr

/-- What can be disabled with work in flight (R436). -/
inductive DrainTarget
  | gallery (g : Nat) | context (c : Nat) | stream (n : Nat) | gfuUnit (n : Nat) | reduceEngine (n : Nat)
  | mendEngine (n : Nat) | channelUnit (n : Nat) | function (hp : Nat)
  deriving DecidableEq, Repr

/-- A core access to the pool window (R499). -/
inductive CoreAccess | load | store | add | cas | writeBack | fence
  deriving DecidableEq, Repr

end Sys2Proof
end

