-- ==== Sys2Proof/Syntax/Msg.lean ====
section
/-!
DEFINITION. A Xenus Link message as its header fields (R55 for requests and snoops, R56 for responses and data)
and its data bytes. The wire form is in Sys2Proof/Machine/Operands.lean.
-/

namespace Sys2Proof

/-- One message. Fields that its header form does not carry are zero (`Msg.blank`).
`srcPart` is SRC_PART of a request and RSP_PART of a response; `len` is LEN in 4-byte units. -/
structure Msg where
  op      : Byte
  vc      : BitVec 3
  len     : BitVec 7
  gallery : BitVec 3
  srcPart : BitVec 12
  srcPort : BitVec 9
  dstPart : BitVec 12
  dstPort : BitVec 9
  tag     : BitVec 16
  epoch   : BitVec 16
  sseq    : BitVec 24
  ord     : Bool
  syn     : Bool
  retx    : Bool
  after   : Bool
  addr    : BitVec 58
  na      : Bool
  oparg   : BitVec 64
  status  : BitVec 4
  resync  : Bool
  aux     : BitVec 24
  data    : List Byte
  /-- the requester for whom a gather or filter service asks (R190, R199): part and port. No header field of R55 holds it, so that it
  stands beside the header: DESIGN CHOICE, log entry 83 -/
  behalf  : Option (BitVec 12 × BitVec 9)
  deriving DecidableEq, Repr

/-- The message whose every field is zero. -/
def Msg.blank : Msg :=
  { op := 0, vc := 0, len := 0, gallery := 0, srcPart := 0, srcPort := 0, dstPart := 0, dstPort := 0, tag := 0,
    epoch := 0, sseq := 0, ord := false, syn := false, retx := false, after := false, addr := 0, na := false,
    oparg := 0, status := 0, resync := false, aux := 0, data := [], behalf := none }

end Sys2Proof
end

