-- ==== Sys2Proof/Syntax.lean ====
section
/-!
DEFINITION. The commands of the part: one constructor for each row of the table of operations and events.
Each docstring names the row and the rule that governs it.
-/

namespace Sys2Proof

inductive Instr
  /-- ISLAND_POWER_UP (R551). VIN48 rises through 30.0 V with AON_CLK running, and the Curator island powers up and brings AUX1V8 into regulation. -/
  | islandPowerUp
  /-- PWRGD_RISE (R551). PWRGD rises, with VIN48 at least 39.0 V and RESET_N high, which is time 0 of a cold boot. -/
  | pwrgdRise (env : BootEnv)
  /-- RESET_N_PULSE (R552). RESET_N held low for 10 µs or more causes a cold boot whose time 0 falls at its rise. -/
  | resetNPulse (env : BootEnv)
  /-- PWRGD_FALL (R552). PWRGD falls; the core die stops within 5 µs, ports and links go down, module resets are driven and the island flushes the daybook. -/
  | pwrgdFall
  /-- VIN_UNDERVOLTAGE (R545). VIN48 below 38.0 V for 100 µs switches off a running core die as part loss with halt cause 0x10. -/
  | vinUndervoltage
  /-- VIN_OVERVOLTAGE (R545). VIN48 above 62.0 V for 10 µs switches off the core die as part loss with halt cause 0x11. -/
  | vinOvervoltage (mv : Nat)
  /-- AON_CLK_LOSS (R550). Loss of AON_CLK during operation switches the island to its internal oscillator within 10 µs and writes a daybook event. -/
  | aonClkLoss
  /-- CORE_PLL_LOCK_RETRY (R550). Every 100 ms during boot the Curator retries core PLL lock while CORE_REFCLK is missing, and prints the failure. -/
  | corePllLockRetry (env : BootEnv)
  /-- SDS_REFCLK_LOSS (R550). A missing or out-of-tolerance chiplet reference makes that chiplet's 32 ports fail TRAIN and retry, with a daybook event. -/
  | sdsRefclkLoss (chiplet : Nat)
  /-- NP_REFCLK_LOSS (R550). Loss of NP_REFCLK takes every drive DOWN until the clock returns. -/
  | npRefclkLoss
  /-- HOST_REFCLK_LOSS (R550). Loss of a host port reference takes that host link down, as a link-down of the port. -/
  | hostRefclkLoss (hp : Nat)
  /-- AUX1V8_OVERLOAD (R547). An overload of AUX1V8 cuts the boot NOR, so NOR-dependent commands answer NOR_ERROR and daybook entries stay in SRAM. -/
  | aux1v8Overload
  /-- AUX1V8_RESTORE (R547). The part restores AUX1V8 by itself once the overload is removed. -/
  | aux1v8Restore
  /-- LOCKSTEP_MISMATCH (R469). A lockstep mismatch of the management cores resets the Curator island, which is a cold boot of the part. -/
  | lockstepMismatch (env : BootEnv)
  /-- CURATOR_SRAM_UE (R469). An uncorrectable error in Curator SRAM resets the Curator island, which is a cold boot. -/
  | curatorSramUe (env : BootEnv)
  /-- HEARTBEAT_LOST (R469). The core-die heartbeat missing for 100 ms triggers a fast reset. -/
  | heartbeatLost (refclk : Bool)
  /-- INTERNAL_MEMORY_UE (R319). An uncorrectable error in an on-die SRAM has the outcome of its memory row: fast reset, discard, poison or a hardware error report. -/
  | internalMemoryUe (mem : SramUe)
  /-- FAST_RESET (R415). The FAST_RESET command runs the fast reset sequence: ports down, self-refresh, core reset, reload, retrain and rejoin. -/
  | fastReset (view : Nat) (cmd : Word64)
  /-- FAST_RESET_WATCHDOG (R415). A fast reset not rejoined 2.5 s after its trigger is turned by the Curator into a cold boot. -/
  | fastResetWatchdog (env : BootEnv)
  /-- RESYNC_WINDOW_END (R70). Two stream-idle times after a rejoin the resync window ends, and slotless messages are handled normally again. -/
  | resyncWindowEnd
  /-- THERMAL_TRIP (R460). TEMP_MAX at or above 105 °C for 1 ms removes power from the core die and chiplets, which is part loss. -/
  | thermalTrip
  /-- SENSOR_SAMPLE (R460). Every 1 ms the Curator samples the temperature and voltage sensors and compares TEMP_MAX with the thresholds. -/
  | sensorSample (readings : Sensors)
  /-- THROTTLE_BOUNDARY (R461). At each 100 ms boundary of the Curator timer the throttle level rises, falls or holds according to TEMP_MAX. -/
  | throttleBoundary
  /-- SCHEDULER_TICK (R454). Every 10 µs tick the work scheduler divides the budget among expedited traffic, minimum shares, foreground surplus, background and ballast. -/
  | schedulerTick (mw : Nat)
  /-- FLOOR_RECOMPUTE (R449). Every 1 ms the scheduler recomputes the floor F and the activity budget B. -/
  | floorRecompute (coreW : Nat)
  /-- IRON_SHORTFALL (R458). A full 1 s window with demand short of the Iron target by more than 2 % sets UNDER. -/
  | ironShortfall
  /-- FORCED_RUN_DEFER (R456). A background class deferred for MAX_DEFER runs its next turn ahead of the minimum shares. -/
  | forcedRunDefer (cls excess : Nat)
  /-- MODE_WRITE (R450). A write of PWR_MODE changes the power mode or target within 1 ms, with ramping and Eco port changes. -/
  | modeWrite (view : Nat) (value : Word32)
  /-- PWR_EVENT_POP (R468). A read of PWR_EVENT pops the head of the power event queue. -/
  | pwrEventPop (view : Nat)
  /-- LINK_ENABLE (R47). Setting FPT_LINK_CTRL.ENABLE takes a down port into TRAIN. -/
  | linkEnable (fp : Nat)
  /-- LINK_DISABLE (R47). Clearing FPT_LINK_CTRL.ENABLE takes the port DOWN with the flush of its queues. -/
  | linkDisable (fp : Nat)
  /-- LINK_RETRAIN (R78). A write of RETRAIN_A or RETRAIN_B retrains that sub-port. -/
  | linkRetrain (port : Nat)
  /-- PMD_TRAINED (R47). PMD training completes and the logical port moves to LOCK. -/
  | pmdTrained (port : Nat)
  /-- TRAIN_TIMEOUT (R47). TRAIN not completed within 500 ms takes the port DOWN with a daybook event. -/
  | trainTimeout (port : Nat)
  /-- TRAIN_RETRY (R47). One second after a failed TRAIN the port makes a new attempt. -/
  | trainRetry (port : Nat)
  /-- PCS_LOCKED (R47). Block, alignment-marker and FEC lock are reached and the port moves to ALIGN. -/
  | pcsLocked (port : Nat)
  /-- LOCK_TIMEOUT (R47). LOCK not reached within 10 ms returns the port to TRAIN. -/
  | lockTimeout (port : Nat)
  /-- XENUS_START_SET (R43). The peer's Xenus start ordered set is received and flit framing begins. -/
  | xenusStartSet (port : Nat)
  /-- ALIGN_TIMEOUT (R47). ALIGN not completed within 1 ms returns the port to TRAIN. -/
  | alignTimeout (port : Nat)
  /-- INIT_FLIT (R48). The peer's INIT control flit is received and checked, taking the port to ACTIVE or DOWN on a mismatch. -/
  | initFlit (port : Nat) (flit : List Byte)
  /-- PARAM_TIMEOUT (R47). PARAM not completed within 1 ms takes the port DOWN with a daybook event. -/
  | paramTimeout (port : Nat)
  /-- DATA_FLIT (R50). A DATA flit is received, CRC-checked, sequence-checked, acknowledged or NAKed, and its messages and credit returns taken. -/
  | dataFlit (port : Nat) (flit : List Byte)
  /-- NULL_FLIT (R46). A NULL flit is received carrying acknowledgements and credit returns. -/
  | nullFlit (port : Nat) (flit : List Byte)
  /-- ACK_DUE (R50). 256 ns after an unacknowledged accepted flit the receiver sends an acknowledgement. -/
  | ackDue (port : Nat)
  /-- ACK_TIMEOUT (R51). The oldest unacknowledged flit waiting ACK_TIMEOUT makes the sender replay every unacknowledged flit, retraining after REPLAY_LIMIT. -/
  | ackTimeout (port : Nat)
  /-- RETRAIN_TIMEOUT (R51). A retrain that does not reach ACTIVE within 100 ms takes the port down. -/
  | retrainTimeout (port : Nat)
  /-- STALL_TIMER_EXPIRY (R373). A begun message not whole after SWC_STALL_TIMER is truncated, discarded and possibly answered UNSUPPORTED. -/
  | stallTimerExpiry (port : Nat) (vc : Nat)
  /-- BUFFER_ADMISSION (R357). A message waiting in ingress space is admitted to a partition once room appears, returning its credits. -/
  | bufferAdmission (port : Nat) (vc : Nat)
  /-- POLICER_RECOLOUR (R368). A held red message is coloured again when its bucket holds enough tokens and then admitted. -/
  | policerRecolour (port : Nat) (vc : Nat)
  /-- SHAPER_CONFIG_WRITE (R364). A write to word 0 of TRF_SHAPER_n sets T to BURST or to zero. -/
  | shaperConfigWrite (view : Nat) (shaper : Nat) (value : Word64)
  /-- POLICER_CONFIG_WRITE (R367). A write of a policer's words 0 or 1 fills both buckets. -/
  | policerConfigWrite (view : Nat) (policer : Nat) (word : Nat) (value : Word64)
  /-- RD_LINE (R60). A line read request is checked, resequenced if AFTER, routed and served from memory, lender, flash or anteroom. -/
  | rdLine (port : Nat) (m : Msg)
  /-- WR_LINE (R60). A full-line write is checked, resequenced, performed or forwarded, written through to a twin, and acknowledged. -/
  | wrLine (port : Nat) (m : Msg)
  /-- WR_MASKED (R60). A masked line write is checked, ordered and merged with the line. -/
  | wrMasked (port : Nat) (m : Msg)
  /-- AT_ADD (R61). An atomic add is checked, ordered, performed and its result cached. -/
  | atAdd (port : Nat) (m : Msg)
  /-- AT_MIN (R61). An atomic minimum is checked, ordered and performed. -/
  | atMin (port : Nat) (m : Msg)
  /-- AT_MAX (R61). An atomic maximum is checked, ordered and performed. -/
  | atMax (port : Nat) (m : Msg)
  /-- AT_CAS (R61). An atomic compare-and-swap is checked, ordered, performed and returns the old value. -/
  | atCas (port : Nat) (m : Msg)
  /-- FENCE (R73). A fence request starts tracking of every covered ordered message from its source agent. -/
  | fence (port : Nat) (m : Msg)
  /-- FENCE_MARK (R74). A fence mark is performed at the destination, recording the stream's fence number and owners' LAST_FENCE. -/
  | fenceMark (port : Nat) (m : Msg)
  /-- LOAN_OFFER (R29). A loan offer is checked and declined, or recorded OFFERED. -/
  | loanOffer (port : Nat) (m : Msg)
  /-- LOAN_OFFER_EXPIRY (R29). An offer still OFFERED half a completion timeout after arrival is freed and answered RETRY_LATER. -/
  | loanOfferExpiry (loan : Nat)
  /-- LOAN_RECALL (R33). A recall notice withdraws an offer, starts a recall of an active loan, or becomes or answers the pending notice. -/
  | loanRecall (port : Nat) (m : Msg)
  /-- CONTRIB (R150). A contribution is checked, added in a reduce engine and answered with a CPL and its outcome. -/
  | contrib (port : Nat) (m : Msg)
  /-- RESULT (R159). A result chunk is replicated to a group, or received by a child context that replicates it and retires chunks. -/
  | result (port : Nat) (m : Msg)
  /-- STREAM_ATTACH (R229). An attach or detach request for a stream member is checked and answered. -/
  | streamAttach (port : Nat) (m : Msg)
  /-- TILE (R226). A tile piece is forwarded to its member. -/
  | tile (port : Nat) (m : Msg)
  /-- WINDOW_CREDIT (R231). A member's cumulative release count is accepted or discarded, freeing window slots. -/
  | windowCredit (port : Nat) (m : Msg)
  /-- GATHER_REQ (R185). A gather request or cancel is checked and accepted onto a gather unit. -/
  | gatherReq (port : Nat) (m : Msg)
  /-- FILTER_REQ (R185). A filter request or cancel is checked and accepted onto a filter unit. -/
  | filterReq (port : Nat) (m : Msg)
  /-- GATHER_DATA (R186). A gather result piece or summary is forwarded to the requester. -/
  | gatherData (port : Nat) (m : Msg)
  /-- FILTER_DATA (R186). A filter result piece or summary is forwarded to the requester. -/
  | filterData (port : Nat) (m : Msg)
  /-- CPL (R56). A completion is matched by TAG, ending request tracking and counting acknowledgements, or is forwarded. -/
  | cpl (port : Nat) (m : Msg)
  /-- RD_DATA (R64). Read data is matched by TAG to its request, or forwarded. -/
  | rdData (port : Nat) (m : Msg)
  /-- AT_DATA (R61). An atomic return is matched to its request, or forwarded. -/
  | atData (port : Nat) (m : Msg)
  /-- LOAN_REPLY (R62). A loan reply is forwarded to its lender. -/
  | loanReply (port : Nat) (m : Msg)
  /-- FAULT_NOTICE (R65). A fault notice is forwarded to its requester's port. -/
  | faultNotice (port : Nat) (m : Msg)
  /-- RD_SHARED (R126). A shared read of a catalogue line is served by the home under its directory state. -/
  | rdShared (port : Nat) (m : Msg)
  /-- RD_OWN (R126). An ownership read of a catalogue line is served by the home, invalidating other copies. -/
  | rdOwn (port : Nat) (m : Msg)
  /-- UPGRADE (R127). An upgrade request is granted M by CAT_CMP or handled as RD_OWN. -/
  | upgrade (port : Nat) (m : Msg)
  /-- WB_DIRTY (R126). A dirty write-back is written to memory, or discarded as STALE. -/
  | wbDirty (port : Nat) (m : Msg)
  /-- CMP_ACK (R121). A member's acknowledgement closes a catalogue transaction and lets the line's next request proceed. -/
  | cmpAck (port : Nat) (m : Msg)
  /-- SNP_SHR_FWD (R123). A shared forwarding snoop is answered by the snooped member from its line state. -/
  | snpShrFwd (port : Nat) (m : Msg)
  /-- SNP_INV (R123). An invalidating snoop is answered by the snooped member. -/
  | snpInv (port : Nat) (m : Msg)
  /-- SNP_INV_FWD (R123). An invalidating forwarding snoop is answered by the snooped member, forwarding DATA_M. -/
  | snpInvFwd (port : Nat) (m : Msg)
  /-- SNP_NA (R123). A non-allocating snoop is answered by forwarding RD_DATA. -/
  | snpNa (port : Nat) (m : Msg)
  /-- SNP_RSP (R126). A snoop answer advances the home's transaction and directory state. -/
  | snpRsp (port : Nat) (m : Msg)
  /-- CAT_CMP (R118). A catalogue completion grants M or ends a write-back at the member. -/
  | catCmp (port : Nat) (m : Msg)
  /-- DATA_S (R117). Shared data reaches the requester, which sends CMP_ACK. -/
  | dataS (port : Nat) (m : Msg)
  /-- DATA_E (R117). Exclusive data reaches the requester, which sends CMP_ACK. -/
  | dataE (port : Nat) (m : Msg)
  /-- DATA_M (R117). Modified data reaches the requester, which sends CMP_ACK. -/
  | dataM (port : Nat) (m : Msg)
  /-- DATA_M_AT (R133). Data for a near atomic reaches the member, which performs the atomic and sends CMP_ACK. -/
  | dataMAt (port : Nat) (m : Msg)
  /-- SNP_DATA (R126). Snooped dirty data reaches the home and is written to memory. -/
  | snpData (port : Nat) (m : Msg)
  /-- TWIN_ENTRY (R425). An entry update is applied to the twin's hold table, or a stand-in extent is marked DONE. -/
  | twinEntry (port : Nat) (m : Msg)
  /-- TWIN_CHECK (R433). A twin computes the checksum of a held extent and answers TWIN_SUM. -/
  | twinCheck (port : Nat) (m : Msg)
  /-- TWIN_SUM (R433). The stand-in compares the twin's checksum with its own and accepts, recopies or loses the extent. -/
  | twinSum (port : Nat) (m : Msg)
  /-- MGMT_REQ (R495). A peer's register access is checked against MGMT_PARTS and performed as a view-3 access. -/
  | mgmtReq (port : Nat) (m : Msg)
  /-- MGMT_RSP (R495). A management response is forwarded to the requesting peer. -/
  | mgmtRsp (port : Nat) (m : Msg)
  /-- TEL_REQ (R516). A tenant's counter read is checked for scope and answered with TEL_RSP. -/
  | telReq (port : Nat) (m : Msg)
  /-- TEL_RSP (R516). A telemetry response is forwarded to its requester. -/
  | telRsp (port : Nat) (m : Msg)
  /-- RETRANSMIT_TIMER (R68). An ordered message unacknowledged after SWC_RETX_TIMER is retransmitted with RETX = 1. -/
  | retransmitTimer (agent : Nat) (dst : Nat) (sseq : BitVec 24)
  /-- COMPLETION_TIMEOUT (R76). A request unanswered at SWC_CPL_TIMEOUT completes with TIMEOUT and the error value and raises a fault notice. -/
  | completionTimeout (part : Nat) (agent : Nat) (tag : Nat)
  /-- STREAM_IDLE_EXPIRY (R70). A stream idle for SWC_STREAM_IDLE makes the source start a new stream at SSEQ 0. -/
  | streamIdleExpiry (agent : Nat) (dst : Nat)
  /-- RESEQ_SLOT_IDLE (R70). A resequencer slot idle for twice the stream idle time is freed. -/
  | reseqSlotIdle (part : Nat) (agent : Nat)
  /-- ATOMIC_CACHE_EXPIRY (R72). An atomic response cache entry ends four retransmit times after its atomic. -/
  | atomicCacheExpiry (part : Nat) (agent : Nat) (sseq : BitVec 24)
  /-- REVOKE (R31). REVOKE stops grants, increments EPOCH and sets the extent REVOKING. -/
  | revoke (view : Nat) (cmd : Word64)
  /-- REVOKE_COMPLETE (R31). When every admitted old-epoch request is answered, the extent returns to LIVE and BUSY clears. -/
  | revokeComplete (ext : Nat)
  /-- MOVE_OUT (R38). MOVE_OUT reserves a destination and queues a copy of a recalling loan extent from its lender. -/
  | moveOut (view : Nat) (cmd : Word64)
  /-- FORCE_RECALL (R34). FORCE_RECALL makes a loan extent LOST, taking an active loan to RECALLING first. -/
  | forceRecall (view : Nat) (cmd : Word64)
  /-- FREE (R38). FREE sets a LIVE or LOST extent FREE with a null object. -/
  | freeExtent (view : Nat) (cmd : Word64)
  /-- RECALL_COPY_DONE (R33). A completed recall copy sets the destination LIVE and the loan extent FREE, and may end the loan. -/
  | recallCopyDone (ext : Nat) (bytes : List (List Byte))
  /-- LENDER_READ_RETRY (R34). A failed lender read during a recall copy is retried after SWC_RETX_TIMER. -/
  | lenderReadRetry (ext : Nat)
  /-- RECALL_GRACE_EXPIRY (R34). An expired recall grace makes each uncopied extent LOST and abandons its copy. -/
  | recallGraceExpiry (loan : Nat)
  /-- TBL_READ (R535). A table-window READ fills POL_TBL_DATA with the named entry. -/
  | tblRead (view : Nat) (cmd : Word64)
  /-- TBL_WRITE (R536). A table-window WRITE checks and writes an extent, object, loan or route entry atomically. -/
  | tblWrite (view : Nat) (cmd : Word64)
  /-- CATALOGUE_INIT_DONE (R111). Directory initialisation of a newly LIVE catalogue extent finishes, and requests stop answering RETRY_LATER. -/
  | catalogueInitDone (ext : Nat)
  /-- ACQUIRE (R85). ACQUIRE makes a region OWNED by the named agent and returns any old fence. -/
  | acquireRegion (view : Nat) (cmd : Word64)
  /-- RELEASE (R85). RELEASE removes the owner entry and turns later requests away. -/
  | releaseRegion (view : Nat) (cmd : Word64)
  /-- ORPHAN (R85). ORPHAN removes the owner but keeps the entry and LAST_FENCE. -/
  | orphanRegion (view : Nat) (cmd : Word64)
  /-- REGION_DRAIN_END (R85). When every request admitted before an ownership command has completed, POL_REGION_STATUS.BUSY clears. -/
  | regionDrainEnd (view : Nat)
  /-- OPEN_DRAFT (R97). OPEN_DRAFT opens a draft slot and copies page maps. -/
  | openDraft (view : Nat) (cmd : Word64)
  /-- PUBLISH (R97). PUBLISH seals the draft as CURRENT and retires the old CURRENT. -/
  | publish (view : Nat) (cmd : Word64)
  /-- ABORT_DRAFT (R99). ABORT_DRAFT frees a draft slot and returns its private pages. -/
  | abortDraft (view : Nat) (cmd : Word64)
  /-- OPEN_READ (R100). OPEN_READ takes a lease on the CURRENT edition. -/
  | openRead (view : Nat) (cmd : Word64)
  /-- CLOSE_READ (R100). CLOSE_READ ends an agent's lease on a slot. -/
  | closeRead (view : Nat) (cmd : Word64)
  /-- RENEW (R100). RENEW extends every lease of the named agent. -/
  | renew (view : Nat) (cmd : Word64)
  /-- RECLAIM (R101). RECLAIM frees a RETIRED slot and returns its unshared pages. -/
  | reclaim (view : Nat) (cmd : Word64)
  /-- ADD_SPARE (R95). ADD_SPARE adds a FREE extent's pages to a region's spare pool, resuming held writes. -/
  | addSpare (view : Nat) (cmd : Word64)
  /-- DROP (R102). DROP frees the last CURRENT slot and removes the region table entry. -/
  | dropRegion (view : Nat) (cmd : Word64)
  /-- LEASE_SWEEP (R100). Every 100 ms the issuing part ends expired leases. -/
  | leaseSweep
  /-- REGION_EVENT_POP (R109). A read of POL_REGION_EVENT pops the head of the region event queue. -/
  | regionEventPop (view : Nat)
  /-- SET_REGION (R140). SET_REGION creates or changes a catalogue region entry. -/
  | setRegion (view : Nat) (cmd : Word64)
  /-- CLEAR_REGION (R112). CLEAR_REGION removes a catalogue region entry. -/
  | clearRegion (view : Nat) (cmd : Word64)
  /-- SET_MEMBER (R140). SET_MEMBER enters an agent into a sharing group. -/
  | setMember (view : Nat) (cmd : Word64)
  /-- REMOVE_MEMBER (R137). REMOVE_MEMBER marks a member REMOVING and walks its lines with SNP_INV. -/
  | removeMember (view : Nat) (cmd : Word64)
  /-- HOST_LOST (R135). HOST_LOST marks a member LOST and walks the group's directory to resolve its lines. -/
  | hostLost (view : Nat) (cmd : Word64)
  /-- PURGE_EXTENT (R141). PURGE_EXTENT invalidates every cached copy of an extent and writes dirty data back. -/
  | purgeExtent (view : Nat) (cmd : Word64)
  /-- CATALOGUE_WALK_END (R142). A directory walk or purge finishes, freeing the member number if any and clearing BUSY. -/
  | catalogueWalkEnd
  /-- SNOOP_TIMEOUT (R136). A snoop unanswered for half the completion timeout is treated as lost for that line. -/
  | snoopTimeout (line : Nat) (member : Nat)
  /-- CAT_EVENT_POP (R143). A read of CAT_EVENT pops the head of the catalogue event queue. -/
  | catEventPop (view : Nat)
  /-- OPEN (R155). OPEN checks a context descriptor, allocates scratch and makes the context OPEN. -/
  | openContext (view : Nat) (cmd : Word64)
  /-- CLOSE (R174). CLOSE frees an idle or finished context, or drains a running one through CLOSING. -/
  | closeContext (view : Nat) (cmd : Word64)
  /-- CONTEXT_ABORT (R174). ABORT sends unsent result chunks with TIMEOUT and frees the context. -/
  | contextAbort (view : Nat) (cmd : Word64)
  /-- CONTEXT_QUERY (R179). QUERY reports a context's state, generation, window base and absent shards. -/
  | contextQuery (view : Nat) (cmd : Word64)
  /-- CTX_TIMEOUT (R171). A context timer expiry fails the context or marks shards absent under its POLICY. -/
  | ctxTimeout (ctx : Nat)
  /-- CLV_EVENT_POP (R180). A read of CLV_EVENT pops the head of the context event queue. -/
  | clvEventPop (view : Nat)
  /-- GFU_READ_RETURN (R190). A line read by a gather or filter unit returns, and rows, records, pieces and the summary are produced. -/
  | gfuReadReturn (unit : Nat) (tag : Nat)
  /-- GFU_RUN_LIMIT_EXPIRY (R189). A request still running GFU_RUN_LIMIT after acceptance stops with STOPPED and TIMEOUT. -/
  | gfuRunLimitExpiry (unit : Nat) (tag : Nat)
  /-- GFU_UNIT_DISABLE (R210). Clearing a unit's ENABLE starts an in-flight disable of it. -/
  | gfuUnitDisable (view : Nat) (unit : Nat)
  /-- STREAM_LOAD (R221). LOAD reads and checks a stream program and makes the stream LOADED. -/
  | streamLoad (view : Nat) (cmd : Word64)
  /-- STREAM_START (R233). START sets T0 of pass 0 and makes a stream with members RUNNING. -/
  | streamStart (view : Nat) (cmd : Word64)
  /-- STREAM_STOP (R233). STOP lets tiles in production finish and takes the stream through STOPPING. -/
  | streamStop (view : Nat) (cmd : Word64)
  /-- STREAM_ABORT (R233). ABORT discards tiles in production and detaches every member. -/
  | streamAbort (view : Nat) (cmd : Word64)
  /-- STREAM_UNLOAD (R233). UNLOAD frees a loaded or failed stream entry. -/
  | streamUnload (view : Nat) (cmd : Word64)
  /-- STREAM_QUERY (R239). QUERY fills STR_QUERY with the late and handed tile counts. -/
  | streamQuery (view : Nat) (cmd : Word64)
  /-- TILE_PRODUCTION_START (R223). A tile begins production once slots are free, fewer than 8 are in production and NOT_BEFORE has passed. -/
  | tileProductionStart (stream : Nat)
  /-- TILE_HANDED (R223). A produced tile is handed to egress in record order, which may end the pass or the stream. -/
  | tileHanded (stream : Nat)
  /-- TILE_DEADLINE (R232). A tile's deadline passing while it is not fully handed makes it late under the cause it is held by. -/
  | tileDeadline (stream : Nat) (tile : Nat)
  /-- MEMBER_STALL_TIMER (R231). A member holding every slot without credit for STALL_LIMIT is reported as stalled. -/
  | memberStallTimer (stream : Nat) (member : Nat)
  /-- STR_EVENT_POP (R241). A read of STR_EVENT pops the head of the stream event queue. -/
  | strEventPop (view : Nat)
  /-- FOLD_TABLE_LOAD (R253). LOAD reads and checks a fold-table image into a slot generation, waiting for an unreferenced OLD table when full. -/
  | foldTableLoad (view : Nat) (cmd : Word64)
  /-- FOLD_TABLE_DROP (R253). DROP removes a generation from a slot once it is unreferenced. -/
  | foldTableDrop (view : Nat) (cmd : Word64)
  /-- FOLD_SLOT_WAIT_END (R253). The awaited table loses its last reference, and the waiting LOAD or DROP proceeds. -/
  | foldSlotWaitEnd
  /-- FOLD_SLOT_WAIT_TIMEOUT (R253). A LOAD or DROP still waiting after WAIT is refused with SLOT_BUSY. -/
  | foldSlotWaitTimeout
  /-- JOB_START (R257). START checks a fold or unfold job descriptor and runs the job. -/
  | jobStart (view : Nat) (cmd : Word64)
  /-- JOB_ABORT (R258). ABORT stops a running job within 2 µs and ends it ABORTED. -/
  | jobAbort (view : Nat) (cmd : Word64)
  /-- JOB_QUERY (R271). QUERY reports a job's state, status and bytes written. -/
  | jobQuery (view : Nat) (cmd : Word64)
  /-- JOB_END (R258). A job finishes or stops at a failure. -/
  | jobEnd (job : Nat)
  /-- CMP_EVENT_POP (R272). A read of CMP_EVENT pops the head of the job event queue. -/
  | cmpEventPop (view : Nat)
  /-- MEND_DISABLE (R273). Clearing a mending engine's ENABLE starts an in-flight disable, moving later tiles to another engine. -/
  | mendDisable (view : Nat) (engine : Nat)
  /-- SUBMIT (R280). SUBMIT checks a channel-unit command and queues it with a ticket. -/
  | submitCommand (view : Nat) (cmd : Word64)
  /-- CHU_CANCEL (R282). CANCEL removes a queued command or stops a running one at a line boundary. -/
  | chuCancel (view : Nat) (cmd : Word64)
  /-- CHU_QUERY (R293). QUERY reports a command's state and elements written. -/
  | chuQuery (view : Nat) (cmd : Word64)
  /-- CHU_COMMAND_START (R280). A command at the head of its unit's queue is checked again and starts, holding requests to its ranges. -/
  | chuCommandStart (unit : Nat)
  /-- CHU_COMMAND_END (R282). A channel-unit command ends DONE or FAILED, releasing held requests and queuing its event. -/
  | chuCommandEnd (unit : Nat)
  /-- CHU_UNIT_DISABLE (R295). Clearing a channel unit's ENABLE starts an in-flight disable. -/
  | chuUnitDisable (view : Nat) (unit : Nat)
  /-- CHU_EVENT_POP (R294). A read of CHU_EVENT pops the head of the command event queue. -/
  | chuEventPop (view : Nat)
  /-- REFRESH_DUE (R287). A refresh interval elapses, pre-empting a channel unit at its segment boundary and refreshing all banks. -/
  | refreshDue (channel : Nat)
  /-- DRAM_RETRAIN_STEP (R300). A periodic DRAM retraining step holds its channel for at most 1 µs. -/
  | dramRetrainStep (channel : Nat)
  /-- SUBCHANNEL_LOST (R299). A subchannel that stops answering makes its channel uncorrectable and writes a daybook event. -/
  | subchannelLost (channel : Nat)
  /-- FILL_START (R308). START checks every named extent and page and begins a fill. -/
  | fillStart (view : Nat) (cmd : Word64)
  /-- FILL_ABORT (R321). ABORT stops the running fill within 2 µs. -/
  | fillAbort (view : Nat)
  /-- FILL_END (R309). A fill finishes writing every named line and clears BUSY. -/
  | fillEnd
  /-- SURVEY_START (R313). START checks a survey range, increments SURVEY_ID and begins the survey. -/
  | surveyStart (view : Nat) (cmd : Word64)
  /-- SURVEY_ABORT (R315). ABORT ends the running survey within 2 µs with ABORTED set. -/
  | surveyAbort (view : Nat)
  /-- SURVEY_END (R314). A survey finishes its range, finalises the summary and logs any uncorrectable line. -/
  | surveyEnd
  /-- FLIP_ARM (R317). A write of MEM_FLIP_CTRL arms corruption of the next line write to a channel. -/
  | flipArm (view : Nat) (value : Word32)
  /-- FLIP_HIT_READ (R323). A read of MEM_FLIP_HIT returns the affected line and clears VALID. -/
  | flipHitRead (view : Nat)
  /-- DEMOTE (R338). DEMOTE checks and starts the move of a DRAM-home extent to a flash zone. -/
  | demote (view : Nat) (cmd : Word64)
  /-- PROMOTE (R339). PROMOTE checks and starts the move of a flash-home extent to DRAM. -/
  | promote (view : Nat) (cmd : Word64)
  /-- MOVE_ABORT (R341). ABORT stops a tier move, returning the source to LIVE and DEST to FREE. -/
  | moveAbort (view : Nat) (cmd : Word64)
  /-- MOVE_COPY_DONE (R340). A move's copy completes, its journal record is written and the home switches to DEST. -/
  | moveCopyDone (move : Nat)
  /-- ADD_ROOM (R335). ADD_ROOM gives the anteroom one FREE interleaved extent. -/
  | addRoom (view : Nat) (cmd : Word64)
  /-- REMOVE_ROOM (R335). REMOVE_ROOM starts evicting a room extent's staged pages. -/
  | removeRoom (view : Nat) (cmd : Word64)
  /-- REMOVE_ROOM_DONE (R335). Once its pinned pages are unpinned, the room extent returns as FREE and BUSY clears. -/
  | removeRoomDone
  /-- ADOPT (R345). ADOPT makes a bound flash-home extent LIVE from its journal record. -/
  | adopt (view : Nat) (cmd : Word64)
  /-- DISCARD (R345). DISCARD writes UNBIND for a bound extent and makes a LIVE one LOST. -/
  | discardExtent (view : Nat) (cmd : Word64)
  /-- ENROLL (R332). ENROLL starts resetting every zone of a drive and writes a HEADER. -/
  | enroll (view : Nat) (cmd : Word64)
  /-- ENROLL_DONE (R347). The last zone reset of ENROLL completes and BUSY clears. -/
  | enrollDone
  /-- PAGE_STAGED (R336). A staging read completes and the page is written into the anteroom, releasing waiting reads. -/
  | pageStaged (page : Nat) (bad : List Nat)
  /-- NVME_COMPLETION (R327). An NVMe command completes from a drive. -/
  | nvmeCompletion (drive : Nat) (cid : Nat) (status : Nat)
  /-- NVME_TIMEOUT (R327). An NVMe command not complete after NVME_TIMEOUT is aborted and a read retried once. -/
  | nvmeTimeout (drive : Nat) (cid : Nat)
  /-- NVME_ABORT_TIMEOUT (R327). An Abort unanswered after a further NVME_TIMEOUT resets the controller and the drive goes DOWN. -/
  | nvmeAbortTimeout (drive : Nat) (cid : Nat)
  /-- SMART_POLL (R343). Every 60 s the part reads each ready drive's SMART log and reports wear. -/
  | smartPoll (drive : Nat) (critical : Nat) (percent : Nat)
  /-- NVME_ASYNC_EVENT (R343). A drive's asynchronous event is handled, reading the changed-zone log or a critical warning. -/
  | nvmeAsyncEvent (drive : Nat) (critical : Nat) (zones : List Nat)
  /-- DRIVE_LINK_DOWN (R344). A drive link down, surprise removal or failed controller reset takes the drive DOWN. -/
  | driveLinkDown (drive : Nat)
  /-- DRIVE_READY (R345). A drive reaching READY has its journal replayed and is served again or recorded for ADOPT. -/
  | driveReady (drive : Nat) (info : DriveInfo)
  /-- ZONE_RESET (R329). A written data zone with no live extents is reset as background work. -/
  | zoneReset (drive : Nat) (zone : Nat)
  /-- DRIVE_INSERTED (R553). NPn_PRSNT_N goes low, starting the 10 ms presence wait. -/
  | driveInserted (drive : Nat)
  /-- NP_PERST_RELEASE (R553). 100 ms after boot step 5 and 10 ms of presence, NPn_PERST_N is released and bring-up begins. -/
  | npPerstRelease (drive : Nat)
  /-- DRIVE_REMOVED (R553). NPn_PRSNT_N going high drives PERST low and takes the drive DOWN as a surprise removal. -/
  | driveRemoved (drive : Nat)
  /-- FLT_EVENT_POP (R348). A read of FLT_EVENT pops the head of the flash event queue. -/
  | fltEventPop (view : Nat)
  /-- DISABLE (R385). DISABLE takes an ACTIVE gallery to DRAINING with an in-flight disable of its work. -/
  | disableGallery (view : Nat) (cmd : Word64)
  /-- ENABLE (R385). ENABLE makes a VACANT or DISABLED gallery ACTIVE if it has a CURRENT key. -/
  | enableGallery (view : Nat) (cmd : Word64)
  /-- RINSE (R386). RINSE clears a disabled gallery's on-die state and keys. -/
  | rinse (view : Nat) (cmd : Word64)
  /-- RINSE_ALL (R386). RINSE_ALL rinses every disabled gallery and clears part-wide state. -/
  | rinseAll (view : Nat) (cmd : Word64)
  /-- RINSE_DEFERRED_START (R387). A rinse requested during a census starts when the census ends. -/
  | rinseDeferredStart
  /-- RINSE_COMPLETE (R387). A rinse finishes and the gallery becomes VACANT. -/
  | rinseComplete (gallery : Nat)
  /-- GALLERY_DRAIN_END (R385). The last work of a draining gallery ends and it becomes DISABLED. -/
  | galleryDrainEnd (gallery : Nat)
  /-- ENTER_VITRINE (R402). ENTER_VITRINE puts the part into Vitrine mode within 10 µs. -/
  | enterVitrine (view : Nat) (cmd : Word64)
  /-- SEAL (R401). SEAL moves a binding entry from IMPORT to SEALED. -/
  | sealBinding (view : Nat) (cmd : Word64)
  /-- UNBIND (R401). UNBIND frees a binding entry and zeroises its content key. -/
  | unbindEntry (view : Nat) (cmd : Word64)
  /-- KEY_INSTALL (R398). A KEY_INSTALL key message installs a gallery key into CURRENT or PREVIOUS. -/
  | keyInstall (chan : Nat) (payload : List Byte)
  /-- ROTATE (R399). A ROTATE key message moves CURRENT to PREVIOUS and installs a new CURRENT. -/
  | rotate (chan : Nat) (payload : List Byte)
  /-- COLLECTION_LOAD (R400). A COLLECTION_LOAD message unwraps a collection key into a slot. -/
  | collectionLoad (chan : Nat) (payload : List Byte)
  /-- BIND (R401). A BIND message sets a binding entry to IMPORT and tags the object's pages BOUND. -/
  | bindObject (chan : Nat) (payload : List Byte)
  /-- REENCRYPT_PAGE (R399). Background re-encryption rewrites a PREVIOUS-tagged page under CURRENT, ending the rotation when none remain. -/
  | reencryptPage (page : Nat)
  /-- GAL_PORT_WRITE (R383). A write of GAL_PORT_n changes each port's gallery nibble unless the port is enabled. -/
  | galPortWrite (view : Nat) (reg : Nat) (value : Word32)
  /-- GAL_EVENT_POP (R412). A read of GAL_EVENT pops the head of the gallery event queue. -/
  | galEventPop (view : Nat)
  /-- HOLD (R420). HOLD assigns a FREE extent on the twin to hold a primary's extent. -/
  | holdExtent (view : Nat) (cmd : Word64)
  /-- RELEASE_HOLD (R442). RELEASE_HOLD clears the hold of an extent. -/
  | releaseHold (view : Nat) (cmd : Word64)
  /-- MIRROR_COPY (R427). MIRROR_COPY sends every line of an extent to its twin through the mirror service. -/
  | mirrorCopy (view : Nat) (cmd : Word64)
  /-- SYS_TWIN_WRITE (R427). Setting FLR_SYS_TWIN.VALID runs MIRROR_COPY over the system region. -/
  | sysTwinWrite (view : Nat) (value : Word32)
  /-- RESUME_TWIN (R428). RESUME_TWIN clears the DOWN mark of a twin. -/
  | resumeTwin (view : Nat) (cmd : Word64)
  /-- TWIN_WRITE_TIMEOUT (R428). A write-through unanswered for half the completion timeout marks the twin DOWN and answers the writer OK. -/
  | twinWriteTimeout (agent : Nat) (tag : Nat)
  /-- BEGIN (R430). BEGIN puts a spare into SHADOW answering to the failed part's number. -/
  | beginStandIn (view : Nat) (cmd : Word64)
  /-- SEND (R430). SEND makes a twin copy its held extents of the failed part to the stand-in. -/
  | sendExtents (view : Nat) (cmd : Word64)
  /-- SEND_STALL (R434). A SEND that makes no progress for SWC_CPL_TIMEOUT is reported on the stand-in. -/
  | sendStall (twin : Nat)
  /-- ABANDON_TWIN (R434). ABANDON_TWIN keeps DONE extents as UNCHECKED and loses or frees the rest. -/
  | abandonTwin (view : Nat) (cmd : Word64)
  /-- TAKE (R430). TAKE sets the stand-in's part number to the failed part's and begins serving catalogue extents. -/
  | takeIdentity (view : Nat) (cmd : Word64)
  /-- ABORT_STANDIN (R442). ABORT_STANDIN returns the stand-in to SPARE and frees every extent copied. -/
  | abortStandin (view : Nat) (cmd : Word64)
  /-- UNQUARANTINE (R440). UNQUARANTINE clears an engine's quarantine mark. -/
  | unquarantine (view : Nat) (cmd : Word64)
  /-- SELFTEST (R441). SELFTEST requests self-test patterns on a named engine when next idle. -/
  | selftest (view : Nat) (cmd : Word64)
  /-- SELFTEST_RUN (R441). An idle engine runs its self-test patterns and charges any wrong result as a mismatch. -/
  | selftestRun (engine : Nat) (wrong : Nat)
  /-- SPOT_CHECK (R438). A selected chunk or tile is recomputed on another engine and compared. -/
  | spotCheck (engine : Nat) (other : Nat) (charged : List Nat)
  /-- RE_DISABLE (R436). Clearing FLR_RE_CTRL_n.ENABLE starts an in-flight disable of a reduce engine. -/
  | reDisable (view : Nat) (engine : Nat)
  /-- DRAIN_BOUND_EXPIRY (R436). At FLR_DRAIN.BOUND_US the remaining work of a disable is aborted with error completions. -/
  | drainBoundExpiry (target : DrainTarget)
  /-- HOST_PORT_RESET (R490). A PERST#, hot reset, link-down or Function Level Reset refuses function 1 requests and empties function 0's mailbox channel. -/
  | hostPortReset (hp : Nat) (kind : Nat)
  /-- FUNCTION_DRAIN_EXPIRY (R437). After the lesser of BOUND_US and 90 ms, function 1's outstanding requests are abandoned. -/
  | functionDrainExpiry (hp : Nat)
  /-- FLR_EVENT_POP (R447). A read of FLR_EVENT pops the head of the recovery event queue. -/
  | flrEventPop (view : Nat)
  /-- FAULT_QUEUE_POP (R446). A read of FLR_FAULT_POP_g pops the head of a gallery fault queue. -/
  | faultQueuePop (view : Nat) (gallery : Nat)
  /-- EVENT_HEAD_LATCH (R528). A read of CAT_EVENT_ADDR, FLT_EVENT_INFO or word 0 of a fault entry latches the head entry for that view. -/
  | eventHeadLatch (view : Nat) (which : Nat)
  /-- GET_INFO (R493). GET_INFO returns identity, serial, firmware and boot state. -/
  | getInfo (chan : Nat) (payload : List Byte)
  /-- UPDATE_BEGIN (R485). UPDATE_BEGIN opens an update session and erases the inactive slot. -/
  | updateBegin (chan : Nat) (payload : List Byte)
  /-- UPDATE_WRITE (R485). UPDATE_WRITE programs one 2,048-byte chunk of the inactive slot. -/
  | updateWrite (chan : Nat) (payload : List Byte)
  /-- UPDATE_VERIFY (R485). UPDATE_VERIFY reads the slot back and applies the image checks. -/
  | updateVerify (chan : Nat) (payload : List Byte)
  /-- UPDATE_ACTIVATE (R485). UPDATE_ACTIVATE writes the directory naming the new slot with TRIAL = 1. -/
  | updateActivate (chan : Nat) (payload : List Byte)
  /-- UPDATE_STATUS (R493). UPDATE_STATUS reports the state and result of the last async step. -/
  | updateStatus (chan : Nat) (payload : List Byte)
  /-- UPDATE_CONFIRM (R485). UPDATE_CONFIRM clears TRIAL and may raise the floor or revoke signers. -/
  | updateConfirm (chan : Nat) (payload : List Byte)
  /-- UPDATE_ABORT (R486). UPDATE_ABORT ends an update session. -/
  | updateAbort (chan : Nat) (payload : List Byte)
  /-- CONFIG_READ (R493). CONFIG_READ returns a configuration record copy. -/
  | configRead (chan : Nat) (payload : List Byte)
  /-- CONFIG_WRITE (R493). CONFIG_WRITE checks a record, writes it to the other copy and flips RECORD. -/
  | configWrite (chan : Nat) (payload : List Byte)
  /-- DAYBOOK_READ (R493). DAYBOOK_READ returns daybook entries from a given SEQ. -/
  | daybookRead (chan : Nat) (payload : List Byte)
  /-- MEASURE_EXTEND (R482). MEASURE_EXTEND extends measurement 7 with a digest. -/
  | measureExtend (chan : Nat) (payload : List Byte)
  /-- COLD_RESET (R493). COLD_RESET is answered and schedules a reset of the part after 10 ms. -/
  | coldReset (chan : Nat) (payload : List Byte)
  /-- COLD_RESET_EXPIRY (R493). 10 ms after COLD_RESET is answered the part is reset, starting a cold boot. -/
  | coldResetExpiry (env : BootEnv)
  /-- NOR_STEP_END (R492). An async NOR step ends, setting NOR_DONE and raising vector 1. -/
  | norStepEnd
  /-- GET_VERSION (R483). The SPDM responder answers GET_VERSION. -/
  | getVersion (chan : Nat) (req : List Byte)
  /-- GET_CAPABILITIES (R483). The SPDM responder answers GET_CAPABILITIES. -/
  | getCapabilities (chan : Nat) (req : List Byte)
  /-- NEGOTIATE_ALGORITHMS (R483). The SPDM responder negotiates Falcon-1024 and SHAKE256 or answers UnsupportedRequest. -/
  | negotiateAlgorithms (chan : Nat) (req : List Byte)
  /-- GET_DIGESTS (R483). The SPDM responder returns certificate chain digests. -/
  | getDigests (chan : Nat) (req : List Byte)
  /-- GET_CERTIFICATE (R484). The SPDM responder returns a certificate chain from a slot. -/
  | getCertificate (chan : Nat) (req : List Byte)
  /-- CHALLENGE (R483). The SPDM responder signs a challenge response with the attestation key. -/
  | challenge (chan : Nat) (req : List Byte)
  /-- GET_MEASUREMENTS (R483). The SPDM responder reports the provenance measurements as they stand. -/
  | getMeasurements (chan : Nat) (req : List Byte)
  /-- SPDM_UNSUPPORTED_REQUEST (R483). Any other SPDM request is answered with ERROR UnsupportedRequest. -/
  | spdmUnsupportedRequest (chan : Nat) (req : List Byte)
  /-- POOL_WINDOW_READ (R489). A host Memory Read on function 1 is performed as RD_LINE of each line it touches. -/
  | poolWindowRead (hp : Nat) (offset : Nat) (length : Nat)
  /-- POOL_WINDOW_WRITE (R489). A host Memory Write on function 1 is performed as WR_LINE and WR_MASKED requests. -/
  | poolWindowWrite (hp : Nat) (offset : Nat) (data : List Byte) (enables : List Bool)
  /-- POOL_WINDOW_ATOMIC (R489). A host AtomicOp on function 1 is performed as AT_ADD or AT_CAS, or completes Unsupported Request. -/
  | poolWindowAtomic (hp : Nat) (kind : Nat) (offset : Nat) (data : List Byte)
  /-- CORE_POOL_ACCESS (R499). An application-core access to the pool window becomes a request from agent 0x102. -/
  | corePoolAccess (kind : CoreAccess) (offset : Nat) (data : List Byte)
  /-- CORE_CACHE_UE (R500). An uncorrectable core cache error latches APC_HW_ERROR, raises identity 63 and poisons a dirty line. -/
  | coreCacheUe (unit : Nat) (line : Nat) (dirty : Bool)
  /-- APC_HW_ERROR_READ (R504). A read of APC_HW_ERROR returns and clears the latched error. -/
  | apcHwErrorRead (view : Nat)
  /-- DAYBOOK_FLUSH (R496). Daybook entries are written to the NOR ring within 10 ms or 1 s of their severity. -/
  | daybookFlush
  /-- TEL_CAT_QUERY (R520). A write of TEL_CAT.ID reports whether the counter exists, its class and scope. -/
  | telCatQuery (view : Nat) (id : Word32)
  /-- TEL_CLEAR (R508). TEL_CLEAR zeroes a SAT32 counter or histogram and clears OVF. -/
  | telClear (view : Nat) (id : Word32)
  /-- CENSUS_START (R512). START increments CENSUS_ID and sets the census PENDING. -/
  | censusStart (view : Nat)
  /-- CENSUS_GRANT (R512). The scheduler grants the census a turn, and markers are injected at every ingress and agent. -/
  | censusGrant
  /-- CENSUS_CLOSE (R512). When every unit has closed its shadow bank the census is DONE. -/
  | censusClose
  /-- TEL_EVENT_POP (R521). A read of TEL_EVENT pops the head of the telemetry event queue. -/
  | telEventPop (view : Nat)
  /-- REGISTER_WRITE (R525). A write to any other register sets its fields under its type, holding a low half and ignoring invalid values. -/
  | registerWrite (view : Nat) (offset : Nat) (size : Nat) (value : Word64)
  /-- CELL_TIME (R354). Every cell time the matcher runs its request-grant-accept iterations, matched cells cross the crossbar, and every shaper adds RATE ÷ 400 bytes of tokens. -/
  | cellTime
  /-- MESSAGE_START (R361). When a logical port's link transmitter can start a message, the egress scheduler picks the eligible head by class, priority and finish tag, subtracts shaper tokens and credits, and sends it. -/
  | messageStart (port : Nat)
  /-- LOCK_LOST (R51). A logical port that loses PCS block, alignment-marker or FEC lock, as when its peer retrains or its cable is removed, leaves its state and retrains. -/
  | lockLost (port : Nat)
  /-- JTAG_INSTRUCTION (R482). A JTAG instruction shifted into the TAP is answered, limited to IDCODE and BYPASS in Vitrine mode, and any other instruction sets DEBUG_SEEN and rewrites measurement 6. -/
  | jtagInstruction (code : Nat)
  /-- ISLAND_POWER_LOSS (R545). VIN48 falling below 30.0 V leaves the part unpowered, losing the Curator island, its SRAM daybook entries not yet in NOR, and FAULT_N. -/
  | islandPowerLoss
  /-- VIN48_REACHES_39V (R551). VIN48 rising to 39.0 V after PWRGD has already risen becomes time 0 of the cold boot. -/
  | vin48Reaches39v (env : BootEnv)
  /-- PERST_DEASSERT (R553). HP0_PERST_N or HP1_PERST_N deasserting lets that host port train, and ends the Request Retry Status of boot step 6 100 ms later. -/
  | perstDeassert (hp : Nat)
  /-- NP_REFCLK_RETURN (R550). NP_REFCLK returning brings the flash root ports back, so that the drives taken DOWN by its loss are brought up again. -/
  | npRefclkReturn
  deriving DecidableEq, Repr

end Sys2Proof
end

