-- ==== Sys2Proof/Decode.lean ====
section
/-!
DEFINITION. Words that spell commands. The table of operations and events gives no row any bits: a command is a message, a register
access or an event, and no word of the table spells one.
-/

namespace Sys2Proof

/-- The command that a word of the table's bits spells: none, since the table gives no row bits. -/
def decodeTableWord (_nbits _w : Nat) : Option Instr := none

end Sys2Proof
end

