-- ==== Sys2Proof/Config.lean ====
section
/-!
DEFINITION. Values that the manual leaves open, and functions of external standards, as constants without a body.
Nothing in Lean can evaluate one, so a claim holds whatever they are.
-/

namespace Sys2Proof.Config

/-- A free value of 64 bits, by its number. -/
opaque freeWord : Nat → BitVec 64

/-- A free choice, by its number. -/
opaque freeBool : Nat → Bool

/-- A free choice, by its number and the place it is made for. -/
opaque freeAt : Nat → Nat → Bool

/-- What a word of a line that has not been written since the last cold boot decodes to under the code key (R304, R306): code key,
line, word. Bits [63:0] are data, bit [64] the poison bit, bits [66:65] the outcome. -/
opaque leftover : Nat → Nat → Nat → BitVec 67

/-- Messages that the resequencer's holding space can hold (R69). -/
opaque holdingSpace : Nat

/-- The place in the directory cache that the entry of a line takes when the cache is full (R125). -/
opaque dirVictim : Nat → Nat

/-- The place of an extent in its object (R18): object identifier, part number × 262,144 + extent number. -/
opaque ordinal : BitVec 64 → Nat → Nat

/-- The part's ML-KEM-1024 decapsulation key, 3,168 bytes of FIPS 203 (R397, R471). -/
opaque decapKey : List Byte

/-- The Falcon-1024 signature of the attestation key over these bytes (R471, R483). -/
opaque falconSign : List Byte → List Byte

/-- The Merforoth root and product authority certificates (R484), the authority's name as an issuer, its signature over a certificate's body,
the validity of the part's certificates, the contents of the object identifier of Falcon-1024, and the part's attestation key. -/
opaque rootCert : List Byte
opaque authorityCert : List Byte
opaque authorityName : List Byte
opaque authoritySign : List Byte → List Byte
opaque certValidity : List Byte
opaque falconOid : List Byte
opaque attestKey : List Byte

/-- The boot ROM's bytes, which measurement 1 digests (R482). -/
opaque bootRom : List Byte

/-- The integral term of the Iron controller, in units of 10 µW, by the integral of the error (R457): the spec gives it no gain. -/
opaque ironTerm : Int → Int

/-- GELU and SiLU of an FP32 pattern, to the part's accuracy (R277). -/
opaque gelu : BitVec 32 → BitVec 32
opaque silu : BitVec 32 → BitVec 32

/-- The part's serial (R502: fused), and the digests of its image-signer entries (R471). -/
opaque serial : BitVec 64
opaque signerDigest : Nat → Nat

/-- What the board's boot NOR holds in an image slot when the part first powers up (R475). -/
opaque norImage : Nat → List Byte

/-- Is the extent of that pool address on another part a catalogue extent (R499)? The part holds no table that says so. -/
opaque remoteCatalogue : Nat → Bool

/-- The temperature sensor nearest an engine (R439). -/
opaque nearSensor : Nat → Nat

/-- Where in the working region REGISTRAR is copied to (R478 step 9). -/
opaque corePlace : Nat

/-- A value drawn from the Curator's random source (R470), by its number. -/
opaque random : Nat → Nat

end Sys2Proof.Config
end

