-- ==== Sys2Proof/Machine/Bits.lean ====
section
/-!
DEFINITION. Bit fields, byte order, sparse tables and the link CRC: the computations every other file uses.
-/

namespace Sys2Proof.Machine

/-- Bit `i` of `n`. -/
def bitAt (n i : Nat) : Bool := n.testBit i

/-- The field `n[hi:lo]`, both ends included (Notation and conventions, chapter 00). -/
def field (n hi lo : Nat) : Nat := (n >>> lo) % 2 ^ (hi + 1 - lo)

/-- `n` with the field `[hi:lo]` replaced by the low bits of `v`. -/
def setField (n hi lo v : Nat) : Nat :=
  n - (field n hi lo) * 2 ^ lo + (v % 2 ^ (hi + 1 - lo)) * 2 ^ lo

/-- 1 for true, 0 for false. -/
def bitOf (b : Bool) : Nat := if b then 1 else 0

/-- The `k` bytes of `n`, least significant first (R8). -/
def leBytes : Nat → Nat → List Byte
  | 0, _ => []
  | k + 1, n => BitVec.ofNat 8 n :: leBytes k (n / 256)

/-- The number whose bytes, least significant first, are `bs` (R8). -/
def ofLe : List Byte → Nat
  | [] => 0
  | b :: bs => b.toNat + 256 * ofLe bs

/-- The `k` bytes of `bs` from byte `off`, zero where the list is too short. -/
def sliceBytes (bs : List Byte) (off k : Nat) : List Byte :=
  let part := (bs.drop off).take k
  part ++ List.replicate (k - part.length) 0

/-- The little-endian number in the `k` bytes of `bs` from byte `off`. -/
def leAt (bs : List Byte) (off k : Nat) : Nat := ofLe ((bs.drop off).take k)

/-- `bs` with the bytes `new` written from byte `off` on (the length of `bs` is kept). -/
def patchBytes (bs : List Byte) (off : Nat) (new : List Byte) : List Byte :=
  (bs.take off ++ new ++ bs.drop (off + new.length)).take bs.length

/-- `n` pieces of `k` bytes each. -/
def chunksOf (k : Nat) : Nat → List Byte → List (List Byte)
  | 0, _ => []
  | n + 1, bs => bs.take k :: chunksOf k n (bs.drop k)

/-- The entry of a table at index `k`, if one is listed. -/
def tget? {α : Type} : Table α → Nat → Option α
  | [], _ => none
  | (i, v) :: t, k => if i = k then some v else tget? t k

/-- The entry of a table at index `k`, or the table's reset entry. -/
def tget {α : Type} (t : Table α) (k : Nat) (d : α) : α := (tget? t k).getD d

/-- Is index `k` listed? -/
def thas {α : Type} (t : Table α) (k : Nat) : Bool := (tget? t k).isSome

/-- The table with entry `v` at index `k`, still sorted by index. -/
def tset {α : Type} : Table α → Nat → α → Table α
  | [], k, v => [(k, v)]
  | (i, w) :: t, k, v =>
    if k < i then (k, v) :: (i, w) :: t
    else if k = i then (k, v) :: t
    else (i, w) :: tset t k v

/-- The table of a list of entries: sorted by index, the last of one index standing. -/
def canonical {α : Type} (t : Table α) : Table α := t.foldl (fun t p => tset t p.1 p.2) []

/-- The table without an entry at index `k`. -/
def tdel {α : Type} : Table α → Nat → Table α
  | [], _ => []
  | (i, w) :: t, k => if i = k then t else (i, w) :: tdel t k

/-- Change the entry at `k`, starting from the reset entry `d` where none is listed. -/
def tmod {α : Type} (t : Table α) (k : Nat) (d : α) (f : α → α) : Table α := tset t k (f (tget t k d))

/-- The table with every listed entry changed by `f`. -/
def tmap {α : Type} (t : Table α) (f : α → α) : Table α := t.map fun p => (p.1, f p.2)

/-- The index of the least free place among `0 … n - 1` that `used` does not hold. -/
def firstFree (used : Nat → Bool) (n : Nat) : Option Nat := (List.range n).find? fun i => !used i

/-- Replace element `i` of a list. -/
def lset {α : Type} : List α → Nat → α → List α
  | [], _, _ => []
  | _ :: xs, 0, v => v :: xs
  | x :: xs, i + 1, v => x :: lset xs i v

/-- The least `k` with `n ≤ k * m`: division rounded up. -/
def ceilDiv (n m : Nat) : Nat := (n + m - 1) / m

/-- Eight steps of the CRC register, least significant bit first: the reflected polynomial of
0x42F0_E1EB_A9EA_3693 (R45). -/
def crcBits : Nat → Nat → Nat
  | 0, r => r
  | k + 1, r => crcBits k (if r % 2 = 1 then (r / 2) ^^^ 0xC96C5795D7870F42 else r / 2)

/-- The CRC register after one more byte. -/
def crcByte (r : Nat) (b : Byte) : Nat := crcBits 8 (r ^^^ b.toNat)

/-- The CRC-64 of R45: the register starts at all ones, bits are taken least significant first from byte 0 upward,
and the result is inverted. -/
def crc64 (bs : List Byte) : Nat := (bs.foldl crcByte 0xFFFFFFFFFFFFFFFF) ^^^ 0xFFFFFFFFFFFFFFFF

/-- Serial comparison modulo `2 ^ 24` (R69): `s < x`. -/
def serialBefore (s x : BitVec 24) : Bool := 1 ≤ (x - s).toNat && (x - s).toNat ≤ 2 ^ 23 - 1

/-- The two's complement value of the low `w` bits of `n`. -/
def signed (w n : Nat) : Int :=
  let m := n % 2 ^ w
  if m < 2 ^ (w - 1) then (m : Int) else (m : Int) - (2 ^ w : Nat)

/-- The low `w` bits of an integer. -/
def unsign (w : Nat) (z : Int) : Nat := (z % ((2 ^ w : Nat) : Int)).toNat

end Sys2Proof.Machine
end

