-- ==== Sys2Proof/Machine/Float.lean ====
section
/-!
DEFINITION. Floating-point arithmetic of the engines (R164 to R166, R284): exact values, rounding to nearest with ties to
even, FP32, BF16, FP16 and the elements of the OCP Microscaling formats (R149).
-/

namespace Sys2Proof.Machine

/-- A value: NaN, an infinity, or sign, mantissa and exponent of `± m × 2 ^ e`. -/
inductive FVal | nan | inf (neg : Bool) | fin (neg : Bool) (m : Nat) (e : Int)
  deriving DecidableEq, Repr

/-- An interchange format: exponent bits, fraction bits. -/
structure FFmt where
  eb : Nat
  mb : Nat
  deriving DecidableEq, Repr

def fp32 : FFmt := { eb := 8, mb := 23 }
def bf16 : FFmt := { eb := 8, mb := 7 }
def fp16 : FFmt := { eb := 5, mb := 10 }

/-- Bias of a format. -/
def FFmt.bias (f : FFmt) : Int := 2 ^ (f.eb - 1) - 1

/-- The exponent of the last place of a subnormal. -/
def FFmt.qmin (f : FFmt) : Int := 1 - f.bias - f.mb

/-- The canonical NaN: 0x7FC0_0000, 0x7FC0, 0x7E00 (R166, R284). -/
def FFmt.nanBits (f : FFmt) : Nat := (2 ^ f.eb - 1) * 2 ^ f.mb + 2 ^ (f.mb - 1)

/-- A finite element with a biased exponent and a fraction. -/
def finOf (mb : Nat) (qmin : Int) (neg : Bool) (biased frac : Nat) : FVal :=
  if biased = 0 then .fin neg frac qmin else .fin neg (2 ^ mb + frac) (qmin + (biased - 1 : Nat))

/-- The value of a pattern. -/
def decodeF (f : FFmt) (bits : Nat) : FVal :=
  let frac := bits % 2 ^ f.mb
  let biased := bits / 2 ^ f.mb % 2 ^ f.eb
  let neg := bitAt bits (f.eb + f.mb)
  if biased = 2 ^ f.eb - 1 then (if frac = 0 then .inf neg else .nan) else finOf f.mb f.qmin neg biased frac

/-- `m / 2 ^ k` rounded to nearest, ties to even. -/
def rneShift (m k : Nat) : Nat :=
  let q := m / 2 ^ k
  let r := m % 2 ^ k
  if 2 * r < 2 ^ k then q else if 2 ^ k < 2 * r then q + 1 else q + q % 2

/-- `m × 2 ^ e` as a multiple of `2 ^ q`, rounded to nearest even. -/
def rneAt (m : Nat) (e q : Int) : Nat := if q ≤ e then m * 2 ^ (e - q).toNat else rneShift m (q - e).toNat

/-- The multiple and the last place of `m × 2 ^ e` rounded to `p` bits, no place below `qmin`. -/
def roundBits (p : Nat) (qmin : Int) (m : Nat) (e : Int) : Nat × Int :=
  let q := max ((Nat.log2 m : Nat) + e - ((p : Nat) - 1 : Nat)) qmin
  let n := rneAt m e q
  if n = 2 ^ p then (2 ^ (p - 1), q + 1) else (n, q)

/-- The pattern of a value rounded once to a format, and whether a finite value became infinite. -/
def encodeF (f : FFmt) (v : FVal) : Nat × Bool :=
  let sign (neg : Bool) : Nat := bitOf neg * 2 ^ (f.eb + f.mb)
  let infBits := (2 ^ f.eb - 1) * 2 ^ f.mb
  match v with
  | .nan => (f.nanBits, false)
  | .inf neg => (sign neg + infBits, false)
  | .fin neg m e =>
    if m = 0 then (sign neg, false)
    else
      let (n, q) := roundBits (f.mb + 1) f.qmin m e
      if n < 2 ^ f.mb then (sign neg + n, false)
      else
        let biased := (q - f.qmin).toNat + 1
        if 2 ^ f.eb - 1 ≤ biased then (sign neg + infBits, true)
        else (sign neg + biased * 2 ^ f.mb + (n - 2 ^ f.mb), false)

/-- The signed mantissa of a finite value at exponent `e`, which is not above its own. -/
def mantAt (neg : Bool) (m : Nat) (e₀ e : Int) : Int :=
  let k : Int := (m * 2 ^ (e₀ - e).toNat : Nat)
  if neg then -k else k

/-- Exact sum. A zero sum of unlike signs is +0. -/
def addF (a b : FVal) : FVal :=
  match a, b with
  | .nan, _ | _, .nan => .nan
  | .inf x, .inf y => if x = y then .inf x else .nan
  | .inf x, _ | _, .inf x => .inf x
  | .fin n m e, .fin n' m' e' =>
    let q := min e e'
    let z := mantAt n m e q + mantAt n' m' e' q
    if z = 0 then .fin (n && n') 0 q else .fin (decide (z < 0)) z.natAbs q

/-- Exact product. -/
def mulF (a b : FVal) : FVal :=
  match a, b with
  | .nan, _ | _, .nan => .nan
  | .inf x, .inf y => .inf (x != y)
  | .inf x, .fin n m _ | .fin n m _, .inf x => if m = 0 then .nan else .inf (x != n)
  | .fin n m e, .fin n' m' e' => .fin (n != n') (m * m') (e + e')

/-- A quotient by a positive number, close enough below to be rounded once. -/
def divNatF (a : FVal) (k : Nat) : FVal :=
  match a with
  | .fin n m e =>
    if m = 0 then .fin n 0 e
    else
      let up := 64 + Nat.log2 k
      let q := m * 2 ^ up / k
      .fin n (2 * q + bitOf (m * 2 ^ up % k ≠ 0)) (e - up - 1)
  | v => v

/-- FP32 sum of patterns, rounded once, and whether finite operands gave an infinity. -/
def addFp32 (a b : Nat) : Nat × Bool := encodeF fp32 (addF (decodeF fp32 a) (decodeF fp32 b))

/-- FP32 product of patterns, rounded once. -/
def mulFp32 (a b : Nat) : Nat := (encodeF fp32 (mulF (decodeF fp32 a) (decodeF fp32 b))).1

/-- FP32 fused multiply-add of patterns, rounded once. -/
def fmaFp32 (a b c : Nat) : Nat := (encodeF fp32 (addF (mulF (decodeF fp32 a) (decodeF fp32 b)) (decodeF fp32 c))).1

/-- Is `a` less than `b`, with −0 below +0? NaN is handled by the caller. -/
def lessF (a b : FVal) : Bool :=
  match a, b with
  | .inf x, .inf y => x && !y
  | .inf x, _ => x
  | _, .inf y => !y
  | .fin n m e, .fin n' m' e' =>
    let q := min e e'
    let x := mantAt n m e q
    let y := mantAt n' m' e' q
    decide (x < y) || (x = y && n && !n')
  | _, _ => false

/-- Minimum and maximum of IEEE 754-2019 on FP32 patterns (R165). -/
def minFp32 (a b : Nat) : Nat :=
  match decodeF fp32 a, decodeF fp32 b with
  | .nan, _ | _, .nan => fp32.nanBits
  | x, y => if lessF y x then b else a
def maxFp32 (a b : Nat) : Nat :=
  match decodeF fp32 a, decodeF fp32 b with
  | .nan, _ | _, .nan => fp32.nanBits
  | x, y => if lessF x y then b else a

/-! ### Microscaling elements (R149) -/

/-- An MX element format: bits, exponent bits, fraction bits, bias, and the exponent of its largest power of two. -/
structure MxFmt where
  bits : Nat
  eb   : Nat
  mb   : Nat
  bias : Int
  emax : Int
  deriving DecidableEq, Repr

/-- The element formats by their codes 0x3 to 0x7 (R148, R166). -/
def mxFmt (code : Nat) : MxFmt :=
  match code with
  | 3 => { bits := 8, eb := 4, mb := 3, bias := 7, emax := 8 }
  | 4 => { bits := 8, eb := 5, mb := 2, bias := 15, emax := 15 }
  | 5 => { bits := 6, eb := 3, mb := 2, bias := 3, emax := 4 }
  | 6 => { bits := 6, eb := 2, mb := 3, bias := 1, emax := 2 }
  | _ => { bits := 4, eb := 2, mb := 1, bias := 1, emax := 2 }

/-- The value of an element before scaling: E4M3 has one NaN and no infinity, E5M2 both, the others neither. -/
def mxElement (code n : Nat) : FVal :=
  let f := mxFmt code
  let frac := n % 2 ^ f.mb
  let biased := n / 2 ^ f.mb % 2 ^ f.eb
  let neg := bitAt n (f.eb + f.mb)
  if code = 3 && n % 128 = 127 then .nan
  else if code = 4 && biased = 31 then (if frac = 0 then .inf neg else .nan)
  else finOf f.mb (1 - f.bias - f.mb) neg biased frac

/-- An element at its block's scale as FP32 (R164), and whether a finite value passed the FP32 range. -/
def mxToFp32 (code scale n : Nat) : Nat × Bool :=
  if scale = 255 then (fp32.nanBits, false)
  else
    match mxElement code n with
    | .fin neg m e => encodeF fp32 (.fin neg m (e + scale - 127))
    | v => encodeF fp32 v

/-- Largest finite magnitude of an element format as multiple of its last place, with that place's exponent. -/
def mxMax (code : Nat) : Nat × Int :=
  let f := mxFmt code
  let n := if code = 3 then 14 else 2 ^ (f.mb + 1) - 1
  (n, f.emax - f.mb)

/-- A finite value rounded to an element of the format, at exponent offset `x`, clamped to the largest magnitude. -/
def mxRound (code : Nat) (x : Int) (neg : Bool) (m : Nat) (e : Int) : Nat :=
  let f := mxFmt code
  let sign := bitOf neg * 2 ^ (f.eb + f.mb)
  if m = 0 then sign
  else
    let qmin := 1 - f.bias - f.mb
    let (n, q) := roundBits (f.mb + 1) qmin m (e - x)
    let (mx, mq) := mxMax code
    if mq < q || (mq = q && mx < n) then
      sign + ((mq - qmin).toNat + 1) * 2 ^ f.mb + (mx - 2 ^ f.mb)
    else if n < 2 ^ f.mb then sign + n
    else sign + ((q - qmin).toNat + 1) * 2 ^ f.mb + (n - 2 ^ f.mb)

/-- ⌊log2⌋ of a finite magnitude that is not zero. -/
def log2F (m : Nat) (e : Int) : Int := (Nat.log2 m : Nat) + e

/-- Largest ⌊log2⌋ of the finite magnitudes of a block; none if all are zero or not finite. -/
def blockTop (vs : List FVal) : Option Int :=
  vs.foldl (fun b v =>
    match v with
    | .fin _ m e => if m = 0 then b else some (match b with | some x => max x (log2F m e) | none => log2F m e)
    | _ => b) none

/-- One element of an MX output at scale `x` (R166). -/
def mxOut (code : Nat) (x : Int) (v : FVal) : Nat :=
  match v with
  | .fin neg m e => mxRound code x neg m e
  | .inf neg => bitOf neg * 128 + 0x7C
  | .nan => if code = 4 then 0x7E else 0x7F

/-- A block of results in an MX format (R166): scale byte, elements, and whether it lost range (R561). -/
def mxBlock (code : Nat) (vs : List FVal) : Nat × List Nat × Bool :=
  let isInf (v : FVal) : Bool := match v with | .inf _ => true | _ => false
  let bad : Bool := (code ≠ 4 && vs.any isInf) || (5 ≤ code && vs.any (· = .nan))
  if bad then (255, vs.map fun _ => 0, code ≠ 4 && vs.any isInf)
  else
    let x := match blockTop vs with
      | none => -127
      | some t => max (-127) (min 127 (t - (mxFmt code).emax))
    ((x + 127).toNat, vs.map (mxOut code x), false)

end Sys2Proof.Machine
end

