-- ==== Sys2Proof/Machine/Activation.lean ====
section
/-!
DEFINITION. The activations of a channel unit (R277, R285). RELU is exact. GELU and SILU are free within the error that R285
allows: both are r × σ(z), with σ(z) = 1 ÷ (1 + e⁻ᶻ), z = r for SILU and z = 2 √(2/π) (r + 0.044715 r³) for GELU, since
1 + tanh u = 2 σ(2 u). The formula is evaluated in fixed point with 80 fraction bits.
-/

namespace Sys2Proof.Machine

/-- One, in fixed point. -/
def actOne : Nat := 2 ^ 80

/-- ln 2 and 2 √(2/π), in fixed point. -/
def actLn2 : Nat := 837963523372001241319907
def actGeluScale : Nat := 1929166493252924854041779

/-- Terms `k`, `k + 1`, … of the exponential series of `f`, from the term `t`. -/
def expTerms : Nat → Nat → Nat → Nat → Nat
  | 0, _, _, _ => 0
  | n + 1, k, f, t => t + expTerms n (k + 1) f (t * f / actOne / (k + 1))

/-- σ of a value of magnitude `z`, in fixed point; beyond 64 it is 1 or 0 to within 2⁻⁹². -/
def logisticFix (neg : Bool) (z : Nat) : Nat :=
  if 64 * actOne ≤ z then bitOf (!neg) * actOne
  else
    let e := expTerms 32 0 (z % actLn2) actOne * 2 ^ (z / actLn2)
    (if neg then actOne * actOne else actOne * e) / (e + actOne)

/-- The magnitude of `z` for `r = ± m × 2 ^ e`, in fixed point: GELU is taken as saturated from |r| = 16. -/
def actPoint (act m : Nat) (e : Int) : Nat :=
  let r := if 0 ≤ e + 80 then m * 2 ^ (e + 80).toNat else m / 2 ^ (-(e + 80)).toNat
  if act = 3 then r
  else if 16 * actOne ≤ r then 64 * actOne
  else actGeluScale * (r + 44715 * r ^ 3 / (1000000 * actOne ^ 2)) / actOne

/-- The stated formula of GELU (ACT 2) or SILU (ACT 3) at `± m × 2 ^ e`. -/
def actExact (act : Nat) (neg : Bool) (m : Nat) (e : Int) : FVal :=
  .fin neg (m * logisticFix neg (actPoint act m e)) (e - 80)

/-- The largest error at `± m × 2 ^ e`: 2⁻²¹ × |r| + 2⁻¹⁴⁹ (R285), and 2⁻⁶⁴ × |r| for the fixed point: DESIGN CHOICE. -/
def actError (m : Nat) (e : Int) : FVal := addF (.fin false (m * (2 ^ 43 + 1)) (e - 64)) (.fin false 1 (-149))

/-- The magnitude of a value. -/
def absF (v : FVal) : FVal :=
  match v with
  | .inf _ => .inf false
  | .fin _ m e => .fin false m e
  | .nan => .nan

/-- The value with its sign changed. -/
def negF (v : FVal) : FVal :=
  match v with
  | .inf n => .inf !n
  | .fin n m e => .fin (!n) m e
  | .nan => .nan

/-- May the part answer `v` for GELU or SILU of `± m × 2 ^ e` (R285)? Its magnitude never exceeds |r|. -/
def actAllowed (act : Nat) (neg : Bool) (m : Nat) (e : Int) (v : Nat) : Bool :=
  match decodeF fp32 v with
  | .fin n m' e' =>
    !lessF (.fin false m e) (.fin false m' e') &&
      !lessF (actError m e) (absF (addF (.fin n m' e') (negF (actExact act neg m e))))
  | _ => false

/-- GELU or SILU of a finite value: the free value where R285 allows it, else the rounded formula, which it allows too. -/
def actFinite (act : Nat) (neg : Bool) (m : Nat) (e : Int) (free : Nat) : Nat :=
  if actAllowed act neg m e free then free else (encodeF fp32 (actExact act neg m e)).1

/-- The activation of an FP32 pattern (R285). -/
def chuActivate (act r : Nat) : Nat :=
  match act, decodeF fp32 r with
  | 0, _ => r
  | _, .nan => fp32.nanBits
  | 1, _ => if r < 2 ^ 31 then r else 0
  | _, .inf neg => if neg then 2 ^ 31 else r
  | _, .fin neg m e => actFinite act neg m e (if act = 2 then Config.gelu (BitVec.ofNat 32 r) else Config.silu (BitVec.ofNat 32 r)).toNat

end Sys2Proof.Machine
end

