-- ==== Sys2Proof/Machine/Operands.lean ====
section
/-!
DEFINITION. The operand forms of Xenus Link messages: opcodes, classes, header layouts (R55, R56), lengths (R59, R60)
and the two directions between a message and its bytes.
-/

namespace Sys2Proof.Machine

open Sys2Proof

/-- The four message classes in their order (R52, R53). -/
inductive Cls | req | snp | rsp | dat
  deriving DecidableEq, Repr

/-- The number of a class, as in VC = 2 × class + priority (R52). -/
def clsNum : Cls → Nat
  | .req => 0 | .snp => 1 | .rsp => 2 | .dat => 3

/-- The class of an opcode: R60, R116, R426, R495, R516; none for an unknown or reserved opcode. -/
def opClass (op : Nat) : Option Cls :=
  if op ∈ [0x01, 0x03, 0x04, 0x08, 0x09, 0x0A, 0x0B, 0x10, 0x11, 0x18, 0x19, 0x20, 0x21, 0x22, 0x23, 0x40, 0x48,
           0x50, 0x52, 0x60, 0x61, 0x70, 0x74] then some .req
  else if op ∈ [0x28, 0x29, 0x2A, 0x2B] then some .snp
  else if op ∈ [0x30, 0x31, 0x32, 0x4A, 0x80, 0x83, 0x8F] then some .rsp
  else if op ∈ [0x38, 0x39, 0x3A, 0x3B, 0x3C, 0x41, 0x49, 0x51, 0x53, 0x62, 0x71, 0x75, 0x81, 0x82] then some .dat
  else none

/-- The class that a virtual channel carries (R52). -/
def vcClass (vc : Nat) : Cls :=
  if vc < 2 then .req else if vc < 4 then .snp else if vc < 6 then .rsp else .dat

/-- The class by which a header is read: its opcode's, or its VC's for an unknown opcode. -/
def hdrClass (op vc : Nat) : Cls := (opClass op).getD (vcClass vc)

/-- Does a message of this class carry the 32-byte header (R55) rather than the 16-byte one (R56)? -/
def longHeader (c : Cls) : Bool := c = .req || c = .snp

/-- Header size in 4-byte units. -/
def hdrUnits (c : Cls) : Nat := if longHeader c then 8 else 4

/-- The class of a message. -/
def msgClass (m : Msg) : Cls := hdrClass m.op.toNat m.vc.toNat

/-- Is it expedited (R52: the odd VC of its class)? -/
def expedited (m : Msg) : Bool := m.vc.toNat % 2 = 1

/-- The VC of class `c` at the priority of message `m` (R52). -/
def vcLike (c : Cls) (m : Msg) : BitVec 3 := BitVec.ofNat 3 (2 * clsNum c + m.vc.toNat % 2)

/-- Does LEN suit the opcode (R59, R60, R116, R426, R495, R516)? `w` is OPARG of a request. -/
def lenSuits (op len w : Nat) : Bool :=
  match opClass op with
  | none => false
  | some c =>
    let d := len - hdrUnits c
    decide (hdrUnits c ≤ len) && decide (len ≤ 80) &&
    (if op ∈ [0x01, 0x10, 0x11, 0x20, 0x21, 0x22, 0x28, 0x29, 0x2A, 0x2B, 0x30, 0x31, 0x32, 0x80, 0x83, 0x61, 0x74]
      then decide (d = 0)
    else if op ∈ [0x03, 0x23, 0x38, 0x39, 0x3A, 0x3B, 0x3C, 0x81] then decide (d = 32)
    else if op = 0x04 then decide (d = 36)
    else if op ∈ [0x08, 0x09, 0x0A, 0x82, 0x4A, 0x62, 0x71] then decide (d = 2)
    else if op ∈ [0x0B, 0x18, 0x19, 0x8F, 0x60] then decide (d = 4)
    else if op = 0x48 then decide (d ≤ 16)
    else if op = 0x75 then decide (2 ≤ d ∧ d ≤ 16 ∧ d % 2 = 0)
    else if op = 0x70 then decide (d = if bitAt w 26 then 2 else 0)
    else decide (d ≤ 64))

/-- Word 0 of the request header (R55). -/
def reqWord0 (m : Msg) : Nat :=
  m.op.toNat + m.vc.toNat * 2 ^ 8 + m.len.toNat * 2 ^ 11 + m.gallery.toNat * 2 ^ 18 + m.srcPart.toNat * 2 ^ 21 +
  m.srcPort.toNat * 2 ^ 33 + m.dstPart.toNat * 2 ^ 42 + m.dstPort.toNat * 2 ^ 54

/-- Word 1 of the request header (R55). -/
def reqWord1 (m : Msg) : Nat :=
  m.tag.toNat + m.epoch.toNat * 2 ^ 16 + m.sseq.toNat * 2 ^ 32 + bitOf m.ord * 2 ^ 56 + bitOf m.syn * 2 ^ 57 +
  bitOf m.retx * 2 ^ 58 + bitOf m.after * 2 ^ 59

/-- Word 2 of the request header (R55). -/
def reqWord2 (m : Msg) : Nat := m.addr.toNat + bitOf m.na * 2 ^ 58

/-- Word 0 of the response header (R56). -/
def rspWord0 (m : Msg) : Nat :=
  m.op.toNat + m.vc.toNat * 2 ^ 8 + m.len.toNat * 2 ^ 11 + m.gallery.toNat * 2 ^ 18 + m.dstPart.toNat * 2 ^ 21 +
  m.dstPort.toNat * 2 ^ 33 + m.srcPart.toNat * 2 ^ 42 + m.status.toNat * 2 ^ 54 + bitOf m.resync * 2 ^ 58

/-- Word 1 of the response header (R56). -/
def rspWord1 (m : Msg) : Nat := m.tag.toNat + m.sseq.toNat * 2 ^ 16 + m.aux.toNat * 2 ^ 40

/-- The bytes of a message: header, then data (R55, R56). -/
def msgBytes (m : Msg) : List Byte :=
  (if longHeader (msgClass m) then
    leBytes 8 (reqWord0 m) ++ leBytes 8 (reqWord1 m) ++ leBytes 8 (reqWord2 m) ++ leBytes 8 m.oparg.toNat
  else leBytes 8 (rspWord0 m) ++ leBytes 8 (rspWord1 m)) ++ m.data

/-- The request whose header words are `w0 … w3` (R55). -/
def reqOfWords (w0 w1 w2 w3 : Nat) (data : List Byte) : Msg :=
  { Msg.blank with
    op := BitVec.ofNat 8 w0, vc := BitVec.ofNat 3 (field w0 10 8), len := BitVec.ofNat 7 (field w0 17 11),
    gallery := BitVec.ofNat 3 (field w0 20 18), srcPart := BitVec.ofNat 12 (field w0 32 21),
    srcPort := BitVec.ofNat 9 (field w0 41 33), dstPart := BitVec.ofNat 12 (field w0 53 42),
    dstPort := BitVec.ofNat 9 (field w0 62 54),
    tag := BitVec.ofNat 16 w1, epoch := BitVec.ofNat 16 (field w1 31 16), sseq := BitVec.ofNat 24 (field w1 55 32),
    ord := bitAt w1 56, syn := bitAt w1 57, retx := bitAt w1 58, after := bitAt w1 59,
    addr := BitVec.ofNat 58 w2, na := bitAt w2 58, oparg := BitVec.ofNat 64 w3, data := data }

/-- The response whose header words are `w0`, `w1` (R56). -/
def rspOfWords (w0 w1 : Nat) (data : List Byte) : Msg :=
  { Msg.blank with
    op := BitVec.ofNat 8 w0, vc := BitVec.ofNat 3 (field w0 10 8), len := BitVec.ofNat 7 (field w0 17 11),
    gallery := BitVec.ofNat 3 (field w0 20 18), dstPart := BitVec.ofNat 12 (field w0 32 21),
    dstPort := BitVec.ofNat 9 (field w0 41 33), srcPart := BitVec.ofNat 12 (field w0 53 42),
    status := BitVec.ofNat 4 (field w0 57 54), resync := bitAt w0 58,
    tag := BitVec.ofNat 16 w1, sseq := BitVec.ofNat 24 (field w1 39 16), aux := BitVec.ofNat 24 (field w1 63 40),
    data := data }

/-- The message that the bytes of one message spell (R55, R56). Reserved bits are ignored. -/
def msgOfBytes (bs : List Byte) : Msg :=
  let w0 := leAt bs 0 8
  if longHeader (hdrClass (w0 % 256) (field w0 10 8)) then
    reqOfWords w0 (leAt bs 8 8) (leAt bs 16 8) (leAt bs 24 8) (bs.drop 32)
  else rspOfWords w0 (leAt bs 8 8) (bs.drop 16)

/-- Are the fields that the message's header form does not carry at zero, and do LEN and the data agree (R55, R56)? Only such a
message is what its bytes say. -/
def onWire (m : Msg) : Bool :=
  decide (m.data.length + 4 * hdrUnits (msgClass m) = 4 * m.len.toNat) &&
  (if longHeader (msgClass m) then m.status = 0 && !m.resync && m.aux = 0
   else m.srcPort = 0 && m.epoch = 0 && !m.ord && !m.syn && !m.retx && !m.after && m.addr = 0 && !m.na && m.oparg = 0)

/-- LEN that a message's class and data need, in 4-byte units. -/
def needLen (m : Msg) : Nat := hdrUnits (msgClass m) + m.data.length / 4

/-- The message with LEN set from its class and data. -/
def sized (m : Msg) : Msg := { m with len := BitVec.ofNat 7 (needLen m) }

/-- Bytes of a message on the link. -/
def wireBytes (m : Msg) : Nat := 4 * m.len.toNat

/-- Credits that a message consumes (R54): ⌈LEN × 4 ÷ 64⌉. -/
def creditsOf (m : Msg) : Nat := ceilDiv (4 * m.len.toNat) 64

/-- Cells of 256 bytes that a message takes (R351). -/
def cellsOf (m : Msg) : Nat := if 4 * m.len.toNat ≤ 256 then 1 else 2

/-- Does the opcode define ADDR (R23, R55)? Requests and snoops that name a pool address. -/
def carriesAddr (op : Nat) : Bool :=
  op ∈ [0x01, 0x03, 0x04, 0x08, 0x09, 0x0A, 0x0B, 0x20, 0x21, 0x22, 0x23, 0x28, 0x29, 0x2A, 0x2B, 0x50, 0x52, 0x60, 0x61]

/-- Is the opcode marked ordered in R60 (and R426)? -/
def markedOrdered (op : Nat) : Bool := op ∈ [0x03, 0x04, 0x08, 0x09, 0x0A, 0x0B, 0x11, 0x60, 0x61]

/-- Is it a load of R67: an RD_LINE or a catalogue read? -/
def isLoad (op : Nat) : Bool := op ∈ [0x01, 0x20, 0x21]

/-- Is it an atomic (R60)? -/
def isAtomic (op : Nat) : Bool := op ∈ [0x08, 0x09, 0x0A, 0x0B]

/-- Does the atomic's response carry the old value (R61: FETCH, and AT_CAS always)? -/
def fetches (m : Msg) : Bool := m.op.toNat = 0x0B || bitAt m.oparg.toNat 2

/-- Operand width of an atomic in bytes (R61 W64). -/
def atomicWidth (m : Msg) : Nat := if bitAt m.oparg.toNat 0 then 8 else 4

/-- `n` bytes of the error value 0x7FC1 (R64). -/
def errorValue : Nat → List Byte
  | 0 => []
  | 1 => [0xC1]
  | n + 2 => 0xC1 :: 0x7F :: errorValue n

/-- The opcode of the response that R60 gives a request, and its data length. -/
def responseOp (m : Msg) : Nat × Nat :=
  let op := m.op.toNat
  if op ∈ [0x01] then (0x81, 128)
  else if isAtomic op then (if fetches m then (0x82, 8) else (0x80, 0))
  else if op = 0x18 || op = 0x19 then (0x83, 0)
  else if op = 0x70 then (0x71, 8)
  else if op = 0x74 then (0x75, 8)
  else if op = 0x61 then (0x62, 8)
  else if op = 0x20 then (0x38, 128)
  else if op = 0x21 then (0x3A, 128)
  else if op = 0x22 || op = 0x23 then (0x31, 0)
  else (0x80, 0)

end Sys2Proof.Machine
end

