-- ==== Sys2Proof/Machine/State/Events.lean ====
section
/-!
DEFINITION. The event queues of the register blocks (R109, R143, R180, R241, R272, R294, R348, R412, R446, R447, R468,
R521) and the value a view has latched (R528).
-/

namespace Sys2Proof.Machine

/-- One queued event: the fields of its event register as they will be popped, and of its companion register
(object, address, information or time word). -/
structure Event where
  word : Nat
  info : Nat
  /-- its number in its queue, by which a latched entry is known again (R528) -/
  num  : Nat
  deriving DecidableEq, Repr

/-- The event queues of the blocks (R563). -/
inductive QueueName | region | cat | gal | flr | tel | pwr | clv | str | cmp | chu | flt
  deriving DecidableEq, Repr

/-- An event queue, its OVERFLOW bit and the number of the next entry. -/
structure EventQueue where
  entries  : List Event
  overflow : Bool
  next     : Nat
  deriving DecidableEq, Repr

/-- The empty queue. -/
def EventQueue.empty : EventQueue := { entries := [], overflow := false, next := 0 }

/-- One command sequence (R527): BUSY, RESULT and further status of each of the four views (R526), the view whose
command is running past its write, and the commands of other views that wait, oldest first. -/
structure CmdSeq where
  busy    : List Bool
  result  : List Nat
  value   : List Nat
  running : Option Nat
  waiting : List (Nat × Nat)
  deriving DecidableEq, Repr

/-- A command sequence after reset. -/
def CmdSeq.reset : CmdSeq :=
  { busy := [false, false, false, false], result := [0, 0, 0, 0], value := [0, 0, 0, 0], running := none, waiting := [] }

end Sys2Proof.Machine
end

