-- ==== Sys2Proof/Machine/State/Memory.lean ====
section
/-!
DEFINITION. State of the pool DRAM (chapter 10), the galleries and their keys (chapter 13).
-/

namespace Sys2Proof.Machine

open Sys2Proof

/-- The key and tweak under which a line's stored bytes were encrypted (R392). -/
structure Cipher where
  key  : Nat
  unit : Nat
  id   : Nat
  deriving DecidableEq, Repr

/-- What a written line holds beside its bytes: poison (R303, R310), the error masks of its words, 80 bits each
(R299, R302), and its encryption; `none` for bytes stored as they were given (R395 UNKEYED and IMPORT). -/
structure LineAttr where
  poison : Bool
  errs   : List (Nat × Nat)
  cipher : Option Cipher
  deriving DecidableEq, Repr

/-- A filled range of lines (R308): first line number, lines, and the pattern repeated in every word.
A poison fill carries the error value as its pattern and sets `poison`. With `pick` the fill has reached only the pages of
the range that the free choice of that number picks. -/
structure FillRange where
  first   : Nat
  lines   : Nat
  pattern : Nat
  poison  : Bool
  pick    : Option Nat
  deriving DecidableEq, Repr

/-- The bytes of DRAM-home and flash-home extents, by local byte offset. A cell is listed only where it differs from
what the newest fill of its line says, or from zero where no fill covers it. -/
structure Memory where
  cells : List Host.Cell
  /-- by line number: the lines written singly since the last cold boot -/
  attrs : Table LineAttr
  /-- fills, newest first -/
  fills : List FillRange
  deriving DecidableEq, Repr

/-- MEM_CH_STATUS_n (R320), and a channel that has lost a subchannel (R299). -/
structure Channel where
  trained    : Bool
  mrdimm     : Bool
  rate       : Nat
  capacity   : Nat
  ranks      : Nat
  hot        : Bool
  retraining : Bool
  temp       : Nat
  lost       : Bool
  refreshes  : Nat
  deriving DecidableEq, Repr

/-- A channel before training. -/
def Channel.blank : Channel :=
  { trained := false, mrdimm := false, rate := 0, capacity := 0, ranks := 0, hot := false, retraining := false, temp := 0,
    lost := false, refreshes := 0 }

/-- The running fill (R308, R309): the view that started it, its lines, its pattern, and the number of the free choice of the
pages that it has filled already; none where no page is. -/
structure FillRun where
  view       : Nat
  poison     : Bool
  background : Bool
  firstLine  : Nat
  lines      : Nat
  pattern    : Nat
  early      : Option Nat
  /-- energy that its class has given it (R454) -/
  paid       : Nat
  deriving DecidableEq, Repr

/-- The running survey (R313), the number of the free choice of the pages that it has read already, and the energy that its class has given
it (R454). -/
structure SurveyRun where
  view     : Nat
  base     : Nat
  len      : Nat
  repair   : Bool
  skipFree : Bool
  early    : Option Nat
  paid     : Nat
  deriving DecidableEq, Repr

/-- A write of a request whose data may still wait in the cell buffer for its controller (R416): channel and line, and what the line
held before. -/
structure WaitingWrite where
  channel : Nat
  line    : Nat
  old     : List Byte
  attr    : Option LineAttr
  deriving DecidableEq, Repr

/-- The DRAM controllers and the MEM block. -/
structure Dram where
  memory      : Memory
  /-- oldest first, at most 256 of a channel -/
  waiting     : List WaitingWrite
  channels    : List Channel
  fillSeq     : CmdSeq
  fill        : Option FillRun
  /-- MEM_FILL_LINES and MEM_FILL_PATTERN of each view -/
  fillLines   : List Nat
  fillPattern : List Nat
  surveySeq   : CmdSeq
  survey      : Option SurveyRun
  surveyBase  : List Nat
  surveyLen   : List Nat
  surveyId    : BitVec 16
  /-- MEM_SURVEY_SUM_0 … 7 -/
  summary     : List Nat
  surveyRate  : Nat
  flipData    : BitVec 64
  flipCtrl    : Word32
  flipHit     : BitVec 64
  deriving DecidableEq, Repr

/-- A key slot of a gallery (R393). -/
structure KeySlot where
  epoch : Nat
  key   : Nat
  deriving DecidableEq, Repr

/-- Gallery states (R385). -/
inductive GalState | vacant | active | draining | disabled | rinsing
  deriving DecidableEq, Repr

/-- One gallery: GAL_CTRL_g and GAL_KEY_g (R407, R408). -/
structure Gallery where
  state    : GalState
  slice    : Nat
  strict   : Bool
  priv     : Bool
  current  : Option KeySlot
  previous : Option KeySlot
  rotating : Bool
  deriving DecidableEq, Repr

/-- A gallery after a cold boot (R385). -/
def Gallery.reset : Gallery :=
  { state := .vacant, slice := 32, strict := false, priv := false, current := none, previous := none, rotating := false }

/-- A page tag (R394). -/
structure PageTag where
  epoch : Nat
  split : Nat
  deriving DecidableEq, Repr

/-- The tag of a page after a cold boot: UNKEYED (R394). -/
def PageTag.unkeyed : PageTag := { epoch := 0xFFFF, split := 0 }

/-- States of a binding entry (R401). -/
inductive BindState | free | importing | sealed
  deriving DecidableEq, Repr

/-- A binding entry (R401, R411), with its BIND_ID and content key. -/
structure Binding where
  object     : BitVec 64
  bindId     : Nat
  state      : BindState
  gallery    : Nat
  coll       : Nat
  streamOnly : Bool
  key        : Nat
  deriving DecidableEq, Repr

/-- The FREE binding entry. -/
def Binding.blank : Binding :=
  { object := 0, bindId := 0, state := .free, gallery := 0, coll := 0, streamOnly := false, key := 0 }

/-- Galleries, keys, bindings and the GAL block (chapter 13). -/
structure Galleries where
  gals       : List Gallery
  /-- by local page number (local offset ÷ 65,536) -/
  tags       : Table PageTag
  /-- collection keys, by slot 0 … 15 (R400) -/
  colls      : Table Nat
  bindings   : Table Binding
  seq        : CmdSeq
  hp0        : Nat
  hp1        : Nat
  /-- gallery of each logical port -/
  ports      : Table Nat
  reenc      : Nat
  vitrine    : Bool
  fromRecord : Bool
  events     : EventQueue
  /-- galleries whose rinse waits for a census to end (R387), and whether it was a RINSE_ALL -/
  rinseWait  : List Nat
  rinseAll   : Bool
  /-- the view whose rinse waits -/
  rinseView  : Option Nat
  /-- the rinse that runs is a RINSE_ALL, to be done whole again after a fast reset (R387) -/
  rinseFull  : Bool
  /-- views whose DISABLE or RINSE still keeps BUSY: view and gallery -/
  waitViews  : List (Nat × Nat)
  /-- galleries whose drain a fast reset has ended, for which DRAIN_DONE is still to be queued (R385, R563) -/
  resetDrained : List Nat
  deriving DecidableEq, Repr

end Sys2Proof.Machine
end

