-- ==== Sys2Proof/Machine/State/Pool.lean ====
section
/-!
DEFINITION. State of the pool tables: extents, objects, loans, routes (chapter 01, table window of chapter 18).
-/

namespace Sys2Proof.Machine

open Sys2Proof

/-- STATE of an extent entry (R25). -/
inductive ExtState | free | live | revoking | recalling | moving | lost
  deriving DecidableEq, Repr

/-- CLASS of an extent entry (R25). -/
inductive ExtClass | owned | edition | catalogue | reserved
  deriving DecidableEq, Repr

/-- PLACE of an extent entry (R25). -/
inductive Place | interleaved | channelLocal | loan | flash | reserved (n : Nat)
  deriving DecidableEq, Repr

/-- One extent entry (R25). `ordinal` is not a field of the entry: it is the extent's place in its object (R18), which
the part needs for the tweak of R392 and the BIND record of R330. -/
structure Extent where
  object    : BitVec 64
  epoch     : BitVec 16
  twinPart  : Nat
  twinValid : Bool
  gallery   : Nat
  state     : ExtState
  cls       : ExtClass
  opset     : Nat
  place     : Place
  detail    : Nat
  ordinal   : Nat
  deriving DecidableEq, Repr

/-- The entry of an extent that nothing has written: FREE. -/
def Extent.blank : Extent :=
  { object := 0, epoch := 0, twinPart := 0, twinValid := false, gallery := 0, state := .free, cls := .owned,
    opset := 0, place := .interleaved, detail := 0, ordinal := 0 }

/-- One object entry (R27): ID, COUNT, ATTR, LIST, SIZE and the 32 bytes of CLASS_STATE. -/
structure ObjectEntry where
  id         : BitVec 64
  count      : Nat
  attr       : Nat
  list       : BitVec 64
  size       : BitVec 64
  classState : List Byte
  deriving DecidableEq, Repr

/-- STATE of a loan entry (R28). -/
inductive LoanState | free | offered | active | recalling | ended
  deriving DecidableEq, Repr

/-- One loan entry (R28), with the messages that wait for an answer (R29, R33). -/
structure Loan where
  lender : Nat
  count  : Nat
  first  : Nat
  state  : LoanState
  grace  : Nat
  base   : BitVec 64
  tag    : BitVec 32
  /-- the offer still to be answered -/
  offer  : Option Msg
  /-- the pending recall notice -/
  notice : Option Msg
  deriving DecidableEq, Repr

/-- The free loan entry. -/
def Loan.blank : Loan :=
  { lender := 0, count := 0, first := 0, state := .free, grace := 0, base := 0, tag := 0, offer := none, notice := none }

/-- A route entry: PATH and SPREAD (R24). N is the length of `path`; `unused` holds the bytes of PATH beyond it, `given`
SPREAD_GIVEN (R537). -/
structure Route where
  path   : List Nat
  spread : List Nat
  unused : List Nat
  given  : Bool
  deriving DecidableEq, Repr

/-- A recall copy that has been accepted (R33, R38). -/
structure CopyJob where
  src     : Nat
  dest    : Nat
  lender  : Nat
  running : Bool
  /-- a lender read failed and waits for its retry (R34) -/
  stalled : Bool
  deriving DecidableEq, Repr

/-- A revocation in progress (R31): the view that wrote it and the requests it waits for. -/
structure Revocation where
  ext  : Nat
  view : Nat
  deriving DecidableEq, Repr

/-- What a message to a lender does for its request: a read, a line write, or, for a masked write or an atomic, the read of the old line and
the write of the new one, whose answer carries the old value (R61, R392). -/
inductive LenderStep
  | read
  | write
  | fetch
  | put (old : List Byte)
  deriving DecidableEq, Repr

/-- A request to a lender that has not been answered (R31, R62): the part's own tag, the request it stands for, and the encryption of its
line at the lender (R392). -/
structure LenderReq where
  step   : LenderStep
  cipher : Option Cipher
  loan   : Nat
  ext    : Nat
  tag    : BitVec 16
  req    : Msg
  epoch  : BitVec 16
  deriving DecidableEq, Repr

/-- Where the re-encryption of a loan page stands with its line (R399 step 4): not asked for, read, or written at the lender. -/
inductive LoanStage | due | reading | writing
  deriving DecidableEq, Repr

/-- A loan page that is being re-encrypted: the page, the line in it, and the part's tag of the message out at the lender. -/
structure LoanPage where
  page  : Nat
  line  : Nat
  stage : LoanStage
  tag   : BitVec 16
  deriving DecidableEq, Repr

/-- The pool tables (chapter 01). -/
structure Pool where
  partNumber : Nat
  /-- P of R20; 0 in the spine role -/
  perChannel : Nat
  /-- L of R20 -/
  localSlots : Nat
  extents    : Table Extent
  objects    : Table ObjectEntry
  loans      : Table Loan
  routeParts : Table Route
  routePorts : Table Route
  /-- POL_PATH_SALT_n: nibble k is the salt of logical port 8n + k (R40) -/
  salts      : List Word32
  copies     : List CopyJob
  revokes    : List Revocation
  lenderReqs : List LenderReq
  /-- loan pages being re-encrypted (R395, R399) -/
  loanPages  : List LoanPage
  /-- POL_EXT_CMD and POL_EXT_STATUS; the value is EPOCH (R37, R39) -/
  extSeq     : CmdSeq
  /-- POL_TBL_DATA, eight words for each view (R535) -/
  tblData    : List (List (BitVec 64))
  tblSeq     : CmdSeq
  deriving DecidableEq, Repr

end Sys2Proof.Machine
end

