-- ==== Sys2Proof/Machine/State/Coherence.lean ====
section
/-!
DEFINITION. State of owned regions, editions and catalogue regions (chapters 03 and 04).
-/

namespace Sys2Proof.Machine

open Sys2Proof

/-- An owner table entry (R82). `owned` is false while it is ORPHANED. -/
structure OwnerEntry where
  object    : BitVec 64
  part      : Nat
  port      : Nat
  owned     : Bool
  lastFence : Option (BitVec 24)
  deriving DecidableEq, Repr

/-- STATE of an edition slot (R91). -/
inductive SlotState | free | draft | current | retired
  deriving DecidableEq, Repr

/-- A slot record (R91). -/
structure SlotRec where
  serial  : BitVec 32
  state   : SlotState
  base    : Nat
  readers : Nat
  deriving DecidableEq, Repr

/-- The FREE slot record. -/
def SlotRec.blank : SlotRec := { serial := 0, state := .free, base := 0, readers := 0 }

/-- An entry of a page map (R93): PAGE and PRIVATE. -/
structure MapEntry where
  page : Nat
  priv : Bool
  deriving DecidableEq, Repr

/-- The spare pool of a region on this part (R95): its free pages and the extents whose pages fill it. -/
structure SparePool where
  object : BitVec 64
  pages  : List Nat
  exts   : List Nat
  deriving DecidableEq, Repr

/-- An edition region table entry (R91). -/
structure EditionRegion where
  object     : BitVec 64
  slots      : List SlotRec
  writerPart : Nat
  writerPort : Nat
  /-- the next draft's serial, where the part holds no object entry that says it (R90) -/
  nextSerial : BitVec 32
  /-- by (extent × 16 + slot) × 4,096 + page; an entry not listed maps the page to its own place (R94) -/
  maps       : Table MapEntry
  deriving DecidableEq, Repr

/-- A lease (R100); `expiry` counts µs of the Curator timer. -/
structure Lease where
  part   : Nat
  port   : Nat
  object : BitVec 64
  slot   : Nat
  expiry : Nat
  deriving DecidableEq, Repr

/-- A region command that keeps BUSY: an ownership command until the requests admitted before it have completed (R85), or a
RECLAIM until a tier move ends (R341); its view and object, the requests admitted before, and the slot. -/
inductive RegionWait
  | drain (view : Nat) (object : BitVec 64) (before : List Msg)
  | reclaim (view : Nat) (object : BitVec 64) (slot : Nat)
  deriving DecidableEq, Repr

/-- Region commands and tables of chapter 03. -/
structure Regions where
  owners   : List OwnerEntry
  editions : List EditionRegion
  leases   : List Lease
  /-- POL_REGION_OBJ of each view (R105, R522) -/
  obj      : List (BitVec 64)
  /-- POL_REGION_CMD and POL_REGION_STATUS; the value holds SLOT and VALUE at their places (R106, R107) -/
  seq      : CmdSeq
  wait     : Option RegionWait
  /-- regions for whose held writes SPARE_EMPTY has been queued (R95) -/
  starved  : List (BitVec 64)
  leaseTime : Nat
  spareLow : Nat
  events   : EventQueue
  spares   : List SparePool
  deriving DecidableEq, Repr

/-- PRED_MODE (R112). -/
inductive PredMode | adaptive | home | near
  deriving DecidableEq, Repr

/-- A catalogue region table entry (R112). -/
structure CatRegion where
  object   : BitVec 64
  group    : Nat
  revert   : Bool
  predMode : PredMode
  predInit : Nat
  nearest  : Bool
  deriving DecidableEq, Repr

/-- State of a group member (R113, R135, R137). -/
inductive MemberState | active | removing | lost
  deriving DecidableEq, Repr

/-- A member entry of a sharing group (R113). -/
structure CatMember where
  part   : Nat
  port   : Nat
  nearAt : Bool
  state  : MemberState
  deriving DecidableEq, Repr

/-- DSTATE of a directory entry (R124). -/
inductive DState | i | s | e | o | bcS | bcO | poison
  deriving DecidableEq, Repr

/-- A directory entry (R124): P0 to P3 are present where PVALID says so. -/
structure DirEntry where
  dstate : DState
  pred   : Nat
  p0     : Option Nat
  p1     : Option Nat
  p2     : Option Nat
  p3     : Option Nat
  busy   : Bool
  deriving DecidableEq, Repr

/-- A snoop whose answer the home awaits (R121, R136). -/
structure SnoopWait where
  member : Nat
  op     : Nat
  tag    : Nat
  deriving DecidableEq, Repr

/-- What waits for a line, or holds it: a request, or the part's own work on the line: the resolution of a lost member
(R135), the removal of one member or of all holders (R137, R141), the invalidation after a fast reset (R137). -/
inductive CatItem
  | request (m : Msg) | fix | drop (member : Option Nat) | scan
  deriving DecidableEq, Repr

/-- How a transaction ends once its snoops are answered (R126): data to the requester, data whose next state depends on
P0's answer, a granted UPGRADE, a write or home atomic performed in memory, or the part's own work. -/
inductive CatFin | data | shared | grant | perform | own
  deriving DecidableEq, Repr

/-- An open transaction of one line (R121, R126). -/
structure CatTxn where
  item     : CatItem
  /-- member number of the requester, if it is one -/
  member   : Option Nat
  group    : Nat
  poisonMode : Bool
  /-- the directory state found, and its pointers, P0 first -/
  found    : DState
  ptrs     : List Nat
  fin      : CatFin
  /-- opcode of the data message -/
  dataOp   : Nat
  /-- state and pointers after the transaction; none to leave the entry as it stands -/
  next     : Option (DState × List Nat)
  /-- CMP_ACK closes the transaction (R120, R121) -/
  needsAck : Bool
  snoops   : List SnoopWait
  /-- member asked to supply the data, and the snoop that asks it -/
  supplier : Option Nat
  supplyOp : Nat
  /-- tag of the data that the part fetches for itself from a sharer (R135) -/
  fetchTag : Option Nat
  /-- P0 has been asked after another holder answered without FWD (R128) -/
  retried  : Bool
  /-- dirty data returned by SNP_DATA -/
  dirty    : Option (List Byte)
  forwarded : Bool
  /-- STATE_AFTER of the last SNP_RSP of P0: 0 I, 1 S, 2 O -/
  p0After  : Nat
  /-- members whose snoops were never answered (R135, R136) -/
  lost     : List Nat
  /-- the answer has gone out and CMP_ACK is awaited -/
  awaitAck : Bool
  /-- CMP_ACK for data that a member forwarded has come before the last snoop was answered (R120, R121) -/
  acked    : Bool
  /-- its write to memory waits for another agent's write-through of the line (R422) -/
  held     : Bool
  deriving DecidableEq, Repr

/-- A directory walk in progress (R135, R137, R141). -/
inductive WalkKind | hostLost | remove | purge
  deriving DecidableEq, Repr

/-- A running walk: kind, group, member, extent (of a purge) and the view that waits. -/
structure Walk where
  kind   : WalkKind
  group  : Nat
  member : Nat
  ext    : Nat
  view   : Nat
  deriving DecidableEq, Repr

/-- Catalogue tables and commands (chapter 04). -/
structure Catalogue where
  groupSize : Nat
  regions  : List CatRegion
  /-- by group × 256 + member number -/
  members  : Table CatMember
  /-- the backing store: the 64-bit entry of each line (R124), by line number (local offset ÷ 128) -/
  dir      : Table (BitVec 64)
  /-- lines whose entries the on-die cache holds (R125) -/
  dirCache : List Nat
  /-- PRED written at the directory initialisation of each LIVE catalogue extent (R111) -/
  dirInit  : Table Nat
  /-- extents whose directory initialisation has not finished (R111) -/
  initBusy : List Nat
  /-- open transaction of each line -/
  txns     : Table CatTxn
  /-- what waits for each line, oldest first (R121) -/
  waiting  : Table (List CatItem)
  /-- CAT_DIST bytes that are not at their reset 0xFF, by part number (R144) -/
  dist     : Table Nat
  obj      : List (BitVec 64)
  cmdExt   : List Nat
  /-- CAT_CMD and CAT_STATUS; the value is PROGRESS (R140, R142) -/
  seq      : CmdSeq
  walks    : List Walk
  events   : EventQueue
  nextTag  : Nat
  deriving DecidableEq, Repr

end Sys2Proof.Machine
end

