-- ==== Sys2Proof/Machine/State/Curator.lean ====
section
/-!
DEFINITION. State of the Curator island: boot, boot NOR, configuration record, mailbox, daybook, attestation, host
ports (chapters 16 and 19), and of telemetry (chapter 17).
-/

namespace Sys2Proof.Machine

open Sys2Proof

/-- The configuration record (R480), field by field. `reserved` holds every reserved byte as one number. -/
structure Record where
  version     : Nat
  length      : Nat
  partNumber  : Nat
  role        : Nat
  flags       : Nat
  powerMode   : Nat
  plateau     : Nat
  peakLimit   : Nat
  ecoDiv      : Nat
  ddrRate     : Nat
  reduceShare : Nat
  localSlots  : Nat
  flashPorts  : Nat
  bufReplay   : Nat
  bufEngine   : Nat
  bufMirror   : Nat
  bufGallery  : List Nat
  routeParts  : Nat
  mcgCount    : Nat
  reseqStreams : Nat
  sharingGroup : Nat
  galAgent    : Nat
  portMode    : Nat
  laneMode    : Nat
  galPort     : Nat
  ecoPorts    : Nat
  pwrClass    : List Nat
  timers      : List Nat
  mgmtParts   : List Nat
  reserved    : Nat
  deriving DecidableEq, Repr

/-- A record copy in NOR: its 1,024 bytes (R473, R480). -/
abbrev RecordBytes := List Byte

/-- What a directory copy says (R474). -/
structure Directory where
  seq    : Nat
  active : Nat
  trial  : Nat
  record : Nat
  deriving DecidableEq, Repr

/-- An image slot (R475): its header bytes and body bytes as programmed, from offset 0. -/
structure ImageSlot where
  bytes : List Byte
  deriving DecidableEq, Repr

/-- The kinds of event that the manual says are recorded in the daybook. R568 leaves CODE to the image; the model
names the kinds and numbers them in this order. -/
inductive Note
  | roleNoModules | ignoredModule | channelFault | commandWhileBusy | outOfRange | lockedField | badAccess
  | eventDiscarded | trainFailed | paramMismatch | framingError | portDown | truncation | configuredSize
  | bufferSplit | ddrRate | recordFallback | subchannelLost | surveyFound | surveyReset | flipInVitrine
  | fastReset | coldBoot | bootHalt | partLoss | vinHigh | clockLost | clockBack | auxOverload | latchedCause
  | trialFailed | mailboxIgnored | mailboxDropped | vitrineEntered | vitrineRefused | standInLost | mismatch | tableLost
  | driveDown | driveRejected | driveUp | unrecovered | wear | journal | enrolled | thermal | throttle | modeChanged | recordWritten
  | imageWritten | imageConfirmed | debugSeen | jobNote | pllRetry | qmapConflict | galleryPort | privateKept
  | heartbeat | sensorBad | ecoPorts | scratch | other (n : Nat)
  deriving DecidableEq, Repr

/-- A daybook entry (R497). CODE and DETAIL are the model's own numbering (R568). -/
structure DaybookEntry where
  time     : Nat
  seq      : BitVec 32
  boot     : BitVec 16
  block    : Nat
  severity : Nat
  gallery  : Option Nat
  code     : Note
  count    : Nat
  detail   : List Nat
  deriving DecidableEq, Repr

/-- What the UART prints (R501): a boot phase, or a daybook entry of severity ERROR or FATAL. -/
inductive UartItem
  | phase (n : Nat)
  | entry (e : DaybookEntry)
  deriving DecidableEq, Repr

/-- A mailbox channel (R491, R503): request and response bytes and the status bits. -/
structure MailChannel where
  req     : List Byte
  rsp     : List Byte
  busy    : Bool
  done    : Bool
  intEn   : Bool
  norDone : Bool
  deriving DecidableEq, Repr

/-- A mailbox channel after reset. -/
def MailChannel.reset : MailChannel :=
  { req := [], rsp := [], busy := false, done := false, intEn := true, norDone := false }

/-- An update session (R486): its length, the next offset to write, and whether UPDATE_VERIFY has passed. -/
structure UpdateSession where
  len      : Nat
  next     : Nat
  verified : Bool
  deriving DecidableEq, Repr

/-- An async step in progress (R492): its opcode, channel, and the bytes it will write. -/
structure AsyncStep where
  op      : Nat
  chan    : Nat
  offset  : Nat
  bytes   : List Byte
  deriving DecidableEq, Repr

/-- Connection state of one SPDM transport (R483): version asked, capabilities exchanged, algorithms selected, the messages that a
signature covers (of the negotiation, of certificates, of measurements), and the last response given. -/
structure Spdm where
  version    : Bool
  caps       : Bool
  algorithms : Bool
  vca        : List Byte
  certs      : List Byte
  meas       : List Byte
  response   : List Byte
  deriving DecidableEq, Repr

/-- An SPDM transport with no connection. -/
def Spdm.reset : Spdm :=
  { version := false, caps := false, algorithms := false, vca := [], certs := [], meas := [], response := [] }

/-- What the configuration space of a function of a host port says (R488): its identity, the size of BAR0 as a power of two, whether BAR0
is prefetchable, its MSI-X vectors, and the address that the host has given BAR0 (0 until it gives one). -/
structure PciFunction where
  vendor       : Nat
  device       : Nat
  revision     : Nat
  classCode    : Nat
  barBits      : Nat
  prefetchable : Bool
  vectors      : Nat
  bar          : Nat
  deriving DecidableEq, Repr

/-- Functions 0 and 1 of a host port (R488). -/
def hostFunctions : List PciFunction :=
  [{ vendor := 0x4D53, device := 0x2400, revision := 0xB0, classCode := 0x088000, barBits := 26, prefetchable := false, vectors := 16, bar := 0 },
   { vendor := 0x4D53, device := 0x2400, revision := 0xB0, classCode := 0x050000, barBits := 36, prefetchable := true, vectors := 0, bar := 0 }]

/-- One host port (R488 to R490, R553). -/
structure HostPort where
  /-- configuration space of functions 0 and 1 (R488) -/
  functions : List PciFunction
  perst     : Bool
  refclk    : Bool
  link      : Bool
  /-- function 0 answers Request Retry Status (R478 step 6) -/
  retry     : Bool
  /-- a reset of function 1 is draining its requests (R437) -/
  draining  : Bool
  /-- CUR_WIN_n entries that are not zero -/
  win       : Table (BitVec 64)
  /-- MSI-X vectors raised, newest last -/
  vectors   : List Nat
  /-- last completion returned to the host: data and its EP bit, or Unsupported Request -/
  lastCpl   : Option (List Byte × Bool)
  unsupported : Bool
  deriving DecidableEq, Repr

/-- A host port after reset. -/
def HostPort.reset : HostPort :=
  { functions := hostFunctions, perst := false, refclk := true, link := false, retry := true, draining := false, win := [], vectors := [],
    lastCpl := none, unsupported := false }

/-- A pool-window or core read or atomic that waits for its answers (R489, R499): its agent, the tags still out with the place of
their bytes, the bytes gathered so far, the range of them that the access asked for, and whether an answer was not OK. -/
structure WindowReq where
  agent  : Nat
  tags   : List (Nat × Nat)
  bytes  : List Byte
  start  : Nat
  length : Nat
  bad    : Bool
  deriving DecidableEq, Repr

/-- States of a line in the cores' caches (R115, R123); outside a catalogue region only `shared`, for a clean line, and `modified`.
`writeBack` is a line whose WB_DIRTY awaits CAT_CMP, with whether other members may hold copies. -/
inductive CoreState | shared | exclusive | modified | owned | writeBack (copies : Bool)
  deriving DecidableEq, Repr

/-- A pool line that the cores hold, with the window entry's grant under which it was fetched (R499). `poison` marks one whose
bytes an uncorrectable error has taken (R500). -/
structure CoreLine where
  state     : CoreState
  catalogue : Bool
  bytes     : List Byte
  poison    : Bool
  gallery   : Nat
  epoch     : Nat
  handle    : Nat
  deriving DecidableEq, Repr

/-- A core access that waits for its line (R499): the tag and opcode of the request it has sent, opcode 0 while it has sent none, the
line and its grant, and the access. -/
structure CoreMiss where
  tag       : Nat
  op        : Nat
  line      : Nat
  catalogue : Bool
  gallery   : Nat
  epoch     : Nat
  handle    : Nat
  kind      : CoreAccess
  offset    : Nat
  data      : List Byte
  deriving DecidableEq, Repr

/-- Power of the part as a whole (R545, R551, R564). -/
inductive PowerState | off | islandOnly | coreOn
  deriving DecidableEq, Repr

/-- The Curator island. -/
structure Curator where
  power       : PowerState
  pwrgd       : Bool
  vin48       : Nat
  vinHighSeen : Bool
  aonExternal : Bool
  coreRefclk  : Bool
  aux1v8      : Bool
  /-- the boot NOR answered as R472 asks at the last boot -/
  norOk       : Bool
  /-- a boot waits for VIN48 to reach 39.0 V (R551) -/
  waitVin     : Bool
  /-- µs since the cold boot (R464) -/
  timer       : Nat
  /-- 100 ms boundaries made since the cold boot (R460, R467) -/
  boundaries  : Nat
  phase       : Nat
  haltCause   : Nat
  coldBoots   : BitVec 16
  /-- a fast reset has been triggered and has not rejoined (R415) -/
  fastPending : Bool
  latchedCause : Nat
  serial      : BitVec 64
  floor       : Nat
  revoked     : List Nat
  /-- digests of the image-signer entries (R471) -/
  signers     : List Nat
  runSlot     : Nat
  fwVersion   : Nat
  fwSvn       : Nat
  trialBoot   : Bool
  recovery    : Bool
  /-- static address of the I3C target, 0x28 plus the straps (R501, R554) -/
  i3cAddr     : Nat
  deriving DecidableEq, Repr

/-- Boot NOR, mailbox, daybook and attestation of the Curator. -/
structure Management where
  /-- the two directory copies, 32 bytes each (R474) -/
  dirs       : List (List Byte)
  records    : List RecordBytes
  images     : List ImageSlot
  /-- the daybook ring, newest first (R496) -/
  norRing    : List DaybookEntry
  /-- the record in force (R1), by its bytes -/
  inForce    : RecordBytes
  record     : Record
  channels   : List MailChannel
  session    : Option UpdateSession
  /-- async steps that run, oldest first: of the NOR session, and of UPDATE_CONFIRM (R486, R492) -/
  async      : List AsyncStep
  asyncDone  : Bool
  asyncResult : Nat
  coldPending : Bool
  daybook    : List DaybookEntry
  nextSeq    : BitVec 32
  debugSeen  : Bool
  /-- bytes that MEASURE_EXTEND has folded into measurement 7, oldest first -/
  extends7   : List (List Byte)
  codeKey    : Nat
  partKey    : Nat
  spdm       : List Spdm
  hosts      : List HostPort
  windows    : List WindowReq
  /-- APC_WIN_n words 0 and 1 by 2 × n + word -/
  apcWin     : Table (BitVec 64)
  apcError   : BitVec 64
  coresOn    : Bool
  /-- by pool line (pool address ÷ 128) -/
  coreCache  : Table CoreLine
  coreMisses : List CoreMiss
  /-- interrupt identities raised to the cores (R500) -/
  coreIrq    : List Nat
  coreLast   : Option (List Byte)
  jtagLast   : Nat
  /-- what the UART has printed, newest first (R501) -/
  uart       : List UartItem
  deriving DecidableEq, Repr

/-- Register views (R526 to R528): what a view has read, its held low halves and its latched queue heads. -/
structure View where
  lastRead : Nat
  /-- by register offset: the low half held (R525) -/
  held     : Table Nat
  /-- by queue number: the entry latched (R528) -/
  latched  : Table Event
  telSel   : Nat
  telCat   : Nat
  deriving DecidableEq, Repr

/-- A view after reset. -/
def View.reset : View := { lastRead := 0, held := [], latched := [], telSel := 0, telCat := 0 }

/-- A counter or histogram bin: value, and the sticky OVF bit (R505). -/
structure Counter where
  value : Nat
  ovf   : Bool
  deriving DecidableEq, Repr

/-- States of the census (R520). -/
inductive CensusState | idle | pending | running | done | lost
  deriving DecidableEq, Repr

/-- Counters, census and sensors (chapter 17). -/
structure Telemetry where
  /-- by the 28-bit identifier of R509 -/
  live     : Table Counter
  shadow   : Table Counter
  /-- CENSUS_ID of the census whose values the shadow banks hold (R515, R516) -/
  shadowId : BitVec 16
  census   : CensusState
  censusId : BitVec 16
  time     : Nat
  seq      : CmdSeq
  temps    : List Nat
  volts    : List Nat
  events   : EventQueue
  /-- events of all blocks that wait until a fast reset is over, in order (R563) -/
  later    : List (QueueName × Nat × Nat)
  deriving DecidableEq, Repr

end Sys2Proof.Machine
end

