-- ==== Sys2Proof/Machine/State/Engines.lean ====
section
/-!
DEFINITION. State of the engines: collectives (chapter 05), gather and filter units (06), weight streams (07), folding
and mending (08), channel units (09).
-/

namespace Sys2Proof.Machine

open Sys2Proof

/-- States of a reduction context (R174, R179). -/
inductive CtxState | free | opened | running | done | failed | closing
  deriving DecidableEq, Repr

/-- An input chunk in scratch (R148 to R158, R169). An accumulator element is its FP32 pattern or two's complement INT32,
with the mark of a loss of range on it (R561); `raw` is the contribution of ALL_GATHER and BROADCAST. -/
structure Chunk where
  accum    : List (Nat × Bool)
  raw      : List Byte
  counted  : List Nat
  complete : Bool
  /-- completed without a shard that is absent (R173) -/
  short    : Bool
  /-- an uncorrectable scratch error (R175) -/
  poison   : Bool
  deriving DecidableEq, Repr

/-- An up-contribution of a child (R159): the tag that awaits an answer, none while it waits to be sent again. -/
structure UpUnit where
  tag      : Option Nat
  answered : Bool
  deriving DecidableEq, Repr

/-- One reduction context (R154, R174, R179): its descriptor words, state, window and chunks. -/
structure Context where
  desc     : List Nat
  state    : CtxState
  gen      : Nat
  base     : Nat
  absent   : List Nat
  /-- by chunk number, the chunks that are not retired -/
  chunks   : Table Chunk
  /-- chunks above the base already retired -/
  retired  : List Nat
  /-- result chunks sent or replicated, or up-contributions of a scatter child answered OK -/
  done     : List Nat
  /-- by number, the up-contributions sent and not retired (R159) -/
  units    : Table UpUnit
  /-- highest chunk number that the parent's HEADROOM admits (R151) -/
  headLimit : Option Nat
  /-- scratch taken: bay and KiB (R156) -/
  alloc    : List (Nat × Nat)
  deriving DecidableEq, Repr

/-- The CLV block (chapter 05). -/
structure Collectives where
  share    : Nat
  descs    : List (List Nat)
  seq      : CmdSeq
  contexts : Table Context
  /-- CLV_MCG_n: first, count, gallery, valid as the register word; CLV_MCM_m likewise -/
  groups   : Table (BitVec 64)
  members  : Table (BitVec 64)
  events   : EventQueue
  /-- groups for which a copy to a port of another gallery has been recorded (R162) -/
  crossed  : List Nat
  /-- contributions that wait for a turn of their engine (R390, R454) -/
  waiting  : List Msg
  deriving DecidableEq, Repr

/-- Where a gather or filter request stands: reading a pool program, reading rows or records, reading the winners of a
top-k again (R205), or waiting for its destination writes (R187, R189). -/
inductive GfuPhase | terms | scan | winners | finish
  deriving DecidableEq, Repr

/-- What the line reads in hand are for: the index list, the bag offset list, the terms, or a row or record. -/
inductive GfuWant | index | bag | terms | data
  deriving DecidableEq, Repr

/-- A line read of an engine: its tag, the line (pool address ÷ 128), its status and bytes once it is answered, and whether
the unit has taken it. -/
structure Fetch where
  tag    : Nat
  line   : Nat
  answer : Option (Nat × List Byte)
  taken  : Bool
  deriving DecidableEq, Repr

/-- A gather or filter request on a unit (R183 to R206). -/
structure GfuReq where
  unit      : Nat
  req       : Msg
  filter    : Bool
  /-- run limit in ms in force at acceptance (R209) -/
  limit     : Nat
  phase     : GfuPhase
  /-- predicate terms, two words each -/
  terms     : List (Nat × Nat)
  /-- next place in the index list, record, or winner -/
  next      : Nat
  /-- bag in hand, and the list positions where it begins and ends, once their offsets have been read -/
  bag       : Nat
  bagStart  : Option Nat
  bagEnd    : Option Nat
  /-- lines of the index list and of the bag offset list in hand -/
  idxLine   : Option (Nat × List Byte)
  bagLine   : Option (Nat × List Byte)
  /-- line reads in hand and what they are for, and tags of destination writes not yet answered -/
  reads     : List Fetch
  want      : GfuWant
  /-- the writes: tag, and where in the output the line begins -/
  writes    : List (Nat × Nat)
  /-- lines of the output whose write failed, and the entries whose end has not been sent or written: begin and end in the output -/
  failed    : List Nat
  entries   : List (Nat × Nat)
  /-- sums of the bag in hand, rows added, and whether a bad row taints it -/
  acc       : List Nat
  added     : Nat
  tainted   : Bool
  /-- output not yet sent, each byte with the mark of an error value, and bytes already sent -/
  out       : List (Byte × Bool)
  sent      : Nat
  scanned   : Nat
  passed    : Nat
  delivered : Nat
  /-- position, address and status of the bad row or record with the lowest position -/
  firstBad  : Option (Nat × Nat × Nat)
  bad       : Nat
  nans      : Nat
  /-- best candidates, best first: score pattern and record -/
  topk      : List (Nat × Nat)
  cancelled : Bool
  stopped   : Option Nat
  truncated : Bool
  deriving DecidableEq, Repr

/-- The GFU block (chapter 06). -/
structure GatherFilter where
  runLimit   : Nat
  /-- GFU_TURN as its register word (R209) -/
  turn       : Nat
  enable     : List Bool
  draining   : List Bool
  requests   : Table GfuReq
  /-- line reads in flight of requests that no longer wait for them: unit and tag (R208) -/
  loose      : List (Nat × Nat)
  deriving DecidableEq, Repr

/-- A fold table (R248 to R250): generation, type, coded symbols with their lengths, and the escape's length. -/
structure FoldTable where
  gen    : Nat
  kind   : Nat
  syms   : List (Nat × Nat)
  escLen : Nat
  deriving DecidableEq, Repr

/-- A block of a fold stream whose header has been read (R244): the table it names, as the slot held it then, and the
status of its values. Its reference lasts until its last value has been taken (R252). -/
structure FoldBlock where
  coded    : Bool
  slot     : Nat
  gen      : Nat
  values   : Nat
  codedLen : Nat
  table    : Option FoldTable
  status   : Nat
  /-- decoded: its values stand in the reader's buffer -/
  decoded  : Bool
  deriving DecidableEq, Repr

/-- Where a stream or job stands with the turns of its unfolder or folder (R255, R390): it needs none, waits for one, or has one. -/
inductive UnitTurn | idle | waiting | serving
  deriving DecidableEq, Repr

/-- An unfolder on a fold stream (R247): its address and grant, what its header said, the values not yet decoded, bytes
read and not used, decoded values with their status, and the status that broke it. -/
structure FoldReader where
  /-- its unfolder, and its turn there -/
  unit    : Nat
  turn    : UnitTurn
  base    : Nat
  gallery : Nat
  epoch   : Nat
  handle  : Nat
  head    : Bool
  version : Nat
  kind    : Nat
  total   : Nat
  left    : Nat
  /-- next line to read -/
  line    : Nat
  bytes   : List Byte
  reads   : List Fetch
  block   : Option FoldBlock
  buf     : List (Nat × Nat)
  broken  : Option Nat
  deriving DecidableEq, Repr

/-- An attached member of a stream (R228, R229): its index in the group, its endpoint, whether it has joined, its first
tile, and the tiles it has released. -/
structure StreamMember where
  index    : Nat
  part     : Nat
  port     : Nat
  joined   : Bool
  first    : Nat
  released : BitVec 32
  deriving DecidableEq, Repr

/-- What the production of a tile is at (R223): source rows, a fold stream, the factor set's header, its panels, the
residual stream, or done. -/
inductive TileStage | raw | fold | header | panelU | panelV | residual | ready
  deriving DecidableEq, Repr

/-- A tile in production or waiting to be handed (R223 to R227). -/
structure TileRun where
  number : Nat
  index  : Nat
  record : List Nat
  desc   : List Nat
  stage  : TileStage
  row    : Nat
  reads  : List Fetch
  /-- source values, or mended values -/
  values : List Nat
  factor : List Nat
  engine : Option Nat
  u      : List Nat
  v      : List Nat
  status : Nat
  /-- every half of the tile is the error value (R227) -/
  filled : Bool
  late   : Bool
  deriving DecidableEq, Repr

/-- States of a stream (R233). -/
inductive StreamState | loaded | running | stopping | failed
  deriving DecidableEq, Repr

/-- One weight stream that is not FREE (R211 to R241). -/
structure Stream where
  state    : StreamState
  gallery  : Nat
  base     : Nat
  epoch    : Nat
  handle   : Nat
  header   : List Nat
  sources  : List Nat
  descs    : List (List Nat)
  members  : List StreamMember
  /-- passes completed; record now processed, or the bad one -/
  pass     : Nat
  record   : Nat
  nextTile : Nat
  tiles    : List TileRun
  /-- T0 of the pass, in µs of the Curator timer -/
  t0       : Nat
  /-- when the pass's last tile so far was handed to egress (R222) -/
  lastHand : Option Nat
  /-- the next tile may begin, and waits for its record -/
  starting : Bool
  recLine  : Option (Nat × List Byte)
  recRead  : Option Fetch
  fold     : Option FoldReader
  residual : Option FoldReader
  /-- TILE_BAD has been queued in this pass -/
  badPass  : Bool
  latePass : Nat
  handed   : Nat
  /-- tiles counted late before they began -/
  lateNew  : List Nat
  /-- view whose STOP waits -/
  view     : Option Nat
  deriving DecidableEq, Repr

/-- A LOAD that reads its program (R233, R238): its view, stream, address, grant, reads and bytes so far. -/
structure LoadRun where
  view   : Nat
  /-- gallery under which the header is read, of a program that another part homes -/
  tried  : Nat
  stream : Nat
  base   : Nat
  epoch  : Nat
  handle : Nat
  reads  : List Fetch
  bytes  : List Byte
  deriving DecidableEq, Repr

/-- The STR block (chapter 07). -/
structure Streaming where
  progAddr : List Nat
  progArg  : List Nat
  seq      : CmdSeq
  /-- STR_QUERY, one register for all views (R239, R526) -/
  query    : Nat
  /-- STR_CTRL as its register word -/
  ctrl     : Nat
  load     : Option LoadRun
  streams  : Table Stream
  events   : EventQueue
  deriving DecidableEq, Repr

/-- A fold-table slot: OLD and NEW generations (R251, R253, R270). -/
structure FoldSlot where
  gallery : Nat
  wait    : Nat
  old     : Option FoldTable
  new     : Option FoldTable
  deriving DecidableEq, Repr

/-- A slot that holds nothing. -/
def FoldSlot.blank : FoldSlot := { gallery := 0, wait := 1000, old := none, new := none }

/-- A running LOAD or DROP of a slot (R253): its view, slot and generation, the arguments with which a LOAD was written (R268), whether it
waits for a table's last reference, and the read of the image. -/
structure SlotRun where
  view    : Nat
  addr    : Nat
  arg     : Nat
  load    : Bool
  slot    : Nat
  gen     : Nat
  waiting : Bool
  read    : Option Fetch
  deriving DecidableEq, Repr

/-- States of a job (R271). -/
inductive JobState | free | running | done | failed | aborted
  deriving DecidableEq, Repr

/-- What a running job is at: its values, the last line of its output, the first line (which holds the stream header), the
histogram, or waiting for its last writes. -/
inductive JobPhase | values | tail | first | histogram | wait
  deriving DecidableEq, Repr

/-- A fold or unfold job (R255 to R258, R271). -/
structure FoldJob where
  /-- the folder of a FOLD (R257), and its turn there -/
  unit    : Nat
  turn    : UnitTurn
  desc    : List Nat
  state   : JobState
  status  : Nat
  /-- bytes written at DEST_ADDR -/
  written : Nat
  phase   : JobPhase
  /-- it may run to its end -/
  go      : Bool
  /-- lines it may still write before the command that waits below is performed -/
  budget  : Nat
  /-- a waiting ABORT (true) or QUERY (false), with its view -/
  ask     : Option (Bool × Nat)
  reads   : List Fetch
  bytes   : List Byte
  taken   : Nat
  blocks  : Nat
  /-- output not yet written, and the bytes before it -/
  out     : List Byte
  at_     : Nat
  first   : List Byte
  hist    : List Nat
  writes  : List Nat
  reader  : Option FoldReader
  deriving DecidableEq, Repr

/-- A START of an UNFOLD whose stream header is being read (R257): its view, the job's number, and the job as it will run. -/
structure JobCheck where
  view : Nat
  job  : Nat
  run  : FoldJob
  deriving DecidableEq, Repr

/-- A panel that a mending engine holds (R260): the factor set with the grant it was read under and its rank, which factor, its first row
or column, and its values. -/
structure Panel where
  factor : Nat
  grant  : List Nat
  isU    : Bool
  start  : Nat
  count  : Nat
  values : List Nat
  deriving DecidableEq, Repr

/-- A mending engine (R260, R273): ENABLE, DRAINING, the tile that it has started (stream and tile number), and its panels, newest first. -/
structure MendEngine where
  enable   : Bool
  draining : Bool
  current  : Option (Nat × Nat)
  panels   : List Panel
  deriving DecidableEq, Repr

/-- The CMP block (chapter 08). -/
structure Compression where
  tblAddr  : List Nat
  tblArg   : List Nat
  slotSeq  : CmdSeq
  slots    : Table FoldSlot
  slotRun  : Option SlotRun
  jobDescs : List (List Nat)
  jobSeq   : CmdSeq
  jobs     : Table FoldJob
  check    : Option JobCheck
  events   : EventQueue
  mend     : List MendEngine
  /-- engine of each stream and factor set (R260) -/
  mendSets : List (Nat × Nat × Nat)
  deriving DecidableEq, Repr

/-- A queued or running channel-unit command (R275 to R282): its unit, ticket and descriptor, elements written, poisoned lines
and the offset of the first, the status that it will end with, and whether it runs and has written its last line. -/
structure ChuCmd where
  unit     : Nat
  ticket   : Nat
  desc     : List Nat
  done     : Nat
  poisoned : Nat
  firstBad : Nat
  status   : Nat
  running  : Bool
  ended    : Bool
  /-- a CANCEL has stopped it, and its write-throughs are still to be answered -/
  cancelled : Bool
  /-- energy that the CHANNEL class has given it (R454) -/
  paid     : Nat
  deriving DecidableEq, Repr

/-- The CHU block (chapter 09). -/
structure ChannelUnits where
  descs    : List (List Nat)
  seq      : CmdSeq
  enable   : List Bool
  draining : List Bool
  tickets  : List Nat
  cmds     : List ChuCmd
  /-- requests held while a command runs on their range (R282) -/
  held     : List Msg
  events   : EventQueue
  deriving DecidableEq, Repr

end Sys2Proof.Machine
end

