-- ==== Sys2Proof/Machine/State/Fabric.lean ====
section
/-!
DEFINITION. State of the links, the switch core, the ordering machinery and the request tracking
(chapters 02 and 12).
-/

namespace Sys2Proof.Machine

open Sys2Proof

/-- Link states of a logical port (R47). -/
inductive LinkState | down | train | lock | align | param | active
  deriving DecidableEq, Repr

/-- A message of which only a beginning has arrived (R373). -/
structure Partial where
  bytes : List Byte
  need  : Nat
  vc    : Nat
  deriving DecidableEq, Repr

/-- One logical port's link (R47 to R54, R373, R374). -/
structure LPort where
  link       : LinkState
  /-- the peer is a YP-2400 (R48 KIND) -/
  peerYp     : Bool
  peerPart   : Nat
  peerPort   : Nat
  lanes      : Nat
  /-- credits left on each VC towards the peer (R54) -/
  txCredits  : List Nat
  /-- credits that the peer's INIT offered, by VC (R48, R49) -/
  offered    : List Nat
  /-- credits taken by arrivals and not yet returned, by VC (R54, R358) -/
  rxTaken    : List Nat
  /-- credits freed and waiting for a CR field (R44) -/
  rxReturn   : List Nat
  maxTags    : Nat
  opMap      : Nat
  /-- next DATA flit expected (R50) -/
  rxExp      : BitVec 8
  /-- a DATA flit has been accepted, so that ACK_SEQ and LAST_RX_SEQ mean something (R44, R48) -/
  rxAny      : Bool
  /-- next DATA flit number to send (R44) -/
  txSeq      : BitVec 8
  /-- unacknowledged DATA flits, oldest first, at most 64 (R50) -/
  replay     : List (List Byte)
  /-- a NAK was sent and the expected flit has not come (R51) -/
  nakSent    : Bool
  /-- consecutive replays without progress (R51) -/
  replays    : Nat
  /-- accepted flits not yet acknowledged (R50) -/
  unacked    : Nat
  /-- a start ordered set has been received (R43) -/
  startSeen  : Bool
  /-- training again with flits in the replay buffer (R51) -/
  retraining : Bool
  /-- TRAIN failed and waits for its new attempt (R47) -/
  retryWait  : Bool
  rxPartial  : Option Partial
  /-- after a truncation: no bytes until a FIRST_HDR (R374) -/
  needHdr    : Bool
  /-- Curator time of the last truncation that was recorded (R373) -/
  truncAt    : Option Nat
  /-- the flits most recently handed to the PCS -/
  out        : List (List Byte)
  deriving DecidableEq, Repr

/-- A port that is down and has never trained. -/
def LPort.idle : LPort :=
  { link := .down, peerYp := false, peerPart := 0, peerPort := 0, lanes := 4, txCredits := List.replicate 8 0,
    offered := List.replicate 8 0, rxTaken := List.replicate 8 0, rxReturn := List.replicate 8 0, maxTags := 0, opMap := 0, rxExp := 0, rxAny := false, txSeq := 0,
    replay := [], nakSent := false, replays := 0, unacked := 0, startSeen := false, retraining := false,
    retryWait := false, rxPartial := none, needHdr := false, truncAt := none, out := [] }

/-- Cell-buffer partitions to which a message can be charged (R356, R357); `ingress` is the space it arrived in. -/
inductive Space | ingress | galleryMin (g : Nat) | shared | engine | mirror
  deriving DecidableEq, Repr

/-- Colour of a policed message (R368). -/
inductive Colour | green | yellow | red
  deriving DecidableEq, Repr

/-- How a message came to the switch core: by a logical port, or, as port 256, from an internal agent of a bay (R352); with the
mirror sessions that it has been copied to (R369). -/
structure Entry where
  port : Nat
  bay  : Nat
  seen : List Nat
  deriving DecidableEq, Repr

/-- A message that waits in ingress space (R358, R368), as the ingress part rewrote it (R58), with the policer that holds it while it
is red: `issued` once its source part has numbered and tracked it, or the part has made it; `holds` while it holds credits of its
port. -/
structure Waiting where
  msg     : Msg
  issued  : Bool
  colour  : Colour
  policer : Option Nat
  holds   : Bool
  entry   : Entry
  deriving DecidableEq, Repr

/-- A message in a virtual output queue or an egress queue (R354, R360): `left` cells have still to cross. -/
structure Queued where
  msg    : Msg
  input  : Nat
  port   : Nat
  queue  : Nat
  space  : Space
  left   : Nat
  /-- finish tag, once it is the head of its queue (R362) -/
  tag    : Option (BitVec 48)
  /-- a mirror copy (R369) -/
  copy   : Bool
  /-- arrived in an empty queue, so that its tag starts from V (R362) -/
  wakes  : Bool
  /-- number of a multicast message, whose cells are freed with its last copy (R359) -/
  shared : Option Nat
  /-- the mirror sessions that it has been copied to (R369) -/
  seen   : List Nat
  deriving DecidableEq, Repr

/-- A multicast message that has not been replicated yet (R162, R359): its group and generation, the members of the group that it is
for (none: all), the bay of the engine that made it, and its number in `multi` once it has cells of its partition. -/
structure Multicast where
  msg     : Msg
  group   : Nat
  gen     : Nat
  members : Option (List Nat)
  bay     : Nat
  number  : Option Nat
  deriving DecidableEq, Repr

/-- Virtual time and expedited run of one class of one port (R361, R362). -/
structure ClassTime where
  v   : BitVec 48
  run : Nat
  deriving DecidableEq, Repr

/-- TRF_Q_CFG_n (R379). -/
structure QueueCfg where
  weight   : Nat
  shaper   : Nat
  shaperEn : Bool
  maxCells : Nat
  alpha    : Nat
  deriving DecidableEq, Repr

/-- Reset of TRF_Q_CFG_n (R379). -/
def QueueCfg.reset : QueueCfg := { weight := 4096, shaper := 0, shaperEn := false, maxCells := 65536, alpha := 4 }

/-- TRF_SHAPER_n (R363, R380); `tokens` counts 1/1,024 bytes. `opening` is what it held as the cell time began, `used` the logical
ports that have started a message under it since. -/
structure Shaper where
  rate      : Nat
  burst     : Nat
  resetFull : Bool
  tokens    : Int
  opening   : Int
  used      : List Nat
  deriving DecidableEq, Repr

/-- What a change of configuration leaves in a bucket, in 1/1,024 bytes (R364). -/
def shaperFill (x : Shaper) : Int := if x.resetFull then (x.burst * 1024 : Nat) else 0

/-- Reset of TRF_SHAPER_n (R380). -/
def Shaper.reset : Shaper := { rate := 16777215, burst := 1048576, resetFull := true, tokens := 1048576 * 1024, opening := 1048576 * 1024, used := [] }

/-- TRF_POLICER_n (R367, R381); buckets count 1/1,024 bytes. -/
structure Policer where
  twoRate : Bool
  refuse  : Bool
  cir     : Nat
  pir     : Nat
  cbs     : Nat
  ebs     : Nat
  tokC    : Nat
  tokE    : Nat
  deriving DecidableEq, Repr

/-- Reset of TRF_POLICER_n (R381). -/
def Policer.reset : Policer :=
  { twoRate := false, refuse := false, cir := 16777215, pir := 16777215, cbs := 1048576, ebs := 1048576,
    tokC := 1048576 * 1024, tokE := 1048576 * 1024 }

/-- TRF_PORT_CFG_n (R376). -/
structure PortCfg where
  overhead  : Nat
  policer   : Nat
  police    : Bool
  mirrorIn  : Bool
  mirrorOut : Bool
  session   : Nat
  deriving DecidableEq, Repr

/-- Reset of TRF_PORT_CFG_n (R376). -/
def PortCfg.reset : PortCfg :=
  { overhead := 0, policer := 0, police := false, mirrorIn := false, mirrorOut := false, session := 0 }

/-- TRF_MIRROR_n (R377). -/
structure MirrorCfg where
  dest   : Nat
  enable : Bool
  deriving DecidableEq, Repr

/-- The switch core: queues, matcher, schedulers, shapers, policers and the buffer (chapter 12). -/
structure Switch where
  /-- by 8 × port + VC, 256 + agent standing for an internal agent: messages that wait in ingress space, oldest first (R357, R358,
  R368) -/
  waiting    : Table (List Waiting)
  /-- virtual output queues, in order of admission (R354, R355) -/
  voq        : List Queued
  /-- by 32 × port + queue: egress queues, head first (R360) -/
  queues     : Table (List Queued)
  /-- by 32 × port + queue: finish tag of the queue's previous message (R362) -/
  fPrev      : Table (BitVec 48)
  /-- by 4 × port + class (R361, R362) -/
  times      : Table ClassTime
  /-- grant pointer of each crossbar output, accept pointer of each input (R354) -/
  grantPtr   : Table Nat
  acceptPtr  : Table Nat
  /-- by 128 × input + output: the queue after the last one served (R354) -/
  rrPtr      : Table Nat
  /-- odd cell time, and the matching begun in the even one (R354) -/
  oddCell    : Bool
  halfMatch  : List (Nat × Nat)
  /-- multicast messages to be replicated, oldest first (R162) -/
  mcast      : List Multicast
  /-- copies still to leave of each multicast message, and one more until it is replicated, with its space and cells (R359) -/
  multi      : Table (Nat × Space × Nat)
  nextMulti  : Nat
  /-- sizes in MiB (R356, R375) -/
  replayMib  : Nat
  engineMib  : Nat
  mirrorMib  : Nat
  galMib     : List Nat
  sharedMib  : Nat
  yellow     : Nat
  stallTimer : Nat
  qmap       : List (BitVec 64)
  portCfg    : Table PortCfg
  mirrors    : List MirrorCfg
  /-- TRF_FLOW_n words 0 and 1, by 2 × n + word (R378) -/
  flows      : Table (BitVec 64)
  qcfg       : Table QueueCfg
  shapers    : Table Shaper
  policers   : Table Policer
  deriving DecidableEq, Repr

/-- One unacknowledged ordered message and the port it left by (R68). -/
structure Unacked where
  msg  : Msg
  path : Nat
  deriving DecidableEq, Repr

/-- A source stream: one agent of this part to one destination part (R66 to R71). -/
structure SrcStream where
  next     : BitVec 24
  /-- the next ordered message carries SYN (R70) -/
  fresh    : Bool
  unacked  : List Unacked
  /-- it carried ordered messages since its last FENCE_MARK (R74) -/
  sinceMark : Bool
  deriving DecidableEq, Repr

/-- A request being tracked at its source part until it is answered (R76). -/
structure Tracked where
  msg      : Msg
  timeout  : Nat
  /-- the source part saw its path or port go down (R371) -/
  pathDown : Bool
  deriving DecidableEq, Repr

/-- A fence that waits for the answers to the messages it covers (R73). -/
structure FenceRec where
  agent   : Nat
  msg     : Msg
  /-- destination part and SSEQ of each message not yet answered (R73) -/
  covered : List (Nat × Nat)
  /-- ordered messages in its scope that came before it and still wait to be numbered (R66, R68, R73) -/
  waits   : List Msg
  /-- the fence itself has left ingress space (R358, R368) -/
  taken   : Bool
  deriving DecidableEq, Repr

/-- A resequencer slot (R69, R70, R74). -/
structure ReseqSlot where
  next      : BitVec 24
  held      : List Msg
  lastFence : Option (BitVec 24)
  /-- TAG of the SYN message that set the slot (R70) -/
  started   : BitVec 16
  /-- SSEQ and STATUS of its recent messages that were not performed, for the answers to their duplicates (R69) -/
  failed    : List (BitVec 24 × Nat)
  /-- position in the order of last use, for the least recently used idle slot (R70) -/
  used      : Nat
  deriving DecidableEq, Repr

/-- An atomic's answer, kept for duplicates (R72). -/
structure AtomicEntry where
  part  : Nat
  agent : Nat
  sseq  : BitVec 24
  answer : Msg
  deriving DecidableEq, Repr

/-- Notices of one kind to one requester that are being folded (R65). -/
structure NoticeFold where
  status : Nat
  named  : Nat
  count  : Nat
  /-- scheduler ticks until the 10 µs window has passed -/
  window : Nat
  deriving DecidableEq, Repr

/-- Notice numbers and folds of one requester (R65). -/
structure NoticeState where
  seq   : BitVec 16
  folds : List NoticeFold
  deriving DecidableEq, Repr

/-- Links, ordering and tracking (chapter 02). -/
structure Links where
  /-- by logical port 0 … 255 -/
  ports       : Table LPort
  /-- by physical port 0 … 127: FPT_LINK_CTRL.ENABLE and BREAKOUT, FPT_REPLAY_CTRL (R78) -/
  enable      : Table Bool
  breakout    : Table Bool
  ackTimeout  : Table Nat
  replayLimit : Table Nat
  cplTimeout  : Nat
  retxTimer   : Nat
  streamIdle  : Nat
  /-- by agent × 4,096 + destination part -/
  streams     : Table SrcStream
  /-- by agent × 65,536 + tag -/
  tracked     : Table Tracked
  fences      : List FenceRec
  /-- by agent: its requests that wait to be numbered and sent, oldest first (R66, R68, R357) -/
  unsent      : Table (List Waiting)
  /-- by agent × 65,536 + tag: requests of this part's endpoints whose answer is queued for egress (R371) -/
  answered    : Table Tracked
  /-- 24-bit fence number of each agent (R74) -/
  fenceNo     : Table (BitVec 24)
  /-- by source part × 512 + source agent -/
  reseq       : Table ReseqSlot
  reseqClock  : Nat
  atomics     : List AtomicEntry
  /-- by requester: part × 512 + agent -/
  notices     : Table NoticeState
  /-- the first two stream-idle times after a fast reset (R70) -/
  resync      : Bool
  /-- next tag of each internal agent of this part -/
  nextTag     : Table Nat
  deriving DecidableEq, Repr

end Sys2Proof.Machine
end

