-- ==== Sys2Proof/Machine/State/Flash.lean ====
section
/-!
DEFINITION. State of the flash tier: drives, zones, journals, moves, anteroom (chapter 11).
-/

namespace Sys2Proof.Machine

open Sys2Proof

/-- States of a drive, in the order of FLT_DRIVE_STATUS_n.STATE (R350). -/
inductive DriveState | absent | starting | ready | down | rejected | unenrolled | foreign | warn
  deriving DecidableEq, Repr

/-- What a journal record says (R330, R331). -/
inductive JKind | bind | unbind
  deriving DecidableEq, Repr

/-- What a BIND or UNBIND record of a journal says (R330). `lba` is its START_LBA. -/
structure JRec where
  kind      : JKind
  zone      : Nat
  ext       : Nat
  lba       : Nat
  object    : BitVec 64
  ordinal   : Nat
  gallery   : Nat
  cls       : Nat
  opset     : Nat
  anyPoison : Bool
  twinValid : Bool
  twinPart  : Nat
  serial    : Nat
  slot      : Nat
  keyEpoch  : Nat
  seq       : Nat
  deriving DecidableEq, Repr

/-- A data zone (R328, R329): its write pointer, in LBAs from its start, and the extents in it that are still bound. -/
structure Zone where
  wp       : Nat
  live     : List Nat
  finished : Bool
  deriving DecidableEq, Repr

/-- What an NVMe command is for (R326, R327): a staging read and its room page, a direct read of a 4 KiB block, the read or
write of a move at a block of its extent and the Flush after its data, the Write of a journal block in a journal zone and the Flush
after it, the Reset, Close or Finish of a zone, the reset of every zone, Report Zones, or the Abort of a command; and the admin
commands, Identify by CNS and CSI, Get Log Page by log, Set and Get Features by feature, the creation or deletion of the submission
or completion queue of a pair, and Asynchronous Event Request. `void` is a command of whose answer nothing is wanted any more,
`voidWrite` the Write of a move that has stopped, which is still outstanding to its zone. -/
inductive NvmeUse
  | stage (page room : Nat) | direct (block : Nat) | moveRead (num block : Nat) | moveWrite (num block : Nat) | moveFlush (num : Nat)
  | journal (zone : Nat) | flush | reset (zone : Nat) | close (zone : Nat) | finish (zone : Nat) | resetAll | reportZones
  | abort (cid : Nat) | identify (cns csi : Nat) | getLog (log : Nat) | setFeature (id : Nat) | getFeature (id : Nat)
  | createQueue (completion : Bool) (pair : Nat) | deleteQueue (completion : Bool) (pair : Nat) | asyncEvent | void | voidWrite (zone : Nat)
  deriving DecidableEq, Repr

/-- An NVMe command outstanding at a drive, on the admin queue (0) or an I/O queue pair (1 to 8). -/
structure NvmeCmd where
  cid     : Nat
  queue   : Nat
  use     : NvmeUse
  retried : Bool
  deriving DecidableEq, Repr

/-- A command that waits for a place in its queue, or behind a Write of its zone. -/
structure NvmeHeld where
  use     : NvmeUse
  retried : Bool
  deriving DecidableEq, Repr

/-- One drive on a root port (R324 to R350, R553). -/
structure Drive where
  state    : DriveState
  /-- NPn_PRSNT_N is low -/
  present  : Bool
  /-- NPn_PERST_N is asserted -/
  perst    : Bool
  /-- no bring-up has ended since a cold boot or a hot insertion (R345) -/
  fresh    : Bool
  rate     : Nat
  width    : Nat
  percent  : Nat
  zcap     : Nat
  /-- LBAs from the start of a zone to the start of the next -/
  zsize    : Nat
  /-- zones of the namespace -/
  nzones   : Nat
  zones    : Table Zone
  /-- the blocks written in the two journal zones (R330), which of the zones is active, and the next SEQ -/
  journal  : List (List (List Byte))
  active   : Nat
  jseq     : Nat
  cmds     : List NvmeCmd
  held     : List NvmeHeld
  nextCid  : Nat
  deriving DecidableEq, Repr

/-- A root port without a drive. -/
def Drive.blank : Drive :=
  { state := .absent, present := false, perst := true, fresh := false, rate := 0, width := 0, percent := 0, zcap := 0,
    zsize := 0, nzones := 0, zones := [], journal := [[], []], active := 0, jseq := 0, cmds := [], held := [], nextCid := 0 }

/-- A tier move (R338 to R341). `bad` lists the 4 KiB blocks that the drive could not read. -/
structure Move where
  num      : Nat
  demote   : Bool
  src      : Nat
  dest     : Nat
  drive    : Nat
  zone     : Nat
  bg       : Bool
  /-- edition slot and serial recorded for the extent -/
  slot     : Nat
  serial   : Nat
  /-- REVOKE has come during the move and has not finished (R32, R340 step 6) -/
  revoking : Bool
  copied   : Bool
  /-- next 64 KiB block to read or write, and the write pointer at which the extent begins in its zone -/
  next     : Nat
  start    : Nat
  bad      : List Nat
  /-- energy that its class has given it (R454) -/
  paid     : Nat
  deriving DecidableEq, Repr

/-- A staged page of the anteroom (R336): its room page, the streams whose STAGE pins hold it, when it was last read, and
whether a stand-in keeps it pinned (R431). -/
structure Staged where
  room   : Nat
  pins   : List Nat
  used   : Nat
  kept   : Bool
  deriving DecidableEq, Repr

/-- A REMOVE_ROOM or ENROLL that keeps BUSY (R335, R347): its view, and the room extent or the drive. -/
inductive FltRun | removeRoom (view ext : Nat) | enroll (view drive : Nat)
  deriving DecidableEq, Repr

/-- The FLT block (chapter 11). -/
structure Flash where
  /-- root ports that the record enables (R480 FLASH_PORTS) -/
  ports    : Nat
  drives   : List Drive
  moves    : List Move
  /-- BIND record of each bound extent (R331, R345) -/
  bound    : Table JRec
  room     : List Nat
  removing : List Nat
  /-- by flash page (local offset ÷ 65,536) -/
  staged   : Table Staged
  clock    : Nat
  /-- requests that wait for a staged page, by flash page -/
  reading  : Table (List Msg)
  /-- STAGE pins that wait for a staged page: flash page and stream -/
  wanted   : List (Nat × Nat)
  /-- requests that wait for a direct read, by 4 KiB block (local offset ÷ 4,096) -/
  direct   : Table (List Msg)
  cmdArg   : List Nat
  /-- FLT_CMD and FLT_STATUS; the value is MOVE (R347) -/
  seq      : CmdSeq
  run      : Option FltRun
  /-- NP_REFCLK is present, and the drives that its loss took DOWN (R550) -/
  npClock  : Bool
  npDown   : List Nat
  events   : EventQueue
  nvmeTimeout : Nat
  roomLow  : Nat
  /-- ROOM_LOW has been queued and the room has not recovered -/
  lowSent  : Bool
  deriving DecidableEq, Repr

end Sys2Proof.Machine
end

