-- ==== Sys2Proof/Machine/State/Power.lean ====
section
/-!
DEFINITION. State of the work scheduler, the power modes and the throttle (chapter 15).
-/

namespace Sys2Proof.Machine

open Sys2Proof

/-- PWR_CLASS_n (R466) and the energy of its class, in internal pJ (log entry 39). -/
structure PwrClass where
  word     : Word32
  /-- energy that the class holds for its turns (R454); none while no tick has divided a budget, and nothing is paced -/
  held     : Option Nat
  /-- energy that its turns have taken since the last tick -/
  used     : Nat
  /-- energy granted and not yet counted; ticks for which demand has received no energy (R456) -/
  granted  : Nat
  deferred : Nat
  deriving DecidableEq, Repr

/-- The class of PWR_CLASS_n after reset of the scheduler. -/
def PwrClass.start (word : Word32) : PwrClass := { word := word, held := none, used := 0, granted := 0, deferred := 0 }

/-- A step of work that waits until its class holds its energy (R454): the retraining of a channel (R300), a drive's log as a poll has found
it (R343). -/
inductive DueWork
  | retrain (channel : Nat)
  | poll (drive critical percent : Nat)
  deriving DecidableEq, Repr

/-- The turns of one engine (R390): the galleries of its last 4,096 turns, newest first; of a gather or filter unit also the request whose
turn it is with what is left of the turn (R207), and for each gallery the request that had its last turn. -/
structure Turns where
  window : List Nat
  holder : Option (Nat × Nat)
  last   : Table Nat
  deriving DecidableEq, Repr

/-- The turns of an engine that has served none. -/
def Turns.blank : Turns := { window := [], holder := none, last := [] }

/-- The power block. -/
structure Power where
  mode      : Word32
  eco       : Word32
  ecoPorts  : List Word32
  classes   : List PwrClass
  /-- mode in force, and the target, in units of 10 µW (R450, R452) -/
  modeNow   : Nat
  target    : Nat
  ramping   : Bool
  /-- PWR_ECO as it divides the clocks now (R451) -/
  ecoNow    : Nat
  under     : Bool
  unreachable : Bool
  overrun   : Nat
  inputW    : Nat
  /-- F in internal pJ of a tick (R449), and B in W -/
  floorPj   : Nat
  budgetW   : Nat
  /-- ballast energy not yet counted, in pJ -/
  ballastPj : Nat
  /-- energy of the running tick that no class has been granted: turns that begin within the tick take it (R454) -/
  spare     : Nat
  /-- energy that expedited traffic has taken since the last tick, and, at a throttle level above 0, what it may still take (R454) -/
  expUsed   : Nat
  expHeld   : Option Nat
  /-- energy of forced turns, which the next tick charges ahead of the minimum shares (R456) -/
  owed      : Nat
  /-- the class that took a turn last (R6) -/
  lastClass : Nat
  /-- steps that wait for energy -/
  due       : List DueWork
  /-- input power as measured last, in units of 10 µW (R452, R457) -/
  draw      : Option Nat
  /-- sums of the samples of the last 10 ms spans, newest first, at most 100; the sum and number of those of the span under way; and the
  integral of the error of the 1 s mean (R457) -/
  spans     : List Nat
  spanSum   : Nat
  spanCount : Nat
  integral  : Int
  /-- TEMP_MAX in units of 0.25 °C -/
  tempMax   : Nat
  tempSensor : Nat
  level     : Nat
  boundary  : Nat
  /-- ports that Eco has taken down (R451) -/
  ecoDown   : List Nat
  /-- turns by engine (R390) -/
  turns     : Table Turns
  events    : EventQueue
  deriving DecidableEq, Repr

end Sys2Proof.Machine
end

