-- ==== Sys2Proof/Machine/State/Recovery.lean ====
section
/-!
DEFINITION. State of faults, twins, stand-ins, drains and spot checks (chapter 14).
-/

namespace Sys2Proof.Machine

open Sys2Proof

/-- A gallery fault queue entry (R414): words 0, 1 and 2. -/
structure FaultEntry where
  addr   : Nat
  notice : Nat
  ident  : Nat
  /-- its number in its queue (R528) -/
  num    : Nat
  deriving DecidableEq, Repr

/-- A gallery fault queue, its OVERFLOW bit (R414, R446) and the number of the next entry. -/
structure FaultQueue where
  entries  : List FaultEntry
  overflow : Bool
  next     : Nat
  deriving DecidableEq, Repr

/-- The empty fault queue. -/
def FaultQueue.empty : FaultQueue := { entries := [], overflow := false, next := 0 }

/-- A hold table entry that is HELD (R420), with the number of lines that its initial copy has brought in order (R427). -/
structure HoldEntry where
  object  : BitVec 64
  srcPart : Nat
  srcExt  : Nat
  epoch   : BitVec 16
  gallery : Nat
  state   : ExtState
  cls     : ExtClass
  opset   : Nat
  synced  : Bool
  next    : Nat
  deriving DecidableEq, Repr

/-- What a write-through stands for (R282, R309, R422, R427, R430). -/
inductive ThroughKind | request | copy | entry | fill | channelUnit (unit ticket : Nat) | send
  deriving DecidableEq, Repr

/-- A write-through that the twin has not answered, and the answer that waits for it (R423, R428). -/
structure WriteThrough where
  agent  : Nat
  tag    : BitVec 16
  twin   : Nat
  line   : Nat
  kind   : ThroughKind
  answer : Option Msg
  deriving DecidableEq, Repr

/-- An initial copy to a twin (R427): the next line to send and the lines sent and not acknowledged; `system` for the
copy of the system region. -/
structure MirrorRun where
  ext     : Nat
  twin    : Nat
  next    : Nat
  out     : Nat
  system  : Bool
  deriving DecidableEq, Repr

/-- Stand-in states (R443). -/
inductive StandIn | none | spare | shadow | compare | taken
  deriving DecidableEq, Repr

/-- What the stand-in holds of an extent of the failed part (R430 to R434). -/
inductive CopyState | notReady | copying | done | unchecked | compared | lost | checking
  deriving DecidableEq, Repr

/-- Stand-in record of one extent. -/
structure StandInExt where
  state      : CopyState
  mismatches : Nat
  twin       : Nat
  /-- FLR_STANDIN_PROGRESS counts it: its state has changed since the last fast reset -/
  counted    : Bool
  deriving DecidableEq, Repr

/-- A SEND that a twin runs (R430): failed part, stand-in, the held local extents still to send, the next line of the
first of them (none before its opening TWIN_ENTRY), the messages not yet answered, and the view whose SEND it is (none for an extent
that the stand-in asks for again, R433). -/
structure SendRun where
  failed  : Nat
  standIn : Nat
  exts    : List Nat
  next    : Option Nat
  out     : Nat
  view    : Option Nat
  deriving DecidableEq, Repr

/-- A charged mismatch (R439, R440): engine and the time of the part's clock, in µs. -/
structure Mismatch where
  engine : Nat
  time   : Nat
  deriving DecidableEq, Repr

/-- Work chosen for a spot check (R438): its engine (0 to 63 reduce, 64 to 79 mending), the context or stream, and the chunk or tile. -/
structure SpotItem where
  engine : Nat
  unit   : Nat
  number : Nat
  deriving DecidableEq, Repr

/-- The FLR block and what stands behind it. -/
structure Recovery where
  seq         : CmdSeq
  cmdArg      : List Nat
  standIn     : StandIn
  forPart     : Nat
  standExts   : Table StandInExt
  /-- H's system region has arrived and its tables are loaded (R430 step 3) -/
  tablesIn    : Bool
  /-- on a twin: the SENDs under way (R430 steps 3 to 5) -/
  sends       : List SendRun
  /-- on a twin: the stand-in that the last SEND named for a failed part (R424) -/
  standIns    : Table Nat
  /-- on the stand-in: twins whose SEND is under way -/
  senders     : List Nat
  resetCause  : Nat
  resetCount  : Nat
  drainBound  : Nat
  sysTwin     : Nat
  sysValid    : Bool
  /-- the lines of the system region that hold the part's tables, as they were last written for its twin (R417, R422) -/
  sysLines    : List (Nat × List Byte)
  spotCtrl    : BitVec 64
  reEnable    : List Bool
  reDraining  : List Bool
  /-- engines 0–63 reduce, 64–79 mending (R439) -/
  quarantined : List Nat
  mismatches  : List Mismatch
  /-- spot checks chosen and not yet made, oldest first (R438) -/
  checks      : List SpotItem
  selftests   : List Nat
  twinDown    : List Nat
  holds       : Table HoldEntry
  throughs    : List WriteThrough
  mirrors     : List MirrorRun
  faults      : List FaultQueue
  events      : EventQueue
  deriving DecidableEq, Repr

end Sys2Proof.Machine
end

