-- ==== Sys2Proof/Machine/Cold.lean ====
section
/-!
DEFINITION. The configuration record by its bytes (R480), Merforoth's default record (R565), and every block as a cold boot sets it: the
numbers of the Reset columns, and the fields whose Reset reads Record from the record (R531).
-/

namespace Sys2Proof.Machine

open Sys2Proof

/-! ### The record (R480, R565) -/

/-- PWR_CLASS words with the defaults of R453 and WEIGHT 16 (R565). -/
def defaultClasses : List Nat :=
  let word (share defer : Nat) : Nat := share + 16 * 2 ^ 8 + defer * 2 ^ 16
  [word 102 0, word 26 0, word 38 0, word 13 0, word 13 0, word 13 0, 0, 0,
   word 0 0, word 0 1000, word 0 0, word 0 0, word 0 0, word 0 60000, word 0 0, word 0 0]

/-- Merforoth's default record (R565). -/
def defaultRecord : Record :=
  { version := 1, length := 1024, partNumber := 0, role := 1, flags := 0, powerMode := 0, plateau := 78, peakLimit := 115,
    ecoDiv := 0, ddrRate := 2, reduceShare := 6, localSlots := 0, flashPorts := 0, bufReplay := 24, bufEngine := 16, bufMirror := 0,
    bufGallery := List.replicate 8 4, routeParts := 32, mcgCount := 2048, reseqStreams := 16384, sharingGroup := 256, galAgent := 0,
    portMode := 0, laneMode := 0, galPort := 0, ecoPorts := 0, pwrClass := defaultClasses, timers := [2000, 20, 8000, 10],
    mgmtParts := List.replicate 8 0, reserved := 0 }

/-- The bytes of a list of numbers, `k` bytes each. -/
def listBytes (k : Nat) (xs : List Nat) : List Byte := xs.flatMap (leBytes k)

/-- The first 1,016 bytes of a record (R480). `reserved` holds the 9 bytes from 0x027, then those from 0x160. -/
def recordBody (r : Record) : List Byte :=
  leBytes 2 r.version ++ leBytes 2 r.length ++ leBytes 2 r.partNumber ++ leBytes 1 r.role ++ leBytes 1 r.flags ++
  leBytes 1 r.powerMode ++ leBytes 1 r.plateau ++ leBytes 1 r.peakLimit ++ leBytes 1 r.ecoDiv ++ leBytes 1 r.ddrRate ++
  leBytes 1 r.reduceShare ++ leBytes 2 r.localSlots ++ leBytes 1 r.flashPorts ++ leBytes 1 r.bufReplay ++
  leBytes 1 r.bufEngine ++ leBytes 1 r.bufMirror ++ listBytes 1 r.bufGallery ++ leBytes 2 r.routeParts ++ leBytes 2 r.mcgCount ++
  leBytes 4 r.reseqStreams ++ leBytes 2 r.sharingGroup ++ leBytes 1 r.galAgent ++ leBytes 9 r.reserved ++
  leBytes 32 r.portMode ++ leBytes 32 r.laneMode ++ leBytes 128 r.galPort ++ leBytes 16 r.ecoPorts ++ listBytes 4 r.pwrClass ++
  listBytes 4 r.timers ++ listBytes 2 r.mgmtParts ++ leBytes 664 (r.reserved / 2 ^ 72)

/-- A record as its 1,024 bytes, its CRC last (R480). -/
def recordBytes (r : Record) : List Byte := recordBody r ++ leBytes 8 (crc64 (recordBody r))

/-- A list of `n` numbers of `k` bytes each from a byte offset. -/
def numsAt (bs : List Byte) (off k n : Nat) : List Nat := (List.range n).map fun i => leAt bs (off + k * i) k

/-- The record that 1,024 bytes spell (R480). -/
def recordOfBytes (bs : List Byte) : Record :=
  { version := leAt bs 0 2, length := leAt bs 2 2, partNumber := leAt bs 4 2, role := leAt bs 6 1, flags := leAt bs 7 1,
    powerMode := leAt bs 8 1, plateau := leAt bs 9 1, peakLimit := leAt bs 10 1, ecoDiv := leAt bs 11 1, ddrRate := leAt bs 12 1,
    reduceShare := leAt bs 13 1, localSlots := leAt bs 14 2, flashPorts := leAt bs 0x10 1, bufReplay := leAt bs 0x11 1,
    bufEngine := leAt bs 0x12 1, bufMirror := leAt bs 0x13 1, bufGallery := numsAt bs 0x14 1 8, routeParts := leAt bs 0x1C 2,
    mcgCount := leAt bs 0x1E 2, reseqStreams := leAt bs 0x20 4, sharingGroup := leAt bs 0x24 2, galAgent := leAt bs 0x26 1,
    portMode := leAt bs 0x30 32, laneMode := leAt bs 0x50 32, galPort := leAt bs 0x70 128, ecoPorts := leAt bs 0xF0 16,
    pwrClass := numsAt bs 0x100 4 16, timers := numsAt bs 0x140 4 4, mgmtParts := numsAt bs 0x150 2 8,
    reserved := leAt bs 0x27 9 + leAt bs 0x160 664 * 2 ^ 72 }

/-- Has a record copy a good CRC (R480)? -/
def recordCrcOk (bs : List Byte) : Bool := bs.length = 1024 && leAt bs 0x3F8 8 = crc64 (bs.take 0x3F8)

/-- Shared space that a record leaves, in MiB of the 160 MiB buffer (R356). -/
def recordShared (r : Record) : Int :=
  160 - 16 - (r.bufReplay : Int) - r.bufEngine - r.bufMirror - (r.bufGallery.sum : Nat)

/-- A number within bounds. -/
def within (lo hi n : Nat) : Bool := lo ≤ n && n ≤ hi

/-- Is a PWR_CLASS word of the record in range (R455, R481)? -/
def recordClassOk (n w : Nat) : Bool :=
  if n = 6 || n = 7 then w = 0 else field w 15 8 ≠ 0 && (n < 6 || field w 7 0 = 0)

/-- The record's checks that need no fitted module (R480, R481, R20, R35, R77, R356, R375). -/
def recordOk (r : Record) : Bool :=
  r.version = 1 && r.length = 1024 && r.partNumber < 4096 && within 1 2 r.role && r.flags < 4 && r.powerMode ≤ 2 &&
  within 50 105 r.plateau && within 50 115 r.peakLimit && r.ecoDiv < 32 && field r.ecoDiv 1 0 ≠ 3 && field r.ecoDiv 3 2 ≠ 3 &&
  r.ddrRate ≤ 2 && within 1 8 r.reduceShare && r.localSlots ≤ 498 && within 8 64 r.bufReplay && within 8 64 r.bufEngine &&
  r.bufMirror ≤ 16 && (r.bufGallery.all fun b => b ≤ 16) && decide (32 ≤ recordShared r) && within 1 4096 r.routeParts &&
  within 1 8192 r.mcgCount && within 1 65536 r.reseqStreams && within 1 256 r.sharingGroup && !bitAt r.galAgent 3 &&
  !bitAt r.galAgent 7 && r.reserved = 0 &&
  ((List.range 128).all fun n => field r.laneMode (2 * n + 1) (2 * n) ≤ 1) &&
  ((List.range 256).all fun k => !bitAt r.galPort (4 * k + 3)) &&
  ((List.range 16).all fun n => recordClassOk n (r.pwrClass.getD n 0)) &&
  decide ((((r.pwrClass.take 6).map fun w => field w 7 0).sum) ≤ 256) &&
  within 20 100000 (r.timers.getD 0 0) && within 2 1000 (r.timers.getD 1 0) && within 1000 1000000 (r.timers.getD 2 0) &&
  within 1 1000 (r.timers.getD 3 0) && (r.mgmtParts.all fun w => field w 14 12 = 0)

/-! ### Blocks at a cold boot -/

/-- The links (R78: ENABLE and BREAKOUT from PORT_MODE). -/
def coldLinks (r : Record) : Links :=
  let fps := List.range 128
  { ports := [], enable := (fps.filter fun n => bitAt r.portMode (2 * n)).map fun n => (n, true),
    breakout := (fps.filter fun n => bitAt r.portMode (2 * n + 1)).map fun n => (n, true),
    ackTimeout := [], replayLimit := [], cplTimeout := r.timers.getD 0 2000, retxTimer := r.timers.getD 1 20,
    streamIdle := r.timers.getD 2 8000, streams := [], tracked := [], fences := [], unsent := [],
    answered := [], fenceNo := [], reseq := [], reseqClock := 0,
    atomics := [], notices := [], resync := false, nextTag := [] }

/-- TRF_QMAP_g at reset (R376): queue 4 × g + ⌊v ÷ 2⌋ for VC v. -/
def coldQmap (g : Nat) : BitVec 64 :=
  BitVec.ofNat 64 (((List.range 8).map fun v => (4 * g + v / 2) * 2 ^ (5 * v)).sum)

/-- The switch core (R356, R375 to R381). -/
def coldSwitch (r : Record) : Switch :=
  { waiting := [], voq := [], queues := [], fPrev := [], times := [], grantPtr := [], acceptPtr := [], rrPtr := [], oddCell := false,
    halfMatch := [], mcast := [], multi := [], nextMulti := 0, replayMib := r.bufReplay, engineMib := r.bufEngine, mirrorMib := r.bufMirror,
    galMib := r.bufGallery, sharedMib := (recordShared r).toNat, yellow := 16384, stallTimer := r.timers.getD 3 10,
    qmap := (List.range 8).map coldQmap, portCfg := [], mirrors := List.replicate 4 { dest := 0, enable := false }, flows := [],
    qcfg := [], shapers := [], policers := [] }

/-- The pool tables (R13, R20, R25 to R28, R40). -/
def coldPool (r : Record) : Pool :=
  { partNumber := r.partNumber, perChannel := 0, localSlots := r.localSlots, extents := [], objects := [], loans := [],
    routeParts := [], routePorts := [], salts := (List.range 32).map fun n => if n % 2 = 0 then 0x76543210 else 0xFEDCBA98, copies := [], revokes := [], lenderReqs := [], loanPages := [],
    extSeq := CmdSeq.reset, tblData := List.replicate 4 (List.replicate 8 0), tblSeq := CmdSeq.reset }

/-- Regions and editions (R105 to R109). -/
def coldRegions : Regions :=
  { owners := [], editions := [], leases := [], obj := List.replicate 4 0, seq := CmdSeq.reset, wait := none, starved := [],
    leaseTime := 30, spareLow := 256, events := EventQueue.empty, spares := [] }

/-- The catalogue (R139 to R144). -/
def coldCatalogue (r : Record) : Catalogue :=
  { groupSize := r.sharingGroup, regions := [], members := [], dir := [], dirCache := [], dirInit := [], initBusy := [], txns := [], waiting := [],
    dist := [], obj := List.replicate 4 0, cmdExt := List.replicate 4 0, seq := CmdSeq.reset, walks := [],
    events := EventQueue.empty, nextTag := 0 }

/-- The DRAM controllers before training (R320 to R323), over a memory. -/
def coldDram (m : Memory) : Dram :=
  { memory := m, waiting := [], channels := List.replicate 24 Channel.blank, fillSeq := CmdSeq.reset, fill := none, fillLines := List.replicate 4 0,
    fillPattern := List.replicate 4 0, surveySeq := CmdSeq.reset, survey := none, surveyBase := List.replicate 4 0,
    surveyLen := List.replicate 4 0, surveyId := 0, summary := List.replicate 8 0, surveyRate := 1000, flipData := 0, flipCtrl := 0,
    flipHit := 0 }

/-- Gallery of each logical port that the record gives one other than 0 (R383, R480). -/
def recordPorts (r : Record) : Table Nat :=
  ((List.range 256).map fun k => (k, field r.galPort (4 * k + 2) (4 * k))).filter fun p => p.2 ≠ 0

/-- The galleries (R385, R407 to R412). -/
def coldGalleries (r : Record) : Galleries :=
  { gals := List.replicate 8 Gallery.reset, tags := [], colls := [], bindings := [], seq := CmdSeq.reset,
    hp0 := field r.galAgent 2 0, hp1 := field r.galAgent 6 4, ports := recordPorts r, reenc := 8000, vitrine := false,
    fromRecord := false, events := EventQueue.empty, rinseWait := [], rinseAll := false, rinseView := none, rinseFull := false, waitViews := [],
    resetDrained := [] }

/-- FLR_SPOT_CTRL at reset (R444). -/
def coldSpot : BitVec 64 := BitVec.ofNat 64 (100 + 100 * 2 ^ 20 + 3 * 2 ^ 40 + 168 * 2 ^ 48)

/-- The FLR block (R442 to R447). -/
def coldRecovery : Recovery :=
  { seq := CmdSeq.reset, cmdArg := List.replicate 4 0, standIn := .none, forPart := 0, standExts := [], tablesIn := false, sends := [],
    standIns := [], senders := [], resetCause := 0, resetCount := 0, drainBound := 10000, sysTwin := 0, sysValid := false, sysLines := [], spotCtrl := coldSpot,
    reEnable := List.replicate 64 true, reDraining := List.replicate 64 false, quarantined := [], mismatches := [], checks := [], selftests := [],
    twinDown := [], holds := [], throughs := [], mirrors := [], faults := List.replicate 8 FaultQueue.empty,
    events := EventQueue.empty }

/-- PWR_MODE as the record sets it (R465). -/
def coldMode (r : Record) : Nat :=
  r.powerMode + field r.flags 1 1 * 4 + r.plateau * 2 ^ 4 + r.peakLimit * 2 ^ 11 + 50 * 2 ^ 18

/-- The power block (R465 to R468). -/
def coldPower (r : Record) : Power :=
  { mode := BitVec.ofNat 32 (coldMode r), eco := BitVec.ofNat 32 r.ecoDiv,
    ecoPorts := (List.range 4).map fun n => BitVec.ofNat 32 (r.ecoPorts >>> (32 * n)),
    classes := r.pwrClass.mapIdx fun n w => PwrClass.start (BitVec.ofNat 32 (if n = 6 || n = 7 then 0 else setField w 15 8 16)),
    modeNow := r.powerMode, target := (if r.powerMode = 1 then r.plateau else r.peakLimit) * 1000000, ramping := false, ecoNow := 0,
    under := false, unreachable := false, overrun := 0, inputW := 0, floorPj := 0, budgetW := 0, ballastPj := 0, spare := 0,
    expUsed := 0, expHeld := none, owed := 0, lastClass := 15, due := [], draw := none, spans := [], spanSum := 0, spanCount := 0, integral := 0, tempMax := 0,
    tempSensor := 0, level := 0, boundary := 0,
    ecoDown := if r.powerMode = 2 then (List.range 128).filter (bitAt r.ecoPorts) else [], turns := [], events := EventQueue.empty }

/-- Collectives (R177 to R182). -/
def coldCollectives (r : Record) : Collectives :=
  { share := r.reduceShare, descs := List.replicate 4 (List.replicate 8 0), seq := CmdSeq.reset, contexts := [], groups := [],
    members := [], events := EventQueue.empty, crossed := [], waiting := [] }

/-- Gather and filter units (R209, R210). -/
def coldGather : GatherFilter :=
  { runLimit := 60000, turn := 64 + 64 * 2 ^ 16, enable := List.replicate 32 true, draining := List.replicate 32 false, requests := [], loose := [] }

/-- Weight streams (R236 to R241). -/
def coldStreaming : Streaming :=
  { progAddr := List.replicate 4 0, progArg := List.replicate 4 0, seq := CmdSeq.reset, query := 0,
    ctrl := 100 + 2 ^ 16, load := none, streams := [], events := EventQueue.empty }

/-- Folding and mending (R268 to R273). -/
def coldCompression : Compression :=
  { tblAddr := List.replicate 4 0, tblArg := List.replicate 4 0, slotSeq := CmdSeq.reset, slots := [], slotRun := none,
    jobDescs := List.replicate 4 (List.replicate 6 0), jobSeq := CmdSeq.reset, jobs := [], events := EventQueue.empty,
    mend := List.replicate 16 { enable := true, draining := false, current := none, panels := [] }, mendSets := [], check := none }

/-- Channel units (R291 to R295). -/
def coldChannelUnits : ChannelUnits :=
  { descs := List.replicate 4 (List.replicate 8 0), seq := CmdSeq.reset, enable := List.replicate 24 true,
    draining := List.replicate 24 false, tickets := List.replicate 24 0, cmds := [], held := [], events := EventQueue.empty }

/-- The flash tier with no drive brought up (R346 to R350). -/
def coldFlash (r : Record) (drives : List Drive) : Flash :=
  { ports := r.flashPorts, drives := drives, moves := [], bound := [], room := [], removing := [], staged := [], clock := 0,
    reading := [], wanted := [], direct := [], cmdArg := List.replicate 4 0, seq := CmdSeq.reset, run := none, npClock := true,
    npDown := [], events := EventQueue.empty, nvmeTimeout := 8000, roomLow := 16, lowSent := false }

/-- Counters and the census (R505, R520, R521). -/
def coldTelemetry : Telemetry :=
  { live := [], shadow := [], shadowId := 0, census := .idle, censusId := 0, time := 0, seq := CmdSeq.reset, temps := List.replicate 64 0,
    volts := List.replicate 32 0, events := EventQueue.empty, later := [] }

/-- The four views (R526). -/
def coldViews : List View := List.replicate 4 View.reset

/-- The Curator island before power comes (R545). No fuse is blown but those that hold the serial and the signer digests. -/
def coldCurator : Curator :=
  { power := .off, pwrgd := false, vin48 := 0, vinHighSeen := false, aonExternal := true, coreRefclk := true, aux1v8 := true,
    norOk := true, waitVin := false, timer := 0, boundaries := 0, phase := 0, haltCause := 0, coldBoots := 0, fastPending := false, latchedCause := 0,
    serial := Config.serial, floor := 0, revoked := [], signers := (List.range 4).map Config.signerDigest, runSlot := 0,
    fwVersion := 0, fwSvn := 0, trialBoot := false, recovery := false, i3cAddr := 0x28 }

/-- A directory copy as its 32 bytes (R474). -/
def dirBytes (d : Directory) : List Byte :=
  let body := leBytes 8 d.seq ++ leBytes 1 d.active ++ leBytes 1 d.trial ++ leBytes 1 d.record ++ List.replicate 13 0
  body ++ leBytes 8 (crc64 body)

/-- The boot NOR as the board first presents it: a directory that names slot A and record copy 0, and the default record in both
copies. The rest of the management state is empty. -/
def coldManagement : Management :=
  { dirs := [dirBytes { seq := 0, active := 0, trial := 0, record := 0 }, List.replicate 32 0xFF],
    records := [recordBytes defaultRecord, recordBytes defaultRecord],
    images := [{ bytes := Config.norImage 0 }, { bytes := Config.norImage 1 }], norRing := [],
    inForce := recordBytes defaultRecord, record := defaultRecord, channels := List.replicate 3 MailChannel.reset,
    session := none, async := [], asyncDone := false, asyncResult := 0, coldPending := false, daybook := [],
    nextSeq := 0, debugSeen := false, extends7 := [], codeKey := 0, partKey := 0, spdm := List.replicate 3 Spdm.reset,
    hosts := List.replicate 2 HostPort.reset, windows := [], apcWin := [], apcError := 0, coresOn := false, coreCache := [],
    coreMisses := [], coreIrq := [], coreLast := none, jtagLast := 0, uart := [] }

end Sys2Proof.Machine
end

