-- ==== Sys2Proof/Machine/State.lean ====
section
/-!
DEFINITION. The whole state of the part, why a step can stop, and the state at reset.
-/

namespace Sys2Proof.Machine

open Sys2Proof

/-- Why the machine stops. -/
inductive Fault
  /-- raised by VIN_OVERVOLTAGE, when VIN48 passes the 80 V that R556 allows a transient and the part may be damaged: safe, since the
  spec gives a damaged part no behaviour -/
  | damaged
  deriving DecidableEq, Repr

/-- Why a command is refused. -/
inductive Refusal
  /-- a command that has no meaning yet; raised by its arm of exec alone: safe -/
  | notModelled (mnemonic : String)
  deriving DecidableEq, Repr

/-- The part. Each field is one block's state; `inbox` holds messages that the part has addressed to itself (true: an answer
already matched to its request) and has not yet acted on, and `freeCtr` numbers the free values drawn so far. -/
structure Part where
  links   : Links
  sw      : Switch
  pool    : Pool
  regions : Regions
  cat     : Catalogue
  dram    : Dram
  gals    : Galleries
  flr     : Recovery
  cur     : Curator
  mgmt    : Management
  views   : List View
  tel     : Telemetry
  power   : Power
  clv     : Collectives
  gfu     : GatherFilter
  str     : Streaming
  cmp     : Compression
  chu     : ChannelUnits
  flt     : Flash
  inbox   : List (Bool × Msg)
  freeCtr : Nat
  deriving DecidableEq, Repr

/-- The whole machine: the part, and the commands that wait, first in, first out. -/
structure State where
  part    : Part
  pending : List Instr
  deriving DecidableEq, Repr

/-- The part before power comes (R545): every block at the numbers of its Reset columns, every Record field as Merforoth's default
record has it (R565), and no memory listed. -/
def Part.reset : Part :=
  { links := coldLinks defaultRecord, sw := coldSwitch defaultRecord, pool := coldPool defaultRecord, regions := coldRegions,
    cat := coldCatalogue defaultRecord, dram := coldDram { cells := [], attrs := [], fills := [] },
    gals := coldGalleries defaultRecord, flr := coldRecovery, cur := coldCurator, mgmt := coldManagement, views := coldViews,
    tel := coldTelemetry, power := coldPower defaultRecord, clv := coldCollectives defaultRecord, gfu := coldGather,
    str := coldStreaming, cmp := coldCompression, chu := coldChannelUnits,
    flt := coldFlash defaultRecord (List.replicate 8 Drive.blank), inbox := [], freeCtr := 0 }

/-- The machine before power comes: no command waits. -/
def State.reset : State := { part := Part.reset, pending := [] }

end Sys2Proof.Machine
end

