-- ==== Sys2Proof/Machine/Update.lean ====
section
/-!
DEFINITION. The updates of the state, one for each block: every other file changes the state through them.
-/

namespace Sys2Proof.Machine

/-- Change the Links block. -/
def onLinks (f : Links → Links) (s : Part) : Part := { s with links := f s.links }

/-- Change the Switch block. -/
def onSwitch (f : Switch → Switch) (s : Part) : Part := { s with sw := f s.sw }

/-- Change the Pool block. -/
def onPool (f : Pool → Pool) (s : Part) : Part := { s with pool := f s.pool }

/-- Change the Regions block. -/
def onRegions (f : Regions → Regions) (s : Part) : Part := { s with regions := f s.regions }

/-- Change the Catalogue block. -/
def onCatalogue (f : Catalogue → Catalogue) (s : Part) : Part := { s with cat := f s.cat }

/-- Change the Dram block. -/
def onDram (f : Dram → Dram) (s : Part) : Part := { s with dram := f s.dram }

/-- Change the Galleries block. -/
def onGalleries (f : Galleries → Galleries) (s : Part) : Part := { s with gals := f s.gals }

/-- Change the Recovery block. -/
def onRecovery (f : Recovery → Recovery) (s : Part) : Part := { s with flr := f s.flr }

/-- Change the Curator block. -/
def onCurator (f : Curator → Curator) (s : Part) : Part := { s with cur := f s.cur }

/-- Change the Management block. -/
def onManagement (f : Management → Management) (s : Part) : Part := { s with mgmt := f s.mgmt }

/-- Change the Telemetry block. -/
def onTelemetry (f : Telemetry → Telemetry) (s : Part) : Part := { s with tel := f s.tel }

/-- Change the Power block. -/
def onPower (f : Power → Power) (s : Part) : Part := { s with power := f s.power }

/-- Change the Collectives block. -/
def onCollectives (f : Collectives → Collectives) (s : Part) : Part := { s with clv := f s.clv }

/-- Change the GatherFilter block. -/
def onGatherFilter (f : GatherFilter → GatherFilter) (s : Part) : Part := { s with gfu := f s.gfu }

/-- Change the Streaming block. -/
def onStreaming (f : Streaming → Streaming) (s : Part) : Part := { s with str := f s.str }

/-- Change the Compression block. -/
def onCompression (f : Compression → Compression) (s : Part) : Part := { s with cmp := f s.cmp }

/-- Change the ChannelUnits block. -/
def onChannelUnits (f : ChannelUnits → ChannelUnits) (s : Part) : Part := { s with chu := f s.chu }

/-- Change the Flash block. -/
def onFlash (f : Flash → Flash) (s : Part) : Part := { s with flt := f s.flt }

/-- Put a message that the part has addressed to itself where it will be acted on. -/
def pushInbox (m : Msg) (s : Part) : Part := { s with inbox := s.inbox ++ [(false, m)] }

/-- Put an answer that has been matched to its request where its agent will take it. -/
def pushMatched (m : Msg) (s : Part) : Part := { s with inbox := s.inbox ++ [(true, m)] }

/-- Change one register view (R526). A view number above 3 names none. -/
def onView (v : Nat) (f : View → View) (s : Part) : Part :=
  match s.views[v]? with
  | some w => { s with views := lset s.views v (f w) }
  | none => s

/-- The next free value: its number, and the state in which it is taken. -/
def drawFree (s : Part) : Nat × Part := (s.freeCtr, { s with freeCtr := s.freeCtr + 1 })

end Sys2Proof.Machine
end

