-- ==== Sys2Proof/Machine/Ops.lean ====
section
/-!
DEFINITION. The operations that every block uses: counters (R505 to R510), the daybook (R496, R497), event queues,
interrupts (R500), register views (R525 to R528), command sequences (R527) and block availability (R533).
-/

namespace Sys2Proof.Machine

/-- Completion codes (R63). -/
def stOK : Nat := 0
def stPoison : Nat := 1
def stTimeout : Nat := 2
def stNotOwner : Nat := 3
def stRevoked : Nat := 4
def stRecalled : Nat := 5
def stLost : Nat := 6
def stGalleryFault : Nat := 7
def stUnsupported : Nat := 8
def stRetryLater : Nat := 9

/-- Agent numbers (R57 and the engine chapters). -/
def agCores : Nat := 0x102
def agCurator : Nat := 0x103
def agPart : Nat := 0x1FF

/-- This part's number (R13). -/
def myPart (s : Part) : Nat := s.pool.partNumber

/-- Is the part in the tray role (R1, R4)? -/
def isTray (s : Part) : Bool := s.mgmt.record.role = 1

/-- Does the part answer to part number `n`: its own, or the failed part's while it stands in (R430)? -/
def answersTo (n : Nat) (s : Part) : Bool :=
  n = myPart s || ((s.flr.standIn = .shadow || s.flr.standIn = .compare) && n = s.flr.forPart)

/-! ### Counters -/

/-- The identifier of a counter (R509). -/
def ctrId (block inst index : Nat) : Nat := block * 2 ^ 23 + inst * 2 ^ 8 + index

/-- The class that the model gives an INDEX: 0–63 WRAP64, 64–127 SAT32, 128–255 histogram bins (R505, R510). -/
def ctrIsWrap (id : Nat) : Bool := id % 256 < 64
def ctrIsSat (id : Nat) : Bool := 64 ≤ id % 256 && id % 256 < 128

/-- Where the OVF bit of a histogram stands: its bin 0 (R505: the bit is the histogram's). -/
def histBase (id : Nat) : Nat := id - (id % 256 - 128) % 32

/-- The counter after `n` more (R505): WRAP64 wraps, SAT32 sticks and sets OVF, a bin sticks at 0xFFFF. -/
def bumpCounter (id n : Nat) (c : Counter) : Counter :=
  if ctrIsWrap id then { c with value := (c.value + n) % 2 ^ 64 }
  else if ctrIsSat id then
    if c.value + n < 0xFFFFFFFF then { c with value := c.value + n } else { value := 0xFFFFFFFF, ovf := true }
  else if c.value + n < 0xFFFF then { c with value := c.value + n } else { value := 0xFFFF, ovf := true }

/-- A counter that has counted nothing. -/
def Counter.zero : Counter := { value := 0, ovf := false }

/-! ### The daybook -/

/-- Does the entry repeat `e` within 1 ms (R496)? -/
def sameEntry (block : Nat) (code : Note) (detail : List Nat) (now : Nat) (e : DaybookEntry) : Bool :=
  e.block = block && e.code = code && e.detail = detail && now ≤ e.time + 1000

/-- Raise COUNT of the first entry that the test picks, counted from the newest. -/
def foldEntry (test : DaybookEntry → Bool) : List DaybookEntry → List DaybookEntry
  | [] => []
  | e :: es => if test e then { e with count := min 0xFFFF (e.count + 1) } :: es else e :: foldEntry test es

/-- A boot reaches a phase, which the UART prints (R501, R502). -/
def printPhase (n : Nat) (s : Part) : Part := onManagement (fun m => { m with uart := .phase n :: m.uart }) s
def reachPhase (n : Nat) (s : Part) : Part := printPhase n (onCurator (fun c => { c with phase := n }) s)

/-! ### Register values -/

/-- Latch the head of a queue for a view (R528). -/
def latchHead (view q : Nat) (e : Event) (s : Part) : Part :=
  onView view (fun w => { w with latched := tset w.latched q e }) s

/-- A read by a view returned this value. -/
def returnRead (view value : Nat) (s : Part) : Part := onView view (fun w => { w with lastRead := value }) s

/-- The queue without its first entry equal to `e`. -/
def dropEntry (e : Event) (q : EventQueue) : EventQueue := { q with entries := q.entries.erase e }

/-- Pop a queue for a view (R528): a latched entry if it is still queued, else nothing; without a latched entry, the
head. The answer is the popped event and the queue left. -/
def popQueue (latched : Option Event) (q : EventQueue) : Option Event × EventQueue :=
  match latched with
  | some e => if e ∈ q.entries then (some e, dropEntry e q) else (none, q)
  | none =>
    match q.entries with
    | [] => (none, q)
    | e :: _ => (some e, dropEntry e q)

/-- The event register's value: VALID in bit 0, the popped fields, and OVERFLOW at its place. -/
def eventWord (ovfBit : Nat) (e : Option Event) (overflow : Bool) : Nat :=
  (match e with | some e => 1 + e.word | none => 0) + bitOf overflow * 2 ^ ovfBit

/-! ### Event queues -/

/-- The block of a queue (R522) and the number of entries it holds. -/
def queueBlock : QueueName → Nat
  | .region => 5 | .cat => 6 | .clv => 7 | .str => 9 | .cmp => 10 | .chu => 12 | .flt => 13 | .gal => 14 | .pwr => 15
  | .tel => 16 | .flr => 17

/-- Raise an interrupt identity to the cores (R500). -/
def raiseCore (ident : Nat) (s : Part) : Part :=
  onManagement (fun m => if ident ∈ m.coreIrq then m else { m with coreIrq := m.coreIrq ++ [ident] }) s

/-- Raise an MSI-X vector of both host ports' function 0 (R488). -/
def raiseHosts (vec : Nat) (s : Part) : Part :=
  onManagement (fun m => { m with hosts := m.hosts.map fun h => { h with vectors := h.vectors ++ [vec] } }) s

/-- The queue after one more event: an event that finds it full is discarded and sets OVERFLOW. -/
def queuePush (cap word info : Nat) (q : EventQueue) : EventQueue :=
  if q.entries.length < cap then
    { q with entries := q.entries ++ [{ word := word, info := info, num := q.next }], next := q.next + 1 }
  else { q with overflow := true }

/-- The queue of that name. -/
def getQueue (q : QueueName) (s : Part) : EventQueue :=
  match q with
  | .region => s.regions.events | .cat => s.cat.events | .gal => s.gals.events | .flr => s.flr.events
  | .tel => s.tel.events | .pwr => s.power.events | .clv => s.clv.events | .str => s.str.events
  | .cmp => s.cmp.events | .chu => s.chu.events | .flt => s.flt.events

/-- Replace the queue of that name. -/
def setQueue (q : QueueName) (e : EventQueue) (s : Part) : Part :=
  match q with
  | .region => onRegions (fun b => { b with events := e }) s
  | .cat => onCatalogue (fun b => { b with events := e }) s
  | .gal => onGalleries (fun b => { b with events := e }) s
  | .flr => onRecovery (fun b => { b with events := e }) s
  | .tel => onTelemetry (fun b => { b with events := e }) s
  | .pwr => onPower (fun b => { b with events := e }) s
  | .clv => onCollectives (fun b => { b with events := e }) s
  | .str => onStreaming (fun b => { b with events := e }) s
  | .cmp => onCompression (fun b => { b with events := e }) s
  | .chu => onChannelUnits (fun b => { b with events := e }) s
  | .flt => onFlash (fun b => { b with events := e }) s

/-- Entries that a queue holds (R109, R143, R180, R241, R272, R294, R348, R412, R447, R468, R521). -/
def queueCap : QueueName → Nat
  | .gal | .pwr | .cmp => 256
  | _ => 1024

/-- The place of OVERFLOW in a queue's event register. -/
def queueOvfBit : QueueName → Nat
  | .region => 8 | .cat => 21 | .gal => 6 | .flr => 5 | .tel => 3 | .pwr => 11 | .clv => 24 | .str => 21
  | .cmp => 14 | .chu => 12 | .flt => 17

/-- Write a daybook entry (R496, R497), and tell whether it repeats one, whose COUNT it raises in its place; the newest entry stands
first, and the UART prints one of severity ERROR or FATAL (R501). In Vitrine mode the detail of an entry that concerns one gallery is zero
(R497). -/
def writeEntry (block sev : Nat) (gal : Option Nat) (code : Note) (detail : List Nat) (s : Part) : Bool × Part :=
  let detail := if s.gals.vitrine && gal.isSome then [] else detail
  let test := sameEntry block code detail s.cur.timer
  if s.mgmt.daybook.any test then
    (true, onManagement (fun m => { m with daybook := foldEntry test m.daybook }) s)
  else
    (false, onManagement (fun m =>
      let e : DaybookEntry :=
        { time := s.cur.timer, seq := m.nextSeq, boot := s.cur.coldBoots, block := block, severity := sev, gallery := gal,
          code := code, count := 0, detail := detail }
      { m with
        daybook := (e :: m.daybook).take 8192, nextSeq := m.nextSeq + 1
        uart := if 2 ≤ sev then .entry e :: m.uart else m.uart }) s)

/-- The counter of folded daybook entries (R496, R510). -/
def idFolded : Nat := ctrId 1 0 64

/-- An event enters its queue and signals the cores (R500); one that finds the queue full sets OVERFLOW and is recorded, as `rec` records
it. During a fast reset it waits: RESET_DONE is the first that the part queues (R563). -/
def enqueueEvent (rec : Nat → List Nat → Part → Part) (q : QueueName) (word info : Nat) (s : Part) : Part :=
  if s.cur.fastPending then onTelemetry (fun b => { b with later := b.later ++ [(q, word, info)] }) s
  else
    let old := getQueue q s
    let s := raiseCore (queueBlock q + 1) (setQueue q (queuePush (queueCap q) word info old) s)
    if old.entries.length < queueCap q then s else rec (queueBlock q) [word, info] s

/-- Count a folded daybook entry; at its limit the counter queues SATURATED, once (R505, R508). -/
def countFolded (s : Part) : Part :=
  let old := tget s.tel.live idFolded Counter.zero
  let new := bumpCounter idFolded 1 old
  let s := onTelemetry (fun b => { b with live := tset b.live idFolded new }) s
  if new.ovf && !old.ovf then
    enqueueEvent (fun block detail s => (writeEntry block 1 none .eventDiscarded detail s).2) .tel (1 * 2) idFolded s
  else s

/-- Write a daybook entry; a repeat within 1 ms is counted (R496). -/
def note (block sev : Nat) (gal : Option Nat) (code : Note) (detail : List Nat) (s : Part) : Part :=
  let r := writeEntry block sev gal code detail s
  if r.1 then countFolded r.2 else r.2

/-- Queue an event. -/
def pushEvent (q : QueueName) (word info : Nat) (s : Part) : Part :=
  enqueueEvent (fun block detail => note block 1 none .eventDiscarded detail) q word info s

/-- Count `n` on a counter (R505); reaching its limit queues SATURATED or HIST_SATURATED once (R508). -/
def count (block inst index n : Nat) (s : Part) : Part :=
  let id := ctrId block inst index
  let old := tget s.tel.live id Counter.zero
  let new := bumpCounter id n old
  let base := histBase id
  let ovf := if ctrIsWrap id || ctrIsSat id then old.ovf else (tget s.tel.live base Counter.zero).ovf
  let s := onTelemetry (fun b => { b with live := tset b.live id new }) s
  if new.ovf && !ovf then
    if ctrIsSat id then pushEvent .tel (1 * 2) id s
    else pushEvent .tel (2 * 2) base (onTelemetry (fun b =>
      { b with live := tmod b.live base Counter.zero fun c => { c with ovf := true } }) s)
  else s

/-- The bin of a histogram sample (R507). -/
def histBin (v : Nat) : Nat := if v < 2 then 0 else min 31 (Nat.log2 v)

/-- Add a sample to a histogram of a unit (R505, R507, R509). -/
def sample (block inst hist v : Nat) (s : Part) : Part := count block inst (128 + 32 * hist + histBin v) 1 s

/-- Add a sample of a time that the model does not measure: a free value (log entry 88). -/
def sampleTime (block inst hist : Nat) (s : Part) : Part :=
  let (n, s) := drawFree s
  sample block inst hist (Config.freeWord n).toNat s

/-- A read of an event register by a view (R528): the popped word goes to the view, the entry leaves the queue. -/
def popEvent (q : QueueName) (view : Nat) (s : Part) : Part :=
  let lat := (s.views[view]?).bind fun w => tget? w.latched (queueBlock q)
  let (e, q') := popQueue lat (getQueue q s)
  let s := setQueue q q' s
  let s := onView view (fun w => { w with latched := tdel w.latched (queueBlock q) }) s
  returnRead view (eventWord (queueOvfBit q) e q'.overflow) s

/-! ### Availability -/

/-- The boot step from which a block takes commands (R533). -/
def blockStep (block : Nat) : Nat :=
  if block ∈ [0, 1, 16] then 6 else if block ∈ [5, 6, 11, 12, 13, 18] then 9 else 11

/-- Does the block take commands (R533)? PHASE 12 is RUNNING, 13 HALTED and 14 RECOVERY. -/
def blockReady (block : Nat) (s : Part) : Bool :=
  s.cur.power = .coreOn && !s.cur.fastPending &&
  (if s.cur.phase = 13 || s.cur.phase = 14 then block ∈ [0, 1, 16] else decide (blockStep block ≤ s.cur.phase))

/-- Is the part in service on the fabric? -/
def running (s : Part) : Bool := s.cur.power = .coreOn && s.cur.phase = 12 && !s.cur.fastPending

/-! ### Command sequences -/

/-- Replace one element of a per-view list. -/
def vset {α : Type} (xs : List α) (v : Nat) (x : α) : List α := lset xs v x

/-- The sequence after an accepted write (R527): the view is BUSY and the command waits its turn. -/
def seqAccept (view cmd : Nat) (q : CmdSeq) : CmdSeq :=
  { q with busy := vset q.busy view true, waiting := q.waiting ++ [(view, cmd)] }

/-- The sequence after a command has ended for a view: BUSY clears and the view reports its outcome. -/
def seqEnd (view result value : Nat) (q : CmdSeq) : CmdSeq :=
  { q with busy := vset q.busy view false, result := vset q.result view result, value := vset q.value view value,
           running := if q.running = some view then none else q.running }

/-- The sequence goes on to other commands while a view's command runs on with its BUSY set (R321, R322). -/
def seqLeave (q : CmdSeq) : CmdSeq := { q with running := none }

/-- The outcome fields of a view while its command goes on. -/
def seqReport (view result value : Nat) (q : CmdSeq) : CmdSeq :=
  { q with result := vset q.result view result, value := vset q.value view value }

/-- The queue of waiting commands without its head, which runs. -/
def seqTake (q : CmdSeq) : Option ((Nat × Nat) × CmdSeq) :=
  match q.running, q.waiting with
  | none, (v, c) :: rest => some ((v, c), { q with waiting := rest, running := some v })
  | _, _ => none

/-- Perform waiting commands one at a time until one goes on past its write or none is left (R527). -/
def runSeq (get : Part → CmdSeq) (set : CmdSeq → Part → Part) (perform : Nat → Nat → Part → Part) :
    Nat → Part → Part
  | 0, s => s
  | n + 1, s =>
    match seqTake (get s) with
    | none => s
    | some ((v, c), q) => runSeq get set perform n (perform v c (set q s))

/-- Count a command of POL or CAT (R510). -/
def countCommand (block : Nat) (s : Part) : Part := if block = 5 || block = 6 then count block 0 0 1 s else s

/-- A write of a command register (R527, R533): ignored and recorded while BUSY reads 1, else accepted, and performed at once
where the sequence stands idle. -/
def writeSeq (block : Nat) (get : Part → CmdSeq) (set : CmdSeq → Part → Part)
    (perform : Nat → Nat → Part → Part) (view cmd : Nat) (s : Part) : Part :=
  if 4 ≤ view then s
  else if !blockReady block s || (get s).busy.getD view false then note block 1 none .commandWhileBusy [view, cmd] s
  else
    let s := countCommand block s
    let q := seqAccept view cmd (get s)
    match seqTake q with
    | some ((v, c), q) => perform v c (set q s)
    | none => set q s

end Sys2Proof.Machine
end

