-- ==== Sys2Proof/Machine/Energy.lean ====
section
/-!
DEFINITION. The energy of turns (R448, R453, R454): what a unit of work takes, the class it belongs to, what a class holds and spends. Energies
are internal pJ. R448 gives the activity of each consumer at full rate; the energy of a unit of work is that activity over its full rate: DESIGN
CHOICE where no rule states the quotient (log entry 39).
-/

namespace Sys2Proof.Machine

open Sys2Proof

/-! ### What work takes -/

/-- Internal watts over one tick of 10 µs. -/
def tickPj (watts : Nat) : Nat := watts * 10 ^ 7

/-- One line of DRAM: 60 W at 2,211.8 GB/s (R208, R448). -/
def lineCost : Nat := 3472

/-- One cell through the crossbar: 112 W at 12.8 TB/s of 256-byte cells (R352, R448). -/
def cellCost : Nat := 2240

/-- A contribution of that many elements: 38 W at 8.192 × 10¹² elements per second (R176, R448). -/
def contribCost (elements : Nat) : Nat := 38000 * elements / 8192

/-- A tile on a mending engine: 86 W over 16 engines at 4.0 GHz, for each cycle of the array (R265, R448). -/
def mendCost (rows cols rank : Nat) : Nat := 1344 * (ceilDiv rows 64 * ceilDiv cols 64 * rank)

/-- The 27 W of the 112 gather, filter, unfold and fold units in equal shares (R448): elements pooled, bytes filtered, values unfolded and raw
bytes folded at the rates of R208 and R255. -/
def gatherCost (elements : Nat) : Nat := 1883 * elements / 1000
def filterCost (bytes : Nat) : Nat := 942 * bytes / 1000
def unfoldCost (values : Nat) : Nat := 753 * values / 100
def foldCost (bytes : Nat) : Nat := 753 * bytes / 100

/-- One tick of the activity of a reduce engine or a mending engine: a self-test, and a spot check, on it. -/
def testCost (engine : Nat) : Nat := if engine < 64 then tickPj 38 / 64 else tickPj 86 / 16

/-- A step of retraining: the controllers' 60 W, a channel's share of them, for a tick. -/
def retrainCost : Nat := tickPj 60 / 24

/-- A page re-encrypted: each of its 512 lines is read and written (R399). -/
def pageCost : Nat := 1024 * lineCost

/-- Full-rate activity of a class in internal watts: that of its consumer, and of the memory controllers where its work reaches memory. -/
def classActivity (c : Nat) : Nat := [172, 98, 146, 87, 60, 87, 0, 0, 60, 60, 60, 60, 87, 60, 184, 60].getD c 0

/-! ### What a class holds -/

/-- The energy state of a class. -/
def pwrClass (c : Nat) (s : Part) : PwrClass := (s.power.classes[c]?).getD (PwrClass.start 0)

/-- Does a class hold the energy of a turn (R454), with what the running tick has left over? -/
def canSpend (c e : Nat) (s : Part) : Bool :=
  match (pwrClass c s).held with
  | none => true
  | some h => e ≤ h + s.power.spare

/-- A class after a turn that takes energy: of what it holds first; what comes from elsewhere is granted to it now. -/
def PwrClass.spend (e : Nat) (x : PwrClass) : PwrClass :=
  match x.held with
  | none => { x with used := x.used + e }
  | some h => { x with held := some (h - e), used := x.used + e, granted := x.granted + (e - h) }

/-- A turn of a class takes its energy. -/
def spend (c e : Nat) (s : Part) : Part :=
  let short := match (pwrClass c s).held with
    | none => 0
    | some h => e - h
  onPower (fun p =>
    { p with
      classes := p.classes.mapIdx fun i x => if i = c then x.spend e else x
      spare := p.spare - short
      lastClass := c }) s

/-- May expedited traffic take an energy (R454)? At throttle level 0 it is never paced. -/
def canExpedite (e : Nat) (s : Part) : Bool :=
  match s.power.expHeld with
  | none => true
  | some h => e ≤ h

/-- Expedited traffic takes its energy; the next tick charges it first. -/
def expedite (e : Nat) (s : Part) : Part :=
  onPower (fun p => { p with expUsed := p.expUsed + e, expHeld := p.expHeld.map fun h => h - e }) s

/-- May a message of a class, or an expedited one, take an energy; and it takes it. -/
def mayTake (c : Nat) (exp : Bool) (e : Nat) (s : Part) : Bool := if exp then canExpedite e s else canSpend c e s
def takes (c : Nat) (exp : Bool) (e : Nat) (s : Part) : Part := if exp then expedite e s else spend c e s

/-- What a class can give now to a piece of work that still needs an amount. -/
def givable (c need : Nat) (s : Part) : Nat :=
  match (pwrClass c s).held with
  | none => need
  | some h => min need (h + s.power.spare)

/-- The class of a fold or unfold job (R453). -/
def jobClass (d : List Nat) : Nat := if bitAt (d.getD 0 0) 21 then 12 else 5

/-- The class of a memory request at its home (R453): of this part's own services the class of their work, a job's by the tag of its request;
of everything else FABRIC. -/
def classOf (m : Msg) (s : Part) : Nat :=
  if m.srcPart.toNat ≠ s.pool.partNumber then 0
  else
    match m.srcPort.toNat with
    | 0x110 => 1
    | 0x111 | 0x112 => 3
    | 0x113 => 2
    | 0x114 =>
      let tag := m.tag.toNat
      let mine (x : FoldJob) : Bool :=
        (x.reads.any fun f => f.tag = tag) || (x.reader.any fun r => r.reads.any fun f => f.tag = tag) ||
        x.writes.any fun w => w % 65536 = tag
      match s.cmp.jobs.find? fun p => mine p.2 with
      | some p => jobClass p.2.desc
      | none => 5
    | 0x115 => 4
    | _ => 0

end Sys2Proof.Machine
end

