-- ==== Sys2Proof/Machine/Aes.lean ====
section
/-!
DEFINITION. AES-256 of FIPS 197, AES-256-XTS of IEEE 1619 for a line (R392), and AES Key Wrap of RFC 3394 undone (R396, R397). A state is 16
bytes as numbers, column by column.
-/

namespace Sys2Proof.Machine

/-- The S-box and its inverse: 32 entries a row, the least significant byte first. -/
def sboxRows : List Nat :=
  [0xc072a49cafa2d4adf04759fa7dc982ca76abd7fe2b670130c56f6bf27b777c63,
   0x75b227ebe28012079a059618c323c7041531d871f1e5a534ccf73f362693fdb7,
   0xcf584c4a39becb6a5bb1fc20ed00d153842fe329b3d63b52a05a6e1b1a2c8309,
   0xd2f3ff1021dab6bcf5389d928f40a351a89f3c507f02f94585334d43fbaaefd0,
   0xdb0b5ede14b8ee4688902a22dc4f816073195d643d7ea7c41744975fec130ccd,
   0x08ae7a65eaf4566ca94ed58d6d37c8e779e4959162acd3c25c2406490a3a32e0,
   0x9e1dc186b95735610ef6034866b53e708a8bbd4b1f74dde8c6b4a61c2e2578ba,
   0x16bb54b00f2d99416842e6bf0d89a18cdf2855cee9871e9b948ed9691198f8e1]

/-- The inverse S-box. -/
def invSboxRows : List Nat :=
  [0xcbe9dec444438e3487ff2f9b8239e37cfbd7f3819ea340bf38a53630d56a0952,
   0x25d18b6d49a25b76b224d92866a12e084ec3fa420b954cee3d23c2a632947b54,
   0x849d8da75746155edab9edfd5048706c92b6655dcc5ca4d41698688664f6f872,
   0x6b8a130103bdafc1020f3fca8f1e2cd00645b3b80558e4f70ad3bc8c00abd890,
   0x6edf751ce837f9e28535ade72274ac9673e6b4f0cecff297eadc674f4111913a,
   0xf45acd78fec0db9a2079d2c64b3e56fc1bbe18aa0e62b76f89c5291d711af147,
   0xef9cc9939f7ae52d0d4ab519a97f51605fec8027591012b131c7078833a8dd1f,
   0x7d0c2155631469e126d677ba7e042b17619953833cbbebc8b0f52aae4d3be0a0]

/-- The entry of a byte in one of them. -/
def boxAt (rows : List Nat) (x : Nat) : Nat := (rows.getD (x / 32) 0 >>> (8 * (x % 32))) % 256

/-- Multiplication by x in the field of 256 elements. -/
def xtime (a : Nat) : Nat := if a < 128 then 2 * a else (2 * a) % 256 ^^^ 0x1B

/-- Multiplication of a byte by a factor below 16. -/
def gfMul (k a : Nat) : Nat :=
  let a2 := xtime a
  let a4 := xtime a2
  (if bitAt k 0 then a else 0) ^^^ (if bitAt k 1 then a2 else 0) ^^^ (if bitAt k 2 then a4 else 0) ^^^
  (if bitAt k 3 then xtime a4 else 0)

/-- Two states added. -/
def xorBytes (a b : List Nat) : List Nat := List.zipWith (· ^^^ ·) a b

/-- Row r of a state rotated left by r places, or back. -/
def shiftRows (a : List Nat) : List Nat := (List.range 16).map fun i => a.getD ((i + 4 * (i % 4)) % 16) 0
def invShiftRows (a : List Nat) : List Nat := (List.range 16).map fun i => a.getD ((i + 12 * (i % 4)) % 16) 0

/-- Each column multiplied by a fixed polynomial, given by the factors of its first row. -/
def mixWith (ks : List Nat) (a : List Nat) : List Nat :=
  (List.range 16).map fun i =>
    let at_ := fun j => gfMul (ks.getD j 0) (a.getD (i / 4 * 4 + (i + j) % 4) 0)
    at_ 0 ^^^ at_ 1 ^^^ at_ 2 ^^^ at_ 3

/-- The words of the key schedule that follow: the last eight words, newest last, the round, and how many words are still to come. -/
def keyWords : Nat → Nat → List (List Nat) → List (List Nat)
  | 0, _, _ => []
  | n + 1, i, ws =>
    let prev := ws.getD 7 []
    let t :=
      if i % 8 = 0 then
        let rot := (prev.drop 1 ++ prev.take 1).map (boxAt sboxRows)
        rot.mapIdx fun j v => if j = 0 then v ^^^ 2 ^ (i / 8 - 1) else v
      else if i % 8 = 4 then prev.map (boxAt sboxRows)
      else prev
    let w := xorBytes (ws.getD 0 []) t
    w :: keyWords n (i + 1) (ws.drop 1 ++ [w])

/-- The 15 round keys of a 32-byte key. -/
def roundKeys (key : List Byte) : List (List Nat) :=
  let bs := key.map (·.toNat)
  let first := (List.range 8).map fun i => (bs.drop (4 * i)).take 4
  let all := (first ++ keyWords 52 8 first).flatten
  (List.range 15).map fun i => (all.drop (16 * i)).take 16

/-- The rounds that follow the first key addition: every round but the last mixes its columns. -/
def cipherRounds : List (List Nat) → List Nat → List Nat
  | [], a => a
  | [k], a => xorBytes (shiftRows (a.map (boxAt sboxRows))) k
  | k :: ks, a => cipherRounds ks (xorBytes (mixWith [2, 3, 1, 1] (shiftRows (a.map (boxAt sboxRows)))) k)

/-- AES-256 of one block. -/
def aesBlock (keys : List (List Nat)) (a : List Nat) : List Nat := cipherRounds (keys.drop 1) (xorBytes a (keys.getD 0 []))

/-- The rounds of the inverse, the round keys last first. -/
def invRounds : List (List Nat) → List Nat → List Nat
  | [], a => a
  | [k], a => xorBytes ((invShiftRows a).map (boxAt invSboxRows)) k
  | k :: ks, a => invRounds ks (mixWith [14, 11, 13, 9] (xorBytes ((invShiftRows a).map (boxAt invSboxRows)) k))

/-- The inverse of AES-256 of one block. -/
def aesInvBlock (keys : List (List Nat)) (a : List Nat) : List Nat :=
  let ks := keys.reverse
  invRounds (ks.drop 1) (xorBytes a (ks.getD 0 []))

/-! ### XTS (R392) -/

/-- The tweak of the block after this one. -/
def nextTweak (t : Nat) : Nat := if t < 2 ^ 127 then 2 * t else (2 * t) % 2 ^ 128 ^^^ 0x87

/-- The blocks of a line under their tweaks, each through a block function. -/
def xtsBlocks (f : List Nat → List Nat) : Nat → Nat → List Byte → List Byte
  | 0, _, _ => []
  | n + 1, t, bs =>
    let tw := (leBytes 16 t).map (·.toNat)
    (xorBytes (f (xorBytes ((sliceBytes bs 0 16).map (·.toNat)) tw)) tw).map (BitVec.ofNat 8 ·) ++
    xtsBlocks f n (nextTweak t) (bs.drop 16)

/-- The tweak of the first block: unit number in bits [63:0] and identifier in bits [127:64], encrypted under the second half of the key. -/
def firstTweak (key unit id : Nat) : Nat :=
  let tw := (leBytes 16 (unit % 2 ^ 64 + id % 2 ^ 64 * 2 ^ 64)).map (·.toNat)
  ofLe ((aesBlock (roundKeys (leBytes 32 (key / 2 ^ 256))) tw).map (BitVec.ofNat 8 ·))

/-- AES-256-XTS of a line of 128 bytes (R392): 512-bit key, unit number, object or binding identifier. -/
@[irreducible] def xtsEncrypt (key unit id : Nat) (bs : List Byte) : List Byte :=
  xtsBlocks (aesBlock (roundKeys (leBytes 32 key))) 8 (firstTweak key unit id) bs

/-- Its inverse. -/
@[irreducible] def xtsDecrypt (key unit id : Nat) (bs : List Byte) : List Byte :=
  xtsBlocks (aesInvBlock (roundKeys (leBytes 32 key))) 8 (firstTweak key unit id) bs

/-! ### AES Key Wrap (RFC 3394) -/

/-- The steps of the unwrapping, from the highest step number down: the register A and the blocks. -/
def unwrapSteps (keys : List (List Nat)) (n : Nat) : Nat → List Nat × List (List Nat) → List Nat × List (List Nat)
  | 0, x => x
  | t + 1, (a, rs) =>
    let i := t % n
    let step := (leBytes 8 (t + 1)).reverse.map (·.toNat)
    let b := aesInvBlock keys (xorBytes a step ++ rs.getD i [])
    unwrapSteps keys n t (b.take 8, lset rs i (b.drop 8))

/-- A wrapped key undone: a 256-bit key-wrapping key and the wrapped bytes give the key, or none where the integrity check fails. -/
@[irreducible] def aesUnwrap (kek : Nat) (w : List Byte) : Option Nat :=
  let bs := w.map (·.toNat)
  let n := w.length / 8 - 1
  let (a, rs) := unwrapSteps (roundKeys (leBytes 32 kek)) n (6 * n)
    (bs.take 8, (List.range n).map fun i => (bs.drop (8 * i + 8)).take 8)
  if a = List.replicate 8 0xA6 then some (ofLe (rs.flatten.map (BitVec.ofNat 8 ·))) else none

end Sys2Proof.Machine
end

