-- ==== Sys2Proof/Machine/Memory.lean ====
section
/-!
DEFINITION. The pool DRAM as bytes: cells, fills, the error-correcting code by its outcomes (R299 to R306), the channel
hash (R20, R22), the flip mask (R317), and encryption at rest (R392 to R395).
-/

namespace Sys2Proof.Machine

open Sys2Proof

/-- Lines of a page and an extent, and pages of an extent (chapter 01). -/
def linesPerPage : Nat := 512
def linesPerExtent : Nat := 2097152
def pagesPerExtent : Nat := 4096

/-! ### Cells -/

/-- Has a fill written a line? -/
def fillCovers (f : FillRange) (line : Nat) : Bool :=
  f.first ≤ line && line < f.first + f.lines &&
  match f.pick with
  | none => true
  | some n => Config.freeAt n (line / linesPerPage)

/-- The fill that says what an unlisted byte of a line reads as: the newest that covers it (R308). -/
def fillOf (line : Nat) (fills : List FillRange) : Option FillRange := fills.find? fun f => fillCovers f line

/-- What an unlisted byte reads as: its fill's pattern, or zero where nothing has been filled. -/
def background (fills : List FillRange) (a : Nat) : Byte :=
  match fillOf (a / 128) fills with
  | some f => BitVec.ofNat 8 (f.pattern >>> (8 * (a % 8)))
  | none => 0

/-- The byte of a listed cell. -/
def cellAt : List Host.Cell → Nat → Option Byte
  | [], _ => none
  | (i, b) :: cs, a => if i = a then some b else cellAt cs a

/-- Read one byte. -/
def readByte (m : Memory) (a : Nat) : Byte := (cellAt m.cells a).getD (background m.fills a)

/-- Cells strictly rising in address. -/
def cellsRising : List Host.Cell → Bool
  | (i, _) :: (j, c) :: cs => decide (i < j) && cellsRising ((j, c) :: cs)
  | _ => true

/-- The canonical form: addresses strictly rising, and no cell equal to what an unlisted byte reads as. -/
def Memory.wf (m : Memory) : Bool :=
  cellsRising m.cells && m.cells.all fun c => c.2 ≠ background m.fills c.1

/-- The cells that a run of bytes from `a` on needs: those that differ from the background. -/
def runCells (fills : List FillRange) : Nat → List Byte → List Host.Cell
  | _, [] => []
  | a, b :: bs => if b = background fills a then runCells fills (a + 1) bs else (a, b) :: runCells fills (a + 1) bs

/-- Write a run of bytes, keeping the canonical form. -/
def writeBytes (a : Nat) (bs : List Byte) (m : Memory) : Memory :=
  { m with cells := m.cells.filter (fun c => decide (c.1 < a)) ++ runCells m.fills a bs ++
                    m.cells.filter (fun c => decide (a + bs.length ≤ c.1)) }

/-- Read `n` bytes. -/
def readBytes (m : Memory) (a n : Nat) : List Byte := (List.range n).map fun k => readByte m (a + k)

/-- What a line holds beside its bytes, if it has been written or filled since the last cold boot (R306). -/
def lineAttr (m : Memory) (line : Nat) : Option LineAttr :=
  match tget? m.attrs line with
  | some a => some a
  | none => (fillOf line m.fills).map fun f => { poison := f.poison, errs := [], cipher := none }

/-- Write a whole line of stored bytes with its attributes. -/
def putLine (line : Nat) (bs : List Byte) (attr : LineAttr) (m : Memory) : Memory :=
  let m := writeBytes (line * 128) (sliceBytes bs 0 128) m
  { m with attrs := tset m.attrs line attr }

/-- Fill a range of lines (R308): one background for the lines it covers, no cell and no attribute of their own left. -/
def fillLines (f : FillRange) (m : Memory) : Memory :=
  { cells := m.cells.filter fun c => !fillCovers f (c.1 / 128),
    attrs := m.attrs.filter fun p => !fillCovers f p.1,
    fills := f :: m.fills }

/-- A fill that had reached some pages reaches the rest of its range: what has been stored in those pages since stays. -/
def fillRest (f : FillRange) (m : Memory) : Memory :=
  let inside (line : Nat) : Bool := f.first ≤ line && line < f.first + f.lines
  { cells := m.cells.filter fun c => !inside (c.1 / 128) || fillCovers f (c.1 / 128),
    attrs := m.attrs.filter fun p => !inside p.1 || fillCovers f p.1,
    fills := { f with pick := none } :: m.fills.erase f }

/-! ### The code (R301 to R305) -/

/-- Number of ones among the low `k` bits. -/
def popCount : Nat → Nat → Nat
  | 0, _ => 0
  | k + 1, n => n % 2 + popCount k (n / 2)

/-- Is an 80-bit error mask confined to the four bits of one device (R299)? -/
def oneDevice (mask : Nat) : Bool :=
  (List.range 20).any fun k => mask % 2 ^ 80 = (field mask (4 * k + 3) (4 * k)) * 2 ^ (4 * k)

/-- Outcome of decoding a word (R302). -/
inductive Decoded | good | single | double | bad | unsure
  deriving DecidableEq, Repr

/-- Decode a word by its error mask (R302). -/
def decodeWord (mask : Nat) : Decoded :=
  match popCount 80 mask with
  | 0 => .good
  | 1 => .single
  | 2 => .double
  | 3 => .bad
  | _ => if oneDevice mask then .bad else .unsure

/-- Part of a line as decoded (R303). -/
inductive LineState | good | poisoned | uncorrectable
  deriving DecidableEq, Repr

/-- A decoded line: its state, its stored bytes as decoded with the encryption they stand under, the words corrected of one and
of two bits, and the number of free values drawn for words that R302 leaves open. -/
structure LineRead where
  state   : LineState
  bytes   : List Byte
  cipher  : Option Cipher
  singles : Nat
  doubles : Nat
  draws   : Nat
  deriving DecidableEq, Repr

/-- The stored bytes of a line, whatever key they were written under: ciphertext where the line is encrypted. -/
def rawBytes (bs : List Byte) (cipher : Option Cipher) : List Byte :=
  match cipher with
  | none => bs
  | some c => xtsEncrypt c.key c.unit c.id bs

/-- Stored bytes read under a key and tweak (R392): the plaintext where they are the ones it was written under. -/
def readUnder (want : Option Cipher) (bs : List Byte) (cipher : Option Cipher) : List Byte :=
  match want with
  | none => rawBytes bs cipher
  | some c =>
    if cipher = some c then bs else xtsDecrypt c.key c.unit c.id (rawBytes bs cipher)

/-- Change a stored word of a line (R301): of an encrypted line, a word of its ciphertext. -/
def patchStored (word : Nat) (value : BitVec 64) (bs : List Byte) (cipher : Option Cipher) : List Byte :=
  let raw := patchBytes (rawBytes bs cipher) (8 * word) (leBytes 8 value.toNat)
  match cipher with
  | none => raw
  | some c => xtsDecrypt c.key c.unit c.id raw

/-- One word of a line with four or more errors spread over devices (R302): detected, or taken as a correction of one
or two bits with open data and an open poison bit. -/
def unsureWord (n : Nat) (word : Nat) (r : LineRead) : LineRead :=
  let r := { r with draws := r.draws + 1 }
  if Config.freeBool (4 * n) then { r with state := .uncorrectable }
  else
    let r := { r with
      bytes := patchStored word (Config.freeWord n) r.bytes r.cipher
      state := if Config.freeBool (4 * n + 1) && r.state = LineState.good then LineState.poisoned else r.state }
    if Config.freeBool (4 * n + 2) then { r with singles := r.singles + 1 } else { r with doubles := r.doubles + 1 }

/-- Decode the words of a line that hold errors (R302, R303). -/
def decodeWords (n : Nat) : List (Nat × Nat) → LineRead → LineRead
  | [], r => r
  | (w, mask) :: es, r =>
    let r := match decodeWord mask with
      | .good => r
      | .single => { r with singles := r.singles + 1 }
      | .double => { r with doubles := r.doubles + 1 }
      | .bad => { r with state := .uncorrectable }
      | .unsure => if r.state = .uncorrectable then r else unsureWord (n + r.draws) w r
    decodeWords n es r

/-- A line of DRAM that has not been written since the last cold boot (R304, R306): each word decodes as it happens to under the
code key, and a line whose words all decode is good or poisoned. -/
def decodeLeftover (key line : Nat) : LineRead :=
  let words := (List.range 16).map fun w => (Config.leftover key line w).toNat
  let these (o : Nat) : Nat := (words.filter fun v => field v 66 65 = o).length
  { state :=
      if these 3 ≠ 0 then .uncorrectable else if words.any (fun v => bitAt v 64) then .poisoned else .good
    bytes := words.flatMap fun v => leBytes 8 (v % 2 ^ 64)
    cipher := none, singles := these 1, doubles := these 2, draws := 0 }

/-- Decode a line that has been written (R303); an LBA of flash that has not been written is lost. `n` numbers the free values. -/
def decodeLine (m : Memory) (line n : Nat) : LineRead :=
  let bytes := readBytes m (line * 128) 128
  match lineAttr m line with
  | none => { state := .uncorrectable, bytes := bytes, cipher := none, singles := 0, doubles := 0, draws := 0 }
  | some a =>
    decodeWords n a.errs
      { state := if a.poison then .poisoned else .good, bytes := bytes, cipher := a.cipher, singles := 0, doubles := 0,
        draws := 0 }

/-! ### Channels (R20, R22) -/

/-- Extents of the interleaved area: 24 × (P − L). -/
def interleavedExtents (s : Part) : Nat := 24 * (s.pool.perChannel - s.pool.localSlots)

/-- First reserved extent of R21 (the system region) and first of the working region. -/
def systemFirst (s : Part) : Nat := interleavedExtents s - 320
def workingFirst (s : Part) : Nat := interleavedExtents s - 256

/-- Is the extent reserved to the part (R21)? -/
def isReserved (e : Nat) (s : Part) : Bool := isTray s && systemFirst s ≤ e && e < interleavedExtents s

/-- Is the extent in the DRAM-home window and backed (R14, R20)? -/
def isDramHome (e : Nat) (s : Part) : Bool := isTray s && e < 24 * s.pool.perChannel

/-- Windows of R14. -/
def inLoanWindow (e : Nat) : Bool := 0x3000 ≤ e && e < 0x4000
def inFlashWindow (e : Nat) : Bool := 0x4000 ≤ e && e < 0x40000

/-- Exclusive or of the 3-bit digits of `q` (R22). -/
def fold3 : Nat → Nat → Nat
  | 0, _ => 0
  | k + 1, q => (q % 8) ^^^ fold3 k (q / 8)

/-- Channel and channel byte address of a local offset in the interleaved area (R22). -/
def interleaveHash (offset : Nat) : Nat × Nat :=
  let g := offset / 512
  let q := g / 24
  let j := g % 24
  (3 * ((j / 3) ^^^ fold3 13 q) + (j % 3 + q % 3) % 3, q * 512 + offset % 512)

/-- Channel and channel byte address of a DRAM-home offset (R20). -/
def channelOf (offset : Nat) (s : Part) : Nat × Nat :=
  let e := offset / 2 ^ 28
  let n := interleavedExtents s
  if e < n then interleaveHash offset
  else ((e - n) % 24, (s.pool.perChannel - s.pool.localSlots + (e - n) / 24) * 2 ^ 28 + offset % 2 ^ 28)

/-- Is the offset in DRAM, and its channel short of a subchannel (R299)? -/
def channelLost (offset : Nat) (s : Part) : Bool :=
  isDramHome (offset / 2 ^ 28) s && ((s.dram.channels[(channelOf offset s).1]?).map (·.lost)).getD false

/-! ### Line writes and reads at a physical line -/

/-- Change the pool memory. -/
def onMemory (f : Memory → Memory) (s : Part) : Part := onDram (fun d => { d with memory := f d.memory }) s

/-- The armed flip, if it is for the channel of this line (R317): the word and the 80-bit mask. -/
def armedFlip (line : Nat) (s : Part) : Option (Nat × Nat) :=
  let c := s.dram.flipCtrl.toNat
  if bitAt c 25 && (channelOf (line * 128) s).1 = field c 24 20 then
    some (field c 19 16, s.dram.flipData.toNat + (c % 2 ^ 16) * 2 ^ 64)
  else none

/-- Store a line, with the armed flip if it applies (R317): the flip clears ARM and MEM_FLIP_HIT names the line. -/
def storeLine (line : Nat) (bs : List Byte) (poison : Bool) (cipher : Option Cipher) (s : Part) : Part :=
  let (ch, addr) := channelOf (line * 128) s
  let s := count 11 ch 1 1 s
  match armedFlip line s with
  | none => onMemory (putLine line bs { poison := poison, errs := [], cipher := cipher }) s
  | some (w, mask) =>
    onDram (fun d =>
      { d with
        memory := putLine line bs { poison := poison, errs := if mask = 0 then [] else [(w, mask)], cipher := cipher } d.memory
        flipCtrl := d.flipCtrl &&& 0x1FFFFFF
        flipHit := BitVec.ofNat 64 (addr % 2 ^ 37 + ch * 2 ^ 37 + 2 ^ 63) }) s

/-- Write a corrected line back (R305, R314): the bytes as decoded, no flip. -/
def correctLine (line : Nat) (r : LineRead) (s : Part) : Part :=
  onMemory (putLine line r.bytes { poison := r.state = .poisoned, errs := [], cipher := r.cipher }) s

/-- The key and tweak of a line of the reserved extents (R392): the part key, the local offset ÷ 128, and zero. -/
def partCipher (line : Nat) (s : Part) : Option Cipher :=
  if isReserved (line / linesPerExtent) s then some { key := s.mgmt.partKey, unit := line, id := 0 } else none

/-- Decode a line of DRAM or flash as it stands. Of the reserved extents what the boot has filled is under the part key (R307, R392). -/
def decodeStored (line : Nat) (s : Part) : LineRead :=
  let r := decodeLine s.dram.memory line s.freeCtr
  if thas s.dram.memory.attrs line then r else { r with cipher := partCipher line s }

/-- Read and decode a stored line (R299, R302, R304, R306), with the counts of its channel. A line of a channel that has lost a
subchannel is uncorrectable, and none of its words is corrected. -/
def readStored (line : Nat) (s : Part) : LineRead × Part :=
  let dram := isDramHome (line / linesPerExtent) s
  let ch := (channelOf (line * 128) s).1
  let r :=
    if dram && (lineAttr s.dram.memory line).isNone then decodeLeftover s.mgmt.codeKey line
    else decodeStored line s
  let s := { s with freeCtr := s.freeCtr + r.draws }
  let r := if channelLost (line * 128) s then { r with state := .uncorrectable, singles := 0, doubles := 0 } else r
  if !dram then (r, s)
  else
    let s := count 11 ch 64 r.singles (count 11 ch 65 r.doubles (count 11 ch 0 1 s))
    (r, match r.state with
      | .good => s
      | .poisoned => count 11 ch 67 1 s
      | .uncorrectable => count 11 ch 66 1 s)

/-- A read of a physical line by a demand access: one that corrects a double error rewrites the line (R305). -/
def demandRead (line : Nat) (s : Part) : LineRead × Part :=
  let (r, s) := readStored line s
  if r.doubles = 0 || r.state = .uncorrectable then (r, s)
  else (r, count 11 (channelOf (line * 128) s).1 4 1 (correctLine line r s))

/-! ### Keys and page tags (R393 to R395) -/

/-- The gallery of that number. -/
def gallery (g : Nat) (s : Part) : Gallery := s.gals.gals.getD g Gallery.reset

/-- Is the gallery ACTIVE (R384)? -/
def galleryActive (g : Nat) (s : Part) : Bool := (gallery g s).state = .active

/-- The tag of a local page (R394). -/
def pageTag (page : Nat) (s : Part) : PageTag := tget s.gals.tags page PageTag.unkeyed

/-- What a page's tag says of its lines (R395). -/
inductive TagClass | current | previous | unkeyed | bound | other
  deriving DecidableEq, Repr

/-- The class of a key epoch for a gallery (R394, R395). -/
def epochClass (epoch : Nat) (g : Gallery) : TagClass :=
  if epoch = 0xFFFF then .unkeyed
  else if epoch = 0 then .bound
  else if (g.current.map (·.epoch)) = some epoch then .current
  else if (g.previous.map (·.epoch)) = some epoch then .previous
  else .other

/-- The key and tweak of a line under a key slot (R392). -/
def cipherOf (k : KeySlot) (ordinal lineInExt object : Nat) : Cipher :=
  { key := k.key, unit := ordinal * 2 ^ 21 + lineInExt, id := object }

/-- The binding entry of an object (R401). -/
def bindingOf (object : BitVec 64) (s : Part) : Option Binding :=
  ((s.gals.bindings.map (·.2)).find? fun b => b.state ≠ .free && b.object = object)

/-- Under which key a line of an extent is read (R395, R401): `none` for a refusal with UNSUPPORTED, `some none` for
bytes returned as stored. `epoch` and `split` are the tag's. -/
def readKey (e : Extent) (epoch split lineInExt agent : Nat) (s : Part) : Option (Option Cipher) :=
  let g := gallery e.gallery s
  let under (k : Option KeySlot) : Option (Option Cipher) :=
    k.map fun k => some (cipherOf k e.ordinal lineInExt e.object.toNat)
  if lineInExt % linesPerPage < split then under g.current
  else
    match epochClass epoch g with
    | .current => under g.current
    | .previous => under g.previous
    | .unkeyed => some none
    | .other => none
    | .bound =>
      match bindingOf e.object s with
      | some b =>
        if b.state = .sealed && (!b.streamOnly || (0x110 ≤ agent && agent ≤ 0x116)) then
          some (some { key := b.key, unit := e.ordinal * 2 ^ 21 + lineInExt, id := b.bindId })
        else none
      | none => none

/-- Set the tag of a page (R394). -/
def setTag (page epoch split : Nat) (s : Part) : Part :=
  onGalleries (fun b => { b with tags :=
    if epoch = 0xFFFF && split = 0 then tdel b.tags page else tset b.tags page { epoch := epoch, split := split } }) s

/-- Re-encrypt one stored line under CURRENT (R395, R399): its plaintext under the page's tag becomes its plaintext
under CURRENT. A line that is poisoned or uncorrectable stays as stored. -/
def reencryptLine (e : Extent) (epoch physLine lineInExt : Nat) (s : Part) : Part :=
  let g := gallery e.gallery s
  match g.current with
  | some k =>
    let (r, s) := readStored physLine s
    if r.state ≠ .good then s
    else
      let want : Option Cipher :=
        match epochClass epoch g with
        | .previous => g.previous.map fun p => cipherOf p e.ordinal lineInExt e.object.toNat
        | .current => some (cipherOf k e.ordinal lineInExt e.object.toNat)
        | _ => none
      storeLine physLine (readUnder want r.bytes r.cipher) false (some (cipherOf k e.ordinal lineInExt e.object.toNat)) s
  | none => s

/-- Re-encrypt the lines of a page of DRAM from its SPLIT on under CURRENT, and tag it CURRENT (R395). -/
def reencryptPage (e : Extent) (physPage pageInExt : Nat) (s : Part) : Part :=
  match (gallery e.gallery s).current with
  | none => s
  | some k =>
    let t := pageTag physPage s
    let todo := (List.range linesPerPage).filter fun i => t.split ≤ i
    let s := todo.foldl (fun s i =>
      reencryptLine e t.epoch (physPage * linesPerPage + i) (pageInExt * linesPerPage + i) s) s
    setTag physPage k.epoch 0 (count 14 e.gallery 0 1 s)

/-- What a write of a line needs first (R395, R401): `none` for a refusal with UNSUPPORTED; else the state with the
page brought under CURRENT and the encryption of the line to be stored. -/
def writeKey (e : Extent) (physPage lineInExt : Nat) (s : Part) : Option (Option Cipher × Part) :=
  let g := gallery e.gallery s
  let t := pageTag physPage s
  let under (s : Part) : Option (Option Cipher × Part) :=
    g.current.map fun k => (some (cipherOf k e.ordinal lineInExt e.object.toNat), s)
  match epochClass t.epoch g with
  | .current => under s
  | .previous | .unkeyed => under (reencryptPage e physPage (lineInExt / linesPerPage) s)
  | .other => none
  | .bound =>
    match bindingOf e.object s with
    | some b => if b.state = .importing then some (none, s) else none
    | none => none

end Sys2Proof.Machine
end

