-- ==== Sys2Proof/Machine/Route.lean ====
section
/-!
DEFINITION. Where a message goes: the path hash (R23, R24, R372), admission to the cell buffer (R356 to R358), virtual
output queues (R354, R355, R359, R360), mirroring at ingress (R369), and the messages that the part itself makes:
responses and fault notices (R56, R64, R65).
-/

namespace Sys2Proof.Machine

/-- The link of a logical port. -/
def lport (p : Nat) (s : Part) : LPort := tget s.links.ports p LPort.idle

/-- Is the logical port ACTIVE (R47)? -/
def portActive (p : Nat) (s : Part) : Bool := (lport p s).link = .active

/-- Does the port keep its queues: ACTIVE, or training again with its queues kept (R51, R371)? -/
def portUp (p : Nat) (s : Part) : Bool := portActive p s || (lport p s).retraining

/-- Change the link of a logical port. -/
def onPort (p : Nat) (f : LPort → LPort) (s : Part) : Part :=
  onLinks (fun l => { l with ports := tset l.ports p (f (tget l.ports p LPort.idle)) }) s

/-- Count on a logical port's FPT counters. -/
def countPort (p index n : Nat) (s : Part) : Part := count 3 p index n s

/-- A discarded message of a port (R59, R371). -/
def countDiscard (p : Nat) (s : Part) : Part := countPort p 68 1 s

/-! ### The path hash -/

/-- The 49-bit value that the path hash folds (R23). -/
def hashValue (m : Msg) : Nat :=
  let op := m.op.toNat
  if carriesAddr op then m.addr.toNat / 2 ^ 9
  else
    let key :=
      if op = 0x40 then field m.oparg.toNat 31 12
      else if op = 0x41 then m.aux.toNat % 2 ^ 20
      else if op = 0x49 || op = 0x51 || op = 0x53 then m.aux.toNat % 2 ^ 22
      else if longHeader (msgClass m) && m.ord then m.sseq.toNat
      else m.tag.toNat
    m.dstPart.toNat * 2 ^ 37 + key

/-- The exclusive or of the 13 nibbles of `v` (R23). -/
def foldNibbles : Nat → Nat → Nat
  | 0, _ => 0
  | k + 1, v => (v % 16) ^^^ foldNibbles k (v / 16)

/-- The hash of a message under a salt (R23). -/
def pathHash (salt : Nat) (m : Msg) : Nat := foldNibbles 13 (hashValue m % 2 ^ 49) ^^^ salt

/-- The salt of a logical port (R40). -/
def saltOf (p : Nat) (s : Part) : Nat :=
  let w := (s.pool.salts.getD (p / 8) 0).toNat
  field w (4 * (p % 8) + 3) (4 * (p % 8))

/-- The path with index `i`, or, while its port is down, the next cyclically whose port is ACTIVE (R372). A port that trains again
with its queues is not down (R371). -/
def livePath (path : List Nat) (i : Nat) (s : Part) : Option Nat :=
  let own := path.getD (i % path.length) 0
  if portUp own s then some own
  else ((List.range path.length).map fun k => path.getD ((i + k) % path.length) 0).find? fun p => portActive p s

/-- The egress port of a message for another part (R23, R372). -/
def routePort (salt : Nat) (m : Msg) (s : Part) : Option Nat :=
  match tget? s.pool.routeParts m.dstPart.toNat with
  | none => none
  | some r => if r.path.isEmpty then none else livePath r.path (r.spread.getD (pathHash salt m % 16) 0) s

/-- The egress port of a message for local logical port `p`: its ROUTE_PORT entry, else the port itself. -/
def localPort (p : Nat) (s : Part) : Option Nat :=
  match tget? s.pool.routePorts p with
  | none => some p
  | some r => r.path.head?

/-! ### The cell buffer -/

/-- Cells of 256 bytes in a number of MiB (R351, R356). -/
def mibCells (n : Nat) : Nat := n * 4096

/-- Egress queue of a message (R360). -/
def egressQueue (m : Msg) (s : Part) : Nat :=
  let w := (s.sw.qmap.getD m.gallery.toNat 0).toNat
  field w (5 * m.vc.toNat + 4) (5 * m.vc.toNat)

/-- Every message in a virtual output queue or egress queue. -/
def allQueued (s : Part) : List Queued := s.sw.voq ++ s.sw.queues.flatMap (·.2)

/-- Cells of the pieces of a tile whose descriptor is `d` (R215, R226, R351): 256 bytes a piece, with a header of 16. -/
def tileCells (d : List Nat) : Nat :=
  let n := d.getD 1 0 % 2 ^ 32
  let rest := n % 256
  n / 256 * 2 + (if rest = 0 then 0 else if rest ≤ 240 then 1 else 2)

/-- Cells of tiles in production and awaiting egress (R223, R356). -/
def tilesHeld (s : Part) : Nat :=
  s.str.streams.foldl (fun n p => p.2.tiles.foldl (fun k t => k + tileCells t.desc) n) 0

/-- Cells that a space holds: of queued messages, a multicast message charged once (R359), and of tiles. -/
def spaceUsed (sp : Space) (s : Part) : Nat :=
  ((allQueued s).filter fun q => q.space = sp && q.shared.isNone).foldl (fun n q => n + cellsOf q.msg) 0 +
  (s.sw.multi.filter fun p => p.2.2.1 = sp && p.2.1 ≠ 0).foldl (fun n p => n + p.2.2.2) 0 +
  (if sp = .engine then tilesHeld s else 0)

/-- Is there room in the engine partition for a number of cells (R356, R357)? -/
def engineHolds (cells : Nat) (s : Part) : Bool := spaceUsed .engine s + cells ≤ mibCells s.sw.engineMib

/-- Cells in the replay partition: a copy of each unacknowledged ordered message (R68, R356). -/
def replayUsed (s : Part) : Nat :=
  s.links.streams.foldl (fun n p => p.2.unacked.foldl (fun k u => k + cellsOf u.msg) n) 0

/-- Is there room to hold an ordered message for replay (R68, R357)? -/
def replayHolds (m : Msg) (s : Part) : Bool := replayUsed s + cellsOf m ≤ mibCells s.sw.replayMib

/-- Free shared cells (R357, R375). -/
def sharedFree (s : Part) : Nat := mibCells s.sw.sharedMib - spaceUsed .shared s

/-- Shared cells held by an egress queue of a port (R357). -/
def queueShared (port queue : Nat) (s : Part) : Nat :=
  ((allQueued s).filter fun q => q.port = port && q.queue = queue && q.space = .shared).foldl
    (fun n q => n + cellsOf q.msg) 0

/-- Configuration of an egress queue (R379). -/
def queueCfg (port queue : Nat) (s : Part) : QueueCfg := tget s.sw.qcfg (32 * port + queue) QueueCfg.reset

/-- Is the message made by an engine or service agent 0x110–0x117 (R356)? -/
def fromEngine (m : Msg) : Bool :=
  m.op.toNat ∈ [0x41, 0x49, 0x51, 0x53] || (0x110 ≤ m.srcPort.toNat && m.srcPort.toNat ≤ 0x117)

/-- The space that admits a message for an egress queue of a port, if there is room (R357). -/
def admitSpace (m : Msg) (colour : Colour) (copy : Bool) (port : Nat) (s : Part) : Option Space :=
  let n := cellsOf m
  let q := egressQueue m s
  let g := m.gallery.toNat
  if copy then
    if spaceUsed .mirror s + n ≤ mibCells s.sw.mirrorMib then some .mirror else none
  else if fromEngine m then
    if engineHolds n s then some .engine else none
  else if spaceUsed (.galleryMin g) s + n ≤ mibCells (s.sw.galMib.getD g 0) then some (.galleryMin g)
  else
    let free := sharedFree s
    if n ≤ free && queueShared port q s * 16 < 2 ^ (queueCfg port q s).alpha * free &&
        (colour ≠ .yellow || s.sw.yellow ≤ free)
    then some .shared else none

/-- Instance and index of the counter of cells admitted to a space (R375, R510). -/
def spaceIndex : Space → Nat
  | .galleryMin _ => 0 | .shared => 1 | .engine => 2 | .mirror => 3 | .ingress => 4

/-- A message as it stands in the virtual output queue of its output and egress queue (R354, R355). -/
def queuedAs (m : Msg) (port input : Nat) (space : Space) (copy : Bool) (multi : Option Nat) (seen : List Nat) (s : Part) : Queued :=
  { msg := m, input := input, port := port, queue := egressQueue m s, space := space, left := cellsOf m, tag := none, copy := copy,
    wakes := false, shared := multi, seen := seen }

/-- Put an admitted message in the virtual output queue of its output and egress queue (R354, R355). -/
def enqueue (m : Msg) (port input : Nat) (space : Space) (copy : Bool) (multi : Option Nat) (seen : List Nat) (s : Part) : Part :=
  let e := queuedAs m port input space copy multi seen s
  count 2 (m.gallery.toNat + 1) (spaceIndex space) (if multi.isSome then 0 else cellsOf m)
    (onSwitch (fun w => { w with voq := w.voq ++ [e] }) s)

/-- The bay of the internal agent that makes a message (R352): of the host port, the cores (DESIGN CHOICE: B2 of B2 and B6, log entry
79), the Curator; else that of the channel, or of the flash root port, of the line that the message names. -/
def agentBay (m : Msg) (s : Part) : Nat :=
  let off := m.addr.toNat % 2 ^ 46
  let e := off / 2 ^ 28
  match m.srcPort.toNat with
  | 0x100 => 0 | 0x101 => 4 | 0x102 => 2 | 0x103 => 7
  | _ => if inFlashWindow e then (e - 0x4000) / 30720 % 8 else if isDramHome e s then (channelOf off s).1 / 3 else 0

/-- How a message of an agent of a bay comes to the switch core. -/
def Entry.own (bay : Nat) : Entry := { port := 256, bay := bay, seen := [] }

/-- The crossbar input of a message (R352): of its ingress port, or of its agent's bay (DESIGN CHOICE: the first, log entry 79). -/
def Entry.input (e : Entry) : Nat := if e.port < 256 then e.port / 2 else 16 * e.bay

/-- The salt for messages that enter so; an internal agent has none (R23). -/
def saltFor (e : Entry) (s : Part) : Nat := if e.port < 256 then saltOf e.port s else 0

/-- Is the port an analysis port of an enabled mirror session (R369)? -/
def analysisPort (p : Nat) (s : Part) : Bool := s.sw.mirrors.any fun c => c.enable && c.dest = p

/-- Send a copy of a message to a mirror session (R369, R371): discarded and counted when the session is off, its port is down or the
mirror partition is full. -/
def mirrorTo (session : Nat) (m : Msg) (input : Nat) (s : Part) : Part :=
  match s.sw.mirrors[session]? with
  | none => s
  | some c =>
    if !c.enable || !portUp c.dest s then count 4 session 96 1 s
    else
      match admitSpace m .green true c.dest s with
      | some sp => enqueue m c.dest input sp true none [] (count 4 session 32 1 s)
      | none => count 4 session 96 1 s

/-- Mark the tracked request as one whose path went down (R371, R372). -/
def markPathDown (agent tag : Nat) (s : Part) : Part :=
  onLinks (fun l =>
    match tget? l.tracked (agent * 65536 + tag) with
    | some t => { l with tracked := tset l.tracked (agent * 65536 + tag) { t with pathDown := true } }
    | none => l) s

/-- A message cannot leave: it is discarded and counted, and a request of this part's own source learns of it (R372). -/
def cannotLeave (m : Msg) (s : Part) : Part :=
  let s := count 2 0 68 1 s
  if longHeader (msgClass m) && m.srcPart.toNat = myPart s then markPathDown m.srcPort.toNat m.tag.toNat s else s

/-- Where messages that wait for room stand, by logical port, or 256 + internal agent, and VC (R357, R358). -/
def waitKey (port vc : Nat) : Nat := 8 * port + vc

/-- The first index of that key for a message: its ingress port, or its agent. -/
def Entry.lane (e : Entry) (m : Msg) : Nat := if e.port < 256 then e.port else 256 + m.srcPort.toNat

/-- Will the peer of a port take the message: its opcode (R48), and a REQ or SNP only where it offered credits for it (R49)? -/
def peerTakes (p : Nat) (m : Msg) (s : Part) : Bool :=
  bitAt (lport p s).opMap m.op.toNat && (4 ≤ m.vc.toNat || (lport p s).offered.getD m.vc.toNat 0 ≠ 0)

/-- Hand a message to a logical port (R357, R369, R371): queued if it is admitted, else left waiting. -/
def toPort (p : Nat) (e : Entry) (space : Option Space) (m : Msg) (s : Part) : Part :=
  if !portUp p s || !peerTakes p m s then countDiscard p (cannotLeave m s)
  else if analysisPort p s then count 4 (32 * p) 67 1 s
  else
    match space with
    | some sp => enqueue m p e.input sp false none e.seen s
    | none =>
      let key := waitKey (e.lane m) m.vc.toNat
      let behind := !(tget s.sw.waiting key []).isEmpty
      match if behind then none else admitSpace m .green false p s with
      | some sp => enqueue m p e.input sp false none e.seen s
      | none =>
        onSwitch (fun w => { w with waiting := tset w.waiting key (tget w.waiting key [] ++
          [{ msg := m, issued := true, colour := .green, policer := none, holds := false, entry := e }]) }) s

/-- A message for an endpoint on one of this part's logical ports (R371, R384). -/
def toLocalPort (p : Nat) (e : Entry) (space : Option Space) (m : Msg) (s : Part) : Part :=
  let g := tget s.gals.ports p 0
  if ((s.gals.gals[g]?).map (·.state)) ≠ some .active then countDiscard p s
  else
    match localPort p s with
    | none => cannotLeave m s
    | some q => toPort q e space m s

/-- A message for another part (R23, R372). -/
def toPart (e : Entry) (space : Option Space) (m : Msg) (s : Part) : Part :=
  match routePort (saltFor e s) m s with
  | none => cannotLeave m s
  | some p => toPort p e space m s

/-- Send a message that an agent of a bay makes: to the part itself through the inbox, else out with salt 0 (R23). -/
def emitAt (bay : Nat) (m : Msg) (s : Part) : Part :=
  if answersTo m.dstPart.toNat s then pushInbox m s else toPart (Entry.own bay) none m s

/-- Send a message that this part makes, from the bay of its agent. -/
def emit (m : Msg) (s : Part) : Part := emitAt (agentBay m s) m s

/-! ### Responses and fault notices -/

/-- The response to a request (R56, R60, R64): for a status other than OK, data is the error value. SRC_PORT and ADDR, which a response
header does not carry, stay in the part and name the agent and the line that answer (R352, R356). -/
def mkResponse (req : Msg) (op dataLen status aux : Nat) (data : List Byte) (resync : Bool) : Msg :=
  let c := (opClass op).getD .rsp
  let bytes := if status = stOK then data else errorValue dataLen
  sized { Msg.blank with
    op := BitVec.ofNat 8 op, vc := vcLike c req, gallery := req.gallery, dstPart := req.srcPart, dstPort := req.srcPort,
    srcPart := req.dstPart, srcPort := req.dstPort, addr := req.addr, status := BitVec.ofNat 4 status, resync := resync, tag := req.tag,
    sseq := if req.ord then req.sseq else 0, aux := BitVec.ofNat 24 aux, data := bytes }

/-- Bytes 16 to 31 of a fault notice (R65). -/
def noticeData (req : Msg) (named namedPort cause suppressed : Nat) (seq : BitVec 16) : List Byte :=
  leBytes 8 req.addr.toNat ++
  leBytes 8 (req.op.toNat + named % 4096 * 2 ^ 8 + namedPort % 512 * 2 ^ 20 + cause * 2 ^ 29 + suppressed * 2 ^ 32 +
    seq.toNat * 2 ^ 48)

/-- The fault notice of a failed request (R65). -/
def mkNotice (req : Msg) (status named namedPort cause suppressed : Nat) (seq : BitVec 16) : Msg :=
  sized { Msg.blank with
    op := 0x8F, vc := vcLike .rsp req, gallery := req.gallery, dstPart := req.srcPart, dstPort := req.srcPort,
    srcPart := req.dstPart, srcPort := req.dstPort, addr := req.addr, status := BitVec.ofNat 4 status, tag := req.tag,
    data := noticeData req named namedPort cause suppressed seq }

/-- Scheduler ticks of 10 µs that a notice's window lasts, so that at least 10 µs pass (R65). -/
def noticeWindow : Nat := 2

/-- The folds after one more failure of a kind (R65): `none` for the count means it is folded, a number is the
SUPPRESSED value of the notice to send. -/
def foldNotice (status named : Nat) : List NoticeFold → Option Nat × List NoticeFold
  | [] => (some 0, [{ status := status, named := named, count := 0, window := noticeWindow }])
  | f :: fs =>
    if f.status = status && f.named = named then
      if f.window = 0 then (some f.count, { f with count := 0, window := noticeWindow } :: fs)
      else (none, { f with count := min 0xFFFF (f.count + 1) } :: fs)
    else let (r, fs') := foldNotice status named fs; (r, f :: fs')

/-- Raise the fault notice of a failed request (R65), folded with its kind within 10 µs. DESIGN CHOICE: each part that raises notices to a
requester counts its own NOTICE_SEQ for it (log entry 79). -/
def raiseNotice (req : Msg) (status named namedPort cause : Nat) (s : Part) : Part :=
  let key := req.srcPart.toNat * 512 + req.srcPort.toNat
  let st := tget s.links.notices key { seq := 0, folds := [] }
  let (r, folds) := foldNotice status named st.folds
  match r with
  | none => onLinks (fun l => { l with notices := tset l.notices key { st with folds := folds } }) s
  | some n =>
    emit (mkNotice req status named namedPort cause n st.seq)
      (onLinks (fun l => { l with notices := tset l.notices key { seq := st.seq + 1, folds := folds } }) s)

/-- The resequencer slot of a stream (R69); streams to the number that a stand-in answers for are kept apart (R432). -/
def reseqKey (m : Msg) (s : Part) : Nat :=
  m.srcPart.toNat * 512 + m.srcPort.toNat + (if m.dstPart.toNat = myPart s then 0 else 2 ^ 21)

/-- Serial distance from an SSEQ to a later one (R69). -/
def sseqSince (a b : BitVec 24) : Nat := (b - a).toNat

/-- Remember the status of an ordered message that is not performed, for its duplicates (R69): as long as its source can send it
again, which is for the 1,023 messages after it (R68). -/
def keepFailure (req : Msg) (status : Nat) (s : Part) : Part :=
  if req.ord && status ≠ stOK then
    onLinks (fun l =>
      match tget? l.reseq (reseqKey req s) with
      | some r =>
        let recent := r.failed.filter fun f => f.1 ≠ req.sseq && decide (sseqSince f.1 req.sseq < 1024)
        { l with reseq := tset l.reseq (reseqKey req s) { r with failed := recent ++ [(req.sseq, status)] } }
      | none => l) s
  else s

/-- Answer a request with a status (R63 to R65), raising the fault notice that R65 asks for. -/
def respond (req : Msg) (status aux : Nat) (data : List Byte) (s : Part) : Part :=
  let (op, len) := responseOp req
  let s := emit (mkResponse req op len status aux data false) (keepFailure req status s)
  if status = stOK || status = stRetryLater then s
  else raiseNotice req status req.dstPart.toNat req.dstPort.toNat 0 s

/-- Refuse a request. -/
def refuse (req : Msg) (status : Nat) (s : Part) : Part := respond req status 0 [] s

/-- Answer RETRY_LATER with RESYNC = 1 (R70). -/
def respondResync (req : Msg) (s : Part) : Part :=
  let (op, len) := responseOp req
  emit (mkResponse req op len stRetryLater 0 [] true) s

/-- A fault notice that arrives for a host function, the cores or an engine is queued in its gallery's fault queue
(R65, R414). -/
def queueFault (m : Msg) (s : Part) : Part :=
  let g := m.gallery.toNat
  let q := s.flr.faults.getD g FaultQueue.empty
  let e : FaultEntry :=
    { addr := leAt m.data 0 8 % 2 ^ 58, notice := leAt m.data 8 8,
      ident := m.tag.toNat + m.status.toNat * 2 ^ 16 + m.dstPort.toNat * 2 ^ 20, num := q.next }
  let q' : FaultQueue :=
    if q.entries.length < 1024 then { q with entries := q.entries ++ [e], next := q.next + 1 }
    else
      let bump (x : FaultEntry) : FaultEntry :=
        { x with notice := setField x.notice 47 32 (min 0xFFFF (field x.notice 47 32 + 1)) }
      { q with entries := q.entries.dropLast ++ (q.entries.getLast?.map bump).toList, overflow := true }
  raiseHosts (2 + g) (raiseCore (32 + g) (onRecovery (fun b => { b with faults := lset b.faults g q' }) s))

end Sys2Proof.Machine
end

