-- ==== Sys2Proof/Machine/Order.lean ====
section
/-!
DEFINITION. The source side of ordering and completion: streams and SSEQ (R66 to R71), fences (R73 to R75) and
request tracking (R76).
-/

namespace Sys2Proof.Machine

/-- The key of a source stream. -/
def streamKey (agent dst : Nat) : Nat := agent * 4096 + dst

/-- The key of a tracked request. -/
def trackKey (agent tag : Nat) : Nat := agent * 65536 + tag

/-- A stream that has carried nothing: its first ordered message carries SSEQ 0 and SYN (R70). -/
def SrcStream.start : SrcStream := { next := 0, fresh := true, unacked := [], sinceMark := false }

/-- A source stream of this part. -/
def stream (agent dst : Nat) (s : Part) : SrcStream := tget s.links.streams (streamKey agent dst) SrcStream.start

/-- Change a source stream. -/
def onStream (agent dst : Nat) (f : SrcStream → SrcStream) (s : Part) : Part :=
  onLinks (fun l => { l with streams := tmod l.streams (streamKey agent dst) SrcStream.start f }) s

/-- Most unacknowledged ordered messages of a stream (R68). -/
def streamLimit : Nat := 1024

/-- Most outstanding requests of a logical port (R49, R76). -/
def maxTags : Nat := 4096

/-- The path a message will leave by; 0x1000 for one that stays in the part. -/
def pathOf (salt : Nat) (m : Msg) (s : Part) : Nat :=
  if answersTo m.dstPart.toNat s then 0x1000 else (routePort salt m s).getD 0x1001

/-- Send a sequenced message towards its destination. -/
def launch (e : Entry) (space : Option Space) (m : Msg) (s : Part) : Part :=
  if answersTo m.dstPart.toNat s then pushInbox m s else toPart e space m s

/-- The stream after it has sent an ordered message by a path. -/
def streamSend (m : Msg) (path : Nat) (x : SrcStream) : SrcStream :=
  { x with
    next := x.next + 1, fresh := false, sinceMark := m.op.toNat ≠ 0x11, unacked := x.unacked ++ [{ msg := m, path := path }] }

/-- The ordered message as the source part numbers it (R66, R70). -/
def numbered (x : SrcStream) (m : Msg) : Msg := { m with ord := true, sseq := x.next, syn := x.fresh, retx := false, after := false }

/-- A load as the source part marks it (R67): held behind the latest ordered message of its stream. -/
def marked (x : SrcStream) (m : Msg) : Msg :=
  if x.fresh then { m with ord := false, syn := false, retx := false, after := false, sseq := 0 }
  else { m with ord := false, syn := false, retx := false, after := true, sseq := x.next - 1 }

/-- A message that is neither ordered nor a load carries no sequence (R58). -/
def unmarked (m : Msg) : Msg := { m with ord := false, syn := false, retx := false, after := false, sseq := 0 }

/-- Does a request wait for an answer that ends its tracking (R60, R76, R121)? -/
def expectsAnswer (m : Msg) : Bool := msgClass m = .req && m.op.toNat ≠ 0x11

/-- Start tracking a request (R76), with the completion timeout now in force (R77). -/
def track (agent : Nat) (m : Msg) (s : Part) : Part :=
  onLinks (fun l =>
    let t : Tracked := { msg := m, timeout := l.cplTimeout, pathDown := false }
    { l with tracked := tset l.tracked (trackKey agent m.tag.toNat) t }) s

/-- Requests of a source agent that are outstanding. -/
def outstanding (agent : Nat) (s : Part) : Nat :=
  (s.links.tracked.filter fun p => p.1 / 65536 = agent).length

/-- Destination parts of an agent's streams, with the stream. -/
def agentStreams (agent : Nat) (s : Part) : List (Nat × SrcStream) :=
  (s.links.streams.filter fun p => p.1 / 4096 = agent).map fun p => (p.1 % 4096, p.2)

/-- Does a stream of the agent stand at the limit of R68? -/
def windowFull (agent : Nat) (s : Part) : Bool := (agentStreams agent s).any fun p => decide (streamLimit ≤ p.2.unacked.length)

/-- Is there room for an ordered message of an agent: in its stream's window, and for its copy in the replay partition (R68, R357)? -/
def replayRoom (agent : Nat) (m : Msg) (s : Part) : Bool :=
  decide ((stream agent m.dstPart.toNat s).unacked.length < streamLimit) && replayHolds m s

/-- Must a request wait for an earlier one of its agent that waits unsent: the order of numbering (R66), of loads after ordered
messages (R67); and the order of a logical port's VC (R358)? Nothing waits behind a FENCE for its own sake (R73). -/
def waitsBehind (agent : Nat) (m e : Msg) : Bool :=
  let op := m.op.toNat
  (agent < 256 && e.vc = m.vc) || (markedOrdered e.op.toNat && (markedOrdered op || isLoad op) && m.dstPart = e.dstPart)

/-- Must a request of a source agent wait unsent behind `earlier` ones (R68, R357)? At the limit of one stream every request of a
logical port waits. -/
def mustWait (agent : Nat) (earlier : List Waiting) (m : Msg) (s : Part) : Bool :=
  earlier.any (fun w => waitsBehind agent m w.msg) || (agent < 256 && windowFull agent s) ||
  (markedOrdered m.op.toNat && !replayRoom agent m s)

/-- The requests of an agent that wait unsent. -/
def unsentOf (agent : Nat) (s : Part) : List Waiting := tget s.links.unsent agent []

/-- Set the requests of an agent that wait unsent. -/
def setUnsent (agent : Nat) (ws : List Waiting) (s : Part) : Part :=
  onLinks (fun l => { l with unsent := if ws.isEmpty then tdel l.unsent agent else tset l.unsent agent ws }) s

/-- Leave a request waiting unsent. -/
def leaveUnsent (agent : Nat) (w : Waiting) (s : Part) : Part := setUnsent agent (unsentOf agent s ++ [w]) s

/-- A message that fences of its agent waited for has its number, which they now cover (R73). -/
def fencesCover (agent : Nat) (m new : Msg) (s : Part) : Part :=
  let go (f : FenceRec) : FenceRec :=
    if f.agent = agent && m ∈ f.waits then
      { f with waits := f.waits.erase m, covered := f.covered ++ [(new.dstPart.toNat, new.sseq.toNat)] }
    else f
  onLinks (fun l => { l with fences := l.fences.map go }) s

/-- A message that fences of its agent waited for will never be sent: it is answered otherwise. -/
def fencesDrop (agent : Nat) (gone : Msg → Bool) (s : Part) : Part :=
  let go (f : FenceRec) : FenceRec := if f.agent = agent then { f with waits := f.waits.filter fun m => !gone m } else f
  onLinks (fun l => { l with fences := l.fences.map go }) s

/-- Number or mark a request of a source agent as its stream asks (R66 to R68). -/
def sequenced (agent : Nat) (e : Entry) (m : Msg) (s : Part) : Msg × Part :=
  let dst := m.dstPart.toNat
  let x := stream agent dst s
  if markedOrdered m.op.toNat then
    let m' := numbered x m
    (m', onStream agent dst (streamSend m' (pathOf (saltFor e s) m' s)) (fencesCover agent m m' s))
  else (if isLoad m.op.toNat then marked x m else unmarked m, s)

/-- Sequence, track and send a request of an internal agent of this part, or leave it waiting (R66 to R68, R76, R357). -/
def issueFrom (agent : Nat) (e : Entry) (m : Msg) (s : Part) : Part :=
  if mustWait agent (unsentOf agent s) m s then
    leaveUnsent agent { msg := m, issued := true, colour := .green, policer := none, holds := false, entry := e }
      (if expectsAnswer m then track agent m s else s)
  else
    let (m, s) := sequenced agent e m s
    launch e none m (if expectsAnswer m then track agent m s else s)

/-- A request of an internal agent that waited unsent is numbered and sent; it keeps the timeout of its acceptance (R77). -/
def issueUnsent (agent : Nat) (w : Waiting) (s : Part) : Part :=
  let (m, s) := sequenced agent w.entry w.msg s
  launch w.entry none m (onLinks (fun l =>
    match tget? l.tracked (trackKey agent m.tag.toNat) with
    | some t => if expectsAnswer m then { l with tracked := tset l.tracked (trackKey agent m.tag.toNat) { t with msg := m } } else l
    | none => l) s)

/-- The first of an agent's unsent requests that need not wait, and the others. -/
def takeUnsent (agent : Nat) (s : Part) : List Waiting → List Waiting → Option (Waiting × List Waiting)
  | _, [] => none
  | before, w :: ws =>
    if mustWait agent before w.msg s then takeUnsent agent s (before ++ [w]) ws else some (w, before ++ ws)

/-- The next tag of an internal agent that no outstanding request of it carries. -/
def freshTag (agent : Nat) (s : Part) : BitVec 16 :=
  let t := tget s.links.nextTag agent 0
  let used (k : Nat) : Bool := thas s.links.tracked (trackKey agent ((t + k) % 65536))
  BitVec.ofNat 16 (t + (firstFree used 65536).getD 0)

/-- Issue a request of an internal agent of a bay of this part under a fresh tag. -/
def issueAt (agent bay : Nat) (m : Msg) (s : Part) : BitVec 16 × Part :=
  let t := freshTag agent s
  let m' := { m with srcPart := BitVec.ofNat 12 (myPart s), srcPort := BitVec.ofNat 9 agent, tag := t }
  let s := onLinks (fun l => { l with nextTag := tset l.nextTag agent ((t.toNat + 1) % 65536) }) s
  (t, issueFrom agent (Entry.own bay) (sized m') s)

/-- Issue a request of an internal agent of this part under a fresh tag. -/
def issueInternal (agent : Nat) (m : Msg) (s : Part) : BitVec 16 × Part :=
  issueAt agent (agentBay { m with srcPort := BitVec.ofNat 9 agent } s) m s

/-! ### Fences -/

/-- The streams of an agent that a fence's scope covers (R73): OPARG[0] SCOPE, OPARG[12:1] the one part. -/
def fenceCovers (f : Msg) (dst : Nat) : Bool :=
  if bitAt f.oparg.toNat 0 then dst = field f.oparg.toNat 12 1 else true

/-- Send FENCE_MARK on one stream (R74). It is ordered and has no answer. -/
def sendMark (agent no : Nat) (f : Msg) (dst : Nat) (s : Part) : Part :=
  let m : Msg := sized { Msg.blank with
    op := 0x11, vc := f.vc, gallery := f.gallery, srcPart := BitVec.ofNat 12 (myPart s), srcPort := BitVec.ofNat 9 agent,
    dstPart := BitVec.ofNat 12 dst, dstPort := 0x1FF, oparg := BitVec.ofNat 64 no }
  issueFrom agent (Entry.own 0) m (onStream agent dst (fun x => { x with sinceMark := false }) s)

/-- The answer that the part itself makes for an endpoint's request stands at hand until it has left the part, as any answer of an
endpoint does (R371). -/
def answerAtHand (agent : Nat) (m : Msg) (s : Part) : Part :=
  if agent < 256 && expectsAnswer m then
    onLinks (fun l =>
      let t : Tracked := { msg := m, timeout := l.cplTimeout, pathDown := false }
      { l with answered := tset l.answered (trackKey agent m.tag.toNat) t }) s
  else s

/-- Complete a fence OK (R74): the fence number increments, AUX carries it, and every covered stream with ordered
messages since its last mark gets a FENCE_MARK. -/
def fenceDone (f : FenceRec) (s : Part) : Part :=
  let no := tget s.links.fenceNo f.agent 0 + 1
  let s := answerAtHand f.agent f.msg (onLinks (fun l =>
    { l with
      fenceNo := tset l.fenceNo f.agent no
      fences := l.fences.erase f
      tracked := tdel l.tracked (trackKey f.agent f.msg.tag.toNat) }) s)
  let dsts := ((agentStreams f.agent s).filter fun p => fenceCovers f.msg p.1 && p.2.sinceMark).map (·.1)
  let s := pushMatched (mkResponse f.msg 0x80 0 stOK no.toNat [] false) s
  dsts.foldl (fun s d => sendMark f.agent no.toNat f.msg d s) s

/-- Complete every fence that has been taken and whose messages have all been sent and answered (R73). -/
def settleFences (s : Part) : Part :=
  (s.links.fences.filter fun f => f.taken && f.covered.isEmpty && f.waits.isEmpty).foldl (fun s f => fenceDone f s) s

/-- Accept a FENCE where it arrives at its source part (R73, R76): it is tracked from then on, and covers the ordered messages in scope
that came before it and are not yet answered, those that still wait to be numbered among them. `taken` says that nothing holds the
fence itself. -/
def acceptFence (agent : Nat) (taken : Bool) (m : Msg) (s : Part) : Part :=
  let cov := (agentStreams agent s).flatMap fun p =>
    if fenceCovers m p.1 then
      (p.2.unacked.filter fun u => u.msg.op.toNat ≠ 0x11).map fun u => (p.1, u.msg.sseq.toNat)
    else []
  let waits := ((unsentOf agent s).map (·.msg)).filter fun e =>
    markedOrdered e.op.toNat && e.op.toNat ≠ 0x11 && fenceCovers m e.dstPart.toNat
  let f : FenceRec := { agent := agent, msg := m, covered := cov, waits := waits, taken := taken }
  settleFences (onLinks (fun l => { l with fences := l.fences ++ [f] }) (track agent m s))

/-- The fence of an agent has left ingress space, or its completion timeout has come before (R75). -/
def fenceTaken (agent : Nat) (m : Msg) (s : Part) : Part :=
  let go (f : FenceRec) : FenceRec := if f.agent = agent && f.msg.tag = m.tag then { f with taken := true } else f
  settleFences (onLinks (fun l => { l with fences := l.fences.map go }) s)

/-- A fence whose covered messages are unanswered at its completion timeout (R75): TIMEOUT, one notice for each
destination that did not answer, no increment and no mark. -/
def fenceTimeout (f : FenceRec) (s : Part) : Part :=
  let s := answerAtHand f.agent f.msg (onLinks (fun l =>
    { l with
      fences := l.fences.erase f
      tracked := tdel l.tracked (trackKey f.agent f.msg.tag.toNat) }) s)
  let s := pushMatched (mkResponse f.msg 0x80 0 stTimeout 0 [] false) s
  (f.covered.map (·.1) ++ f.waits.map fun m => m.dstPart.toNat).eraseDups.foldl (fun s d => raiseNotice f.msg stTimeout d f.msg.dstPort.toNat 1 s) s

/-! ### Answers -/

/-- A stream without the acknowledged message, and without the marks sent before it: a mark has no answer, and the
performance of a later message shows that it was performed (R60, R69). -/
def ackStream (tag : Nat) (x : SrcStream) : SrcStream :=
  match x.unacked.find? fun u => u.msg.op.toNat ≠ 0x11 && u.msg.tag.toNat = tag with
  | none => x
  | some u =>
    { x with unacked := x.unacked.filter fun v =>
        v ≠ u && !(v.msg.op.toNat = 0x11 && serialBefore v.msg.sseq u.msg.sseq) }

/-- Count an answer against the fences that cover its message, by stream and SSEQ (R73): a duplicate counts once. -/
def ackFences (agent dst sseq : Nat) (s : Part) : Part :=
  let drop (f : FenceRec) : FenceRec :=
    if f.agent = agent then { f with covered := f.covered.filter fun c => c ≠ (dst, sseq) } else f
  onLinks (fun l => { l with fences := l.fences.map drop }) s

/-- End the tracking of a request and its stay in replay, or unsent (R68, R76). -/
def untrack (agent : Nat) (t : Tracked) (s : Part) : Part :=
  let tag := t.msg.tag.toNat
  let s := onLinks (fun l => { l with tracked := tdel l.tracked (trackKey agent tag) }) s
  let unsent (m : Msg) : Bool := m.tag = t.msg.tag && expectsAnswer m
  let s := if agent < 256 then s
    else fencesDrop agent unsent (setUnsent agent ((unsentOf agent s).filter fun w => !unsent w.msg) s)
  if t.msg.ord then onStream agent t.msg.dstPart.toNat (ackStream tag) s else s

/-- The unacknowledged messages renumbered from 0 in their original order, the first with SYN (R71). -/
def renumber (path : Msg → Nat) : BitVec 24 → List Unacked → List Unacked
  | _, [] => []
  | n, u :: us =>
    let m := { u.msg with sseq := n, syn := n = 0, retx := true }
    { msg := m, path := path m } :: renumber path (n + 1) us

/-- How the messages of an agent enter: by its logical port, or from its bay; a FENCE_MARK is the part's own. -/
def entryOf (agent : Nat) (m : Msg) (s : Part) : Entry :=
  if agent < 256 && m.op ≠ 0x11 then { port := agent, bay := 0, seen := [] } else Entry.own (agentBay m s)

/-- A numbered message that had to wait leaves by the path that is live now: a copy of it in the replay buffer goes by that path (R68,
R372). -/
def leavesBy (e : Entry) (m : Msg) (s : Part) : Part :=
  if m.ord && m.srcPart.toNat = myPart s then
    let path := pathOf (saltFor e s) m s
    onStream m.srcPort.toNat m.dstPart.toNat (fun x =>
      { x with unacked := x.unacked.map fun u => if u.msg = m then { u with path := path } else u }) s
  else s

/-- Where a numbered message of an agent still waits for room, it has not been sent yet. -/
def unsentYet (agent : Nat) (m : Msg) (s : Part) : Bool :=
  (tget s.sw.waiting (waitKey ((entryOf agent m s).lane m) m.vc.toNat) []).any fun w => w.msg = m

/-- Send an unacknowledged message again, as `new`; where it still waits, it waits as that (R68, R71). -/
def resend (agent : Nat) (old new : Msg) (s : Part) : Part :=
  if unsentYet agent old s then
    let key := waitKey ((entryOf agent old s).lane old) old.vc.toNat
    onSwitch (fun x =>
      { x with waiting := tset x.waiting key ((tget x.waiting key []).map fun w => if w.msg = old then { w with msg := new } else w) }) s
  else launch (entryOf agent new s) none new s

/-- The source part restarts a stream on RESYNC (R71): its unacknowledged messages are numbered anew and sent again, and the fences that
cover them follow. -/
def restartStream (agent dst : Nat) (s : Part) : Part :=
  let x := stream agent dst s
  let us := renumber (fun m => pathOf (saltFor (entryOf agent m s) s) m s) 0 x.unacked
  let s := onStream agent dst (fun y => { y with unacked := us, next := BitVec.ofNat 24 us.length, fresh := us.isEmpty }) s
  let retag (t : Table Tracked) (u : Unacked) : Table Tracked :=
    match tget? t (trackKey agent u.msg.tag.toNat) with
    | some e => if expectsAnswer u.msg then tset t (trackKey agent u.msg.tag.toNat) { e with msg := u.msg } else t
    | none => t
  let pairs := x.unacked.zip us
  let again (c : Nat × Nat) : Nat × Nat :=
    if c.1 ≠ dst then c
    else match pairs.find? fun p => p.1.msg.sseq.toNat = c.2 with
      | some p => (dst, p.2.msg.sseq.toNat)
      | none => (dst, 2 ^ 24 + c.2)
  let s := onLinks (fun l =>
    { l with
      tracked := us.foldl retag l.tracked
      fences := l.fences.map fun f => if f.agent = agent then { f with covered := f.covered.map again } else f }) s
  pairs.foldl (fun s p => resend agent p.1.msg p.2.msg s) s

/-- Send again an unacknowledged ordered message with RETX = 1 and the same SSEQ (R68). One that still waits for room has not been
sent. -/
def retransmit (agent dst : Nat) (u : Unacked) (s : Part) : Part :=
  if unsentYet agent u.msg s then s
  else
    let m := { u.msg with retx := true }
    let path := pathOf (saltFor (entryOf agent m s) s) m s
    let s := onStream agent dst (fun x => { x with unacked := x.unacked.map fun v => if v = u then { msg := m, path := path } else v }) s
    launch (entryOf agent m s) none m s

/-- Send again every unacknowledged message that left by a path (R68). -/
def retransmitPath (port : Nat) (s : Part) : Part :=
  (s.links.streams.flatMap fun p => (p.2.unacked.filter fun u => u.path = port).map fun u => (p.1, u)).foldl
    (fun s p => retransmit (p.1 / 4096) (p.1 % 4096) p.2 s) s

/-- Send again every unacknowledged message whose path a new table of routes has removed from the entry of its destination (R68). -/
def resendRerouted (old : Table Route) (s : Part) : Part :=
  let paths (t : Table Route) (k : Nat) : List Nat := ((tget? t (k % 4096)).map (·.path)).getD []
  let removed (k : Nat) (u : Unacked) : Bool := u.path ∈ paths old k && u.path ∉ paths s.pool.routeParts k
  (s.links.streams.flatMap fun p => (p.2.unacked.filter fun u => removed p.1 u).map fun u => (p.1, u)).foldl
    (fun s p => retransmit (p.1 / 4096) (p.1 % 4096) p.2 s) s

/-- A destination holds no state for a stream of an agent (R71): the notice of CAUSE 3, and the stream starts again. -/
def resynced (agent : Nat) (m : Msg) (s : Part) : Part :=
  restartStream agent m.dstPart.toNat (raiseNotice m stRetryLater m.dstPart.toNat m.dstPort.toNat 3 s)

/-- The unacknowledged FENCE_MARK that an answer with RESYNC names (R70, R74). -/
def markAnswered (agent : Nat) (a : Msg) (s : Part) : Option Msg :=
  if !a.resync then none
  else ((stream agent a.srcPart.toNat s).unacked.find? fun u => u.msg.op = 0x11 && u.msg.sseq = a.sseq).map (·.msg)

/-- What the source part makes of an answer for one of its agents (R71, R73, R76): none if it is late or restarts
its stream, else the request it answers. An ordered request is answered under its own SSEQ. -/
def sourceSees (agent : Nat) (a : Msg) (s : Part) : Option Tracked × Part :=
  match (tget? s.links.tracked (trackKey agent a.tag.toNat)).filter fun t => !t.msg.ord || t.msg.sseq = a.sseq with
  | none =>
    match markAnswered agent a s with
    | some m => (none, resynced agent m s)
    | none => (none, count 2 0 64 1 s)
  | some t =>
    let s := if a.resync then resynced agent t.msg s else s
    if a.resync && t.msg.ord then (none, s)
    else
      let s := sampleTime 2 (t.msg.gallery.toNat + 1) 0 (untrack agent t s)
      (some t, settleFences (if t.msg.ord then ackFences agent t.msg.dstPart.toNat t.msg.sseq.toNat s else s))

/-- A request unanswered at its completion timeout (R76): TIMEOUT with the error value for reads, and a notice with
CAUSE 1, or 2 when its path went down. -/
def timeoutRequest (agent : Nat) (t : Tracked) (s : Part) : Part :=
  let s := answerAtHand agent t.msg (untrack agent t s)
  let (op, len) := responseOp t.msg
  let s := pushMatched (mkResponse t.msg op len stTimeout 0 [] false) s
  raiseNotice t.msg stTimeout t.msg.dstPart.toNat t.msg.dstPort.toNat (if t.pathDown then 2 else 1) s

end Sys2Proof.Machine
end

