-- ==== Sys2Proof/Machine/Checks.lean ====
section
/-!
DEFINITION. Whether a request to this part's local space is served (R15, R21, R30, R61, R79, R341, R384, R430), the class
checks of owned regions (R83) and editions (R92), and the tables they look in.
-/

namespace Sys2Proof.Machine

/-! ### The extent table -/

/-- The entry of a local extent (R25). -/
def extentAt (e : Nat) (s : Part) : Extent := tget s.pool.extents e Extent.blank

/-- Write the entry of a local extent. -/
def putExtent (e : Nat) (x : Extent) (s : Part) : Part :=
  onPool (fun p => { p with extents := if x = Extent.blank then tdel p.extents e else tset p.extents e x }) s

/-- Local extent of a pool address (R12, R14). -/
def extOf (addr : Nat) : Nat := field addr 45 28

/-- Line of a pool address within its extent. -/
def lineOf (addr : Nat) : Nat := field addr 27 7

/-- The part number under which the local space is addressed: the failed part's while this part stands in (R430). -/
def homePart (s : Part) : Nat :=
  if s.flr.standIn = .shadow || s.flr.standIn = .compare then s.flr.forPart else myPart s

/-- Is the extent backed (R14, R20)? -/
def isBacked (e : Nat) (s : Part) : Bool := isDramHome e s || inLoanWindow e || inFlashWindow e

/-- Extents of an object on this part. -/
def extentsOf (object : BitVec 64) (s : Part) : List (Nat × Extent) :=
  s.pool.extents.filter fun p => p.2.object = object && p.2.state ≠ .free

/-- Part that issued an object identifier (R16). -/
def issuer (object : BitVec 64) : Nat := object.toNat / 2 ^ 52

/-- Is the object issued by this part? -/
def isIssuer (object : BitVec 64) (s : Part) : Bool := issuer object = homePart s

/-! ### Directory entries (R124) -/

/-- DSTATE as a number. -/
def dstateNum : DState → Nat
  | .i => 0 | .s => 1 | .e => 2 | .o => 3 | .bcS => 4 | .bcO => 5 | .poison => 6

/-- A DSTATE field; the reserved 7 counts as POISON. -/
def dstateOf : Nat → DState
  | 0 => .i | 1 => .s | 2 => .e | 3 => .o | 4 => .bcS | 5 => .bcO | _ => .poison

/-- The 64-bit form of a directory entry (R124). -/
def dirWord (d : DirEntry) : BitVec 64 :=
  let valid := bitOf d.p0.isSome + bitOf d.p1.isSome * 2 + bitOf d.p2.isSome * 4 + bitOf d.p3.isSome * 8
  BitVec.ofNat 64 (dstateNum d.dstate + d.pred % 4 * 2 ^ 3 + valid * 2 ^ 5 + d.p0.getD 0 % 256 * 2 ^ 9 + d.p1.getD 0 % 256 * 2 ^ 17 +
    d.p2.getD 0 % 256 * 2 ^ 25 + d.p3.getD 0 % 256 * 2 ^ 33 + bitOf d.busy * 2 ^ 41)

/-- The directory entry that a 64-bit word holds (R124). -/
def dirOfWord (w : BitVec 64) : DirEntry :=
  let n := w.toNat
  let p (valid hi lo : Nat) : Option Nat := if bitAt n valid then some (field n hi lo) else none
  { dstate := dstateOf (field n 2 0), pred := field n 4 3, p0 := p 5 16 9, p1 := p 6 24 17, p2 := p 7 32 25, p3 := p 8 40 33,
    busy := bitAt n 41 }

/-- The directory entries that the backing store lists, by line. -/
def dirList (s : Part) : List (Nat × DirEntry) := s.cat.dir.map fun p => (p.1, dirOfWord p.2)

/-- Does a directory entry name a holder: is it in a state other than I or POISON (R111)? -/
def dirHolds (d : DirEntry) : Bool := d.dstate ≠ .i && d.dstate ≠ .poison

/-! ### Use of FREE extents (R38) -/

/-- Is the extent in a spare pool (R95)? -/
def inSpare (e : Nat) (s : Part) : Bool := s.regions.spares.any fun p => e ∈ p.exts

/-- Is the extent in the anteroom (R335)? -/
def inRoom (e : Nat) (s : Part) : Bool := e ∈ s.flt.room

/-- Is the extent held by this part as a twin (R420)? -/
def isHeld (e : Nat) (s : Part) : Bool := thas s.flr.holds e

/-- Is the extent reserved as the destination of a recall copy (R38)? -/
def isCopyDest (e : Nat) (s : Part) : Bool := s.pool.copies.any fun c => c.dest = e

/-- Is the extent reserved as the destination of a tier move (R340)? -/
def isMoveDest (e : Nat) (s : Part) : Bool := s.flt.moves.any fun m => m.dest = e

/-- Is a FREE extent in some other use (R38)? DESIGN CHOICE: the destination of a running tier move is one; the rules name only the
others (log entry 77). -/
def inUse (e : Nat) (s : Part) : Bool :=
  inSpare e s || inRoom e s || isHeld e s || isCopyDest e s || isMoveDest e s

/-! ### Class tables -/

/-- The owner entry of a region (R82). -/
def ownerOf (object : BitVec 64) (s : Part) : Option OwnerEntry := s.regions.owners.find? fun o => o.object = object

/-- The edition entry of a region (R91). -/
def editionOf (object : BitVec 64) (s : Part) : Option EditionRegion :=
  s.regions.editions.find? fun r => r.object = object

/-- The slot record of an edition region. -/
def slotAt (r : EditionRegion) (k : Nat) : SlotRec := r.slots.getD k SlotRec.blank

/-- The catalogue region of an object (R112). -/
def catRegionOf (object : BitVec 64) (s : Part) : Option CatRegion := s.cat.regions.find? fun r => r.object = object

/-- Edition handle of a request (R92): slot, and SERIAL[11:0]. -/
def handleSlot (m : Msg) : Nat := field m.oparg.toNat 63 60
def handleSerial (m : Msg) : Nat := field m.oparg.toNat 59 48

/-- Is the request a write or an atomic of R60? -/
def isStore (op : Nat) : Bool := op ∈ [0x03, 0x04] || isAtomic op

/-- A read or write of a gather or filter service, of this part or of a peer, as it is checked: a request from the requester for whom the
service asks (R190, R199). -/
def asRequester (m : Msg) : Msg :=
  match m.behalf with
  | some (p, a) => if m.srcPort.toNat = 0x111 || m.srcPort.toNat = 0x112 then { m with srcPart := p, srcPort := a } else m
  | none => m

/-- Owned class check (R83). -/
def ownedStatus (m : Msg) (x : Extent) (s : Part) : Nat :=
  match ownerOf x.object s with
  | some o => if o.owned && o.part = m.srcPart.toNat && o.port = m.srcPort.toNat then stOK else stNotOwner
  | none => stNotOwner

/-- Does OPARG of an edition request keep its zero fields (R92)? -/
def editionArgOk (m : Msg) : Bool :=
  let w := m.oparg.toNat
  field w 47 3 = 0 && (isAtomic m.op.toNat || w % 8 = 0)

/-- Edition class check against a slot record (R92). -/
def slotStatus (m : Msg) (r : EditionRegion) (k : SlotRec) : Nat :=
  if k.state = .free || k.serial.toNat % 4096 ≠ handleSerial m then stUnsupported
  else if k.state = .draft then
    if r.writerPart = m.srcPart.toNat && r.writerPort = m.srcPort.toNat then stOK else stNotOwner
  else if isStore m.op.toNat then stUnsupported
  else stOK

/-- Is a flash-home extent one that a stand-in keeps in pinned anteroom pages (R431)? -/
def isKept (e : Nat) (s : Part) : Bool := s.flt.staged.any fun p => p.1 / 4096 = e && p.2.kept

/-- Edition class check (R92, R333): a flash-home extent holds only the edition that its BIND record names. -/
def editionStatus (m : Msg) (e : Nat) (x : Extent) (s : Part) : Nat :=
  match editionOf x.object s with
  | none => stUnsupported
  | some r =>
    let k := slotAt r (handleSlot m)
    if !editionArgOk m then stUnsupported
    else if x.place = .flash then
      match tget? s.flt.bound e with
      | none => if isKept e s then slotStatus m r k else stUnsupported
      | some b =>
        if b.slot = handleSlot m && b.serial = k.serial.toNat then slotStatus m r k else stUnsupported
    else slotStatus m r k

/-- Class check of a request that is not for a catalogue region (R79). -/
def classStatus (m : Msg) (e : Nat) (x : Extent) (s : Part) : Nat :=
  match x.cls with
  | .owned => ownedStatus m x s
  | .edition => editionStatus m e x s
  | _ => stUnsupported

/-! ### The check of a request (R15, R30, R79) -/

/-- Operation set that a request needs (R60, R114): 1 lines, 2 atomics, 0 none. -/
def needSet (op : Nat) : Nat :=
  if op ∈ [0x01, 0x03, 0x04, 0x20, 0x21, 0x22] then 1 else if isAtomic op then 2 else 0

/-- Is the request aligned (R61)? -/
def aligned (m : Msg) : Bool :=
  if isAtomic m.op.toNat then m.addr.toNat % atomicWidth m = 0 else m.addr.toNat % 128 = 0

/-- Catalogue messages that the operation-set and epoch checks do not reach (R114). -/
def exempt (op : Nat) : Bool := op ∈ [0x23, 0x28, 0x29, 0x2A, 0x2B]

/-- Is the extent of the failed part ready on a stand-in (R430)? One of a catalogue region never is before TAKE. -/
def standReady (e : Nat) (s : Part) : Bool :=
  s.flr.tablesIn &&
  match tget? s.flr.standExts e with
  | none => true
  | some c => c.state ≠ .notReady && c.state ≠ .copying

/-- Does Vitrine mode keep the gallery's extents from the application cores (R403)? -/
def keptPrivate (m : Msg) (g : Nat) (s : Part) : Bool := s.gals.vitrine && (gallery g s).priv && m.srcPort = 0x102

/-- Checks up to the class check: address, gallery, operation set, state and epoch (R15, R21, R30, R34). -/
def grantStatus (m : Msg) (s : Part) : Nat :=
  let a := m.addr.toNat
  let e := extOf a
  let x := extentAt e s
  let op := m.op.toNat
  if !isTray s || !aligned m || a / 2 ^ 46 ≠ homePart s then stUnsupported
  else if isReserved e s then stGalleryFault
  else if homePart s ≠ myPart s && (!standReady e s || x.cls = .catalogue) then stRetryLater
  else if !isBacked e s || x.state = .free then stUnsupported
  else if m.gallery.toNat ≠ x.gallery || !galleryActive x.gallery s || keptPrivate m x.gallery s then stGalleryFault
  else if !exempt op && needSet op ≠ 0 && (x.opset &&& needSet op) = 0 then stUnsupported
  else if x.state = .lost then stLost
  else if exempt op then stOK
  else if x.state = .recalling then stRecalled
  else if m.epoch ≠ x.epoch then stRevoked
  else stOK

/-- The whole check of a request to an owned or edition extent (R79, R333, R341). A LIVE flash-home extent without a
record answers TIMEOUT (R345). -/
def accessStatus (m : Msg) (s : Part) : Nat :=
  let e := extOf m.addr.toNat
  let x := extentAt e s
  let g := grantStatus m s
  if g ≠ stOK then g
  else if x.place = .flash && !thas s.flt.bound e && !isKept e s then stTimeout
  else
    let c := classStatus m e x s
    if c ≠ stOK then c
    else if isStore m.op.toNat && x.state = .moving then stRetryLater
    else if isStore m.op.toNat && x.place = .flash then stUnsupported
    else stOK

/-! ### Where a line is stored -/

/-- Key of a page-map entry (R93). -/
def mapKey (e slot page : Nat) : Nat := (e * 16 + slot) * 4096 + page

/-- The page-map entry of a page; one that is not listed maps the page to its own place, private only in a slot
drafted from nothing (R94). -/
def mapAt (r : EditionRegion) (e slot page : Nat) : MapEntry :=
  match tget? r.maps (mapKey e slot page) with
  | some v => v
  | none => { page := e * 4096 + page, priv := (slotAt r slot).base = slot }

/-- The local line number where a line of an extent is stored, for an edition slot (R93). -/
def physLine (e : Nat) (x : Extent) (slot line : Nat) (s : Part) : Nat :=
  let own := e * linesPerExtent + line
  if x.cls ≠ .edition || x.place = .flash then own
  else
    match editionOf x.object s with
    | none => own
    | some r => (mapAt r e slot (line / linesPerPage)).page * linesPerPage + line % linesPerPage

/-- Does a store need a copy of its page first (R94)? -/
def needsCopy (m : Msg) (s : Part) : Bool :=
  let e := extOf m.addr.toNat
  let x := extentAt e s
  x.cls = .edition && x.place ≠ .flash &&
  match editionOf x.object s with
  | none => false
  | some r =>
    (slotAt r (handleSlot m)).state = .draft &&
    !(mapAt r e (handleSlot m) (lineOf m.addr.toNat / linesPerPage)).priv

/-- Free pages of a region's spare pool (R95). -/
def sparePages (object : BitVec 64) (s : Part) : List Nat :=
  match s.regions.spares.find? fun p => p.object = object with
  | some p => p.pages
  | none => []

end Sys2Proof.Machine
end

