-- ==== Sys2Proof/Machine/Store.lean ====
section
/-!
DEFINITION. Reading and writing lines at home: keys (R395), poison (R310, R311), copy-on-write (R94), write-through to the
twin (R422, R423, R425, R428), and the answer of a request once it is performed (R69, R72).
-/

namespace Sys2Proof.Machine

/-! ### Reading -/

/-- A read refused for want of a key is counted (R412). -/
def countNoKey (x : Extent) (s : Part) : Part := count 14 x.gallery 65 1 s

/-- Read a line for an agent: the status and the plaintext (R303, R311, R395). -/
def readLine (x : Extent) (phys lineInExt agent : Nat) (s : Part) : Nat × List Byte × Part :=
  let t := pageTag (phys / linesPerPage) s
  match readKey x t.epoch t.split lineInExt agent s with
  | none => (stUnsupported, [], countNoKey x s)
  | some want =>
    let (r, s) := demandRead phys s
    if r.state = .good then (stOK, readUnder want r.bytes r.cipher, s)
    else (stPoison, [], s)

/-! ### Twins -/

/-- Is a twin marked DOWN (R428)? -/
def isTwinDown (p : Nat) (s : Part) : Bool := p ∈ s.flr.twinDown

/-- The twin of a local line, if its extent is mirrored and the twin is not DOWN (R21, R421, R428). -/
def twinOf (phys : Nat) (s : Part) : Option Nat :=
  let e := phys / linesPerExtent
  let x := extentAt e s
  let t :=
    if isTray s && systemFirst s ≤ e && e < workingFirst s then (if s.flr.sysValid then some s.flr.sysTwin else none)
    else if x.twinValid then some x.twinPart else none
  t.filter fun p => !isTwinDown p s

/-- The pool address of a local line, under the number by which the part homes it. -/
def lineAddr (phys : Nat) (s : Part) : BitVec 58 := BitVec.ofNat 58 (homePart s * 2 ^ 46 + phys * 128)

/-- Send a line to the twin as an ordered WR_LINE (R422). OPARG[3] marks poison, OPARG[4] a BOUND page. -/
def sendThrough (agent twin phys : Nat) (bytes : List Byte) (poison bound : Bool) (kind : ThroughKind)
    (answer : Option Msg) (s : Part) : Part :=
  let m : Msg := { Msg.blank with
    op := 0x03, gallery := BitVec.ofNat 3 (extentAt (phys / linesPerExtent) s).gallery,
    dstPart := BitVec.ofNat 12 twin, dstPort := 0x117, addr := lineAddr phys s,
    oparg := BitVec.ofNat 64 (8 * bitOf poison + 16 * bitOf bound),
    data := if poison then errorValue 128 else sliceBytes bytes 0 128 }
  let (tag, s) := issueInternal agent m s
  let w : WriteThrough := { agent := agent, tag := tag, twin := twin, line := phys, kind := kind, answer := answer }
  count 17 0 0 1 (onRecovery (fun b => { b with throughs := b.throughs ++ [w] }) s)

/-- The same, where the line has a twin to be sent to; without one the line is done at once. -/
def mirrorLine (agent phys : Nat) (bytes : List Byte) (poison bound : Bool) (kind : ThroughKind) (s : Part) : Part :=
  match twinOf phys s with
  | none => s
  | some t => sendThrough agent t phys bytes poison bound kind none s

/-- Unacknowledged write-throughs of a line by an agent other than the named one (R422). -/
def throughBusy (agent phys : Nat) (s : Part) : Bool :=
  s.flr.throughs.any fun w => w.line = phys && w.agent ≠ agent

/-- TWIN_ENTRY for an extent of this part (R425): renamed to `new`, DONE in bit 63. -/
def entryData (e new : Nat) (x : Extent) (done : Bool) : List Byte :=
  let st := match x.state with
    | .free => 0 | .live => 1 | .revoking => 2 | .recalling => 3 | .moving => 4 | .lost => 5
  let cl := match x.cls with
    | .owned => 0 | .edition => 1 | .catalogue => 2 | .reserved => 3
  leBytes 8 (e + new * 2 ^ 18 + x.epoch.toNat * 2 ^ 36 + x.gallery * 2 ^ 52 + st * 2 ^ 55 + cl * 2 ^ 59 + x.opset * 2 ^ 61 +
    bitOf done * 2 ^ 63) ++ leBytes 8 x.object.toNat

/-- Send TWIN_ENTRY on the 0x117 stream (R425, R426). -/
def sendEntry (twin part e new : Nat) (x : Extent) (done : Bool) (s : Part) : Part :=
  let m : Msg := { Msg.blank with
    op := 0x60, gallery := BitVec.ofNat 3 x.gallery, dstPart := BitVec.ofNat 12 twin, dstPort := 0x117,
    addr := BitVec.ofNat 58 (part * 2 ^ 46 + e * 2 ^ 28), data := entryData e new x done }
  (issueInternal 0x117 m s).2

/-- Do two entries differ in what the twin records (R425)? -/
def entryDiffers (x y : Extent) : Bool :=
  x.object ≠ y.object || x.epoch ≠ y.epoch || x.state ≠ y.state || x.gallery ≠ y.gallery || x.cls ≠ y.cls ||
  x.opset ≠ y.opset

/-- Change an extent entry, telling the twin of a mirrored extent (R425). -/
def changeExtent (e : Nat) (f : Extent → Extent) (s : Part) : Part :=
  let x := extentAt e s
  let y := f x
  let s := putExtent e y s
  if y.twinValid && !isTwinDown y.twinPart s && entryDiffers x y then sendEntry y.twinPart (homePart s) e e y false s
  else s

/-! ### Writing -/

/-- The tag under which a stored line is encrypted: that of its page, or the key that the BIND of its flash-home extent names
(R331, R395). -/
def storedTag (phys : Nat) (s : Part) : PageTag :=
  let e := phys / linesPerExtent
  if inFlashWindow e then { epoch := ((tget? s.flt.bound e).map (·.keyEpoch)).getD 0xFFFF, split := 0 }
  else pageTag (phys / linesPerPage) s

/-- Is the line's page tagged BOUND (R394)? -/
def isBound (phys : Nat) (s : Part) : Bool := (storedTag phys s).epoch = 0

/-- Store a plaintext line under the rules of R395: `none` where it must end with UNSUPPORTED. -/
def writeLine (x : Extent) (phys lineInExt : Nat) (bytes : List Byte) (poison : Bool) (s : Part) : Option Part :=
  match writeKey x (phys / linesPerPage) lineInExt s with
  | none => none
  | some (cipher, s) =>
    some (storeLine phys (if poison then errorValue 128 else bytes) poison (if poison then none else cipher) s)

/-- Writes of a channel that wait in the cell buffer at most (R416). -/
def waitingMax : Nat := 256

/-- A request's write of a DRAM line may wait for its controller: what the line held is kept. DESIGN CHOICE (log entry 62): a write of
which nothing more is said waits until the next sensor sample, or until 256 later ones of its channel. -/
def noteWaiting (line : Nat) (s : Part) : Part :=
  if !isDramHome (line / linesPerExtent) s then s
  else
    let ch := (channelOf (line * 128) s).1
    let w : WaitingWrite :=
      { channel := ch, line := line, old := readBytes s.dram.memory (line * 128) 128, attr := tget? s.dram.memory.attrs line }
    onDram (fun d =>
      let mine := d.waiting.filter fun x => x.channel = ch
      let rest := if waitingMax ≤ mine.length then d.waiting.eraseP fun x => x.channel = ch else d.waiting
      { d with waiting := rest ++ [w] }) s

/-- A waiting write is lost: its line holds what it held before. -/
def undoWrite (s : Part) (w : WaitingWrite) : Part :=
  onMemory (fun m =>
    let m := writeBytes (w.line * 128) w.old m
    { m with attrs := match w.attr with | some a => tset m.attrs w.line a | none => tdel m.attrs w.line }) s

/-- Cell-buffer metadata is lost (R416): of each channel a free number of its last writes is. -/
def loseWaiting (s : Part) : Part :=
  (List.range 24).foldl (fun s ch =>
    let mine := s.dram.waiting.filter fun w => w.channel = ch
    if mine.isEmpty then s
    else
      let (n, s) := drawFree s
      (mine.reverse.take ((Config.freeWord n).toNat % (mine.length + 1))).foldl undoWrite s) s

/-- Store the line of a request under the rules of R395: `none` where it must end with UNSUPPORTED. -/
def writeRequest (x : Extent) (phys lineInExt : Nat) (bytes : List Byte) (poison : Bool) (s : Part) : Option Part :=
  match writeKey x (phys / linesPerPage) lineInExt s with
  | none => none
  | some (cipher, s) =>
    some (storeLine phys (if poison then errorValue 128 else bytes) poison (if poison then none else cipher) (noteWaiting phys s))

/-- What a copy of a stored line puts at its destination (R311): its bytes, whether it is poisoned, and its encryption. -/
structure Copied where
  bytes  : List Byte
  bad    : Bool
  cipher : Option Cipher
  deriving DecidableEq, Repr

/-- Read a stored line to copy it (R302, R311): the same bytes, or a poisoned line. -/
def copiedLine (src : Nat) (s : Part) : Copied × Part :=
  let (r, s) := readStored src s
  (if r.state = .good then { bytes := r.bytes, bad := false, cipher := r.cipher }
   else { bytes := errorValue 128, bad := true, cipher := none }, s)

/-- Where a line of an extent stands: in the pinned anteroom page of a flash-home extent that a stand-in keeps (R431), else
at its own place. -/
def keptLine (e lineInExt : Nat) (s : Part) : Nat :=
  match tget? s.flt.staged (e * 4096 + lineInExt / linesPerPage) with
  | some g => if g.kept then g.room * linesPerPage + lineInExt % linesPerPage else e * linesPerExtent + lineInExt
  | none => e * linesPerExtent + lineInExt

/-- The plaintext of a stored line whose page keeps its tag (R422): what a write-through of it carries. -/
def plainOf (x : Extent) (phys lineInExt : Nat) (bytes : List Byte) (cipher : Option Cipher) (s : Part) : List Byte :=
  let t := storedTag phys s
  if isReserved (phys / linesPerExtent) s then readUnder (partCipher phys s) bytes cipher
  else if t.epoch = 0 then rawBytes bytes cipher
  else
    match readKey x t.epoch t.split lineInExt 0x117 s with
    | some want => readUnder want bytes cipher
    | none => rawBytes bytes cipher

/-- Copy one stored line with its encryption, and send it on to the destination's twin. -/
def copyLine (x : Extent) (src dst lineInExt : Nat) (s : Part) : Part :=
  let (c, s) := copiedLine src s
  let s := storeLine dst c.bytes c.bad c.cipher s
  mirrorLine 0x117 dst (plainOf x src lineInExt c.bytes c.cipher s) c.bad (isBound src s) .request s

/-- Copy a page to another page, with its tag (R94, R395). -/
def copyPage (x : Extent) (src dst pageInExt : Nat) (s : Part) : Part :=
  let t := pageTag src s
  let s := setTag dst t.epoch t.split s
  (List.range linesPerPage).foldl (fun s i =>
    copyLine x (src * linesPerPage + i) (dst * linesPerPage + i) (pageInExt * linesPerPage + i) s) s

/-- Change the spare pool of a region. -/
def onSpare (object : BitVec 64) (f : SparePool → SparePool) (s : Part) : Part :=
  onRegions (fun r => { r with spares := r.spares.map fun p => if p.object = object then f p else p }) s

/-- Change the edition entry of a region. -/
def onEdition (object : BitVec 64) (f : EditionRegion → EditionRegion) (s : Part) : Part :=
  onRegions (fun r => { r with editions := r.editions.map fun e => if e.object = object then f e else e }) s

/-- A region event with its companion word (R109). -/
def regionEvent (kind slot info : Nat) (s : Part) : Part := pushEvent .region (kind * 2 + slot * 16) info s

/-- Free pages have left a region's spare pool: SPARE_LOW once it falls below POL_REGION_CTRL.SPARE_LOW (R95, R109). -/
def sparesLeft (object : BitVec 64) (before : Nat) (s : Part) : Part :=
  if (sparePages object s).length < s.regions.spareLow && s.regions.spareLow ≤ before then regionEvent 3 0 object.toNat s else s

/-- Give a draft its own copy of a page before the first store to it (R94, R95). -/
def copyOnWrite (m : Msg) (s : Part) : Part :=
  let e := extOf m.addr.toNat
  let x := extentAt e s
  let page := lineOf m.addr.toNat / linesPerPage
  let slot := handleSlot m
  match editionOf x.object s, sparePages x.object s with
  | some r, p :: rest =>
    let src := (mapAt r e slot page).page
    let s := sparesLeft x.object (rest.length + 1) (onSpare x.object (fun q => { q with pages := rest }) s)
    let s := copyPage x src p page s
    onEdition x.object (fun r => { r with maps := tset r.maps (mapKey e slot page) { page := p, priv := true } }) s
  | _, _ => s

/-! ### Answers of performed requests -/

/-- Keep the answer of an ordered atomic for its duplicates (R72). -/
def keepAtomic (m : Msg) (answer : Msg) (s : Part) : Part :=
  if m.ord && isAtomic m.op.toNat then
    let e : AtomicEntry := { part := m.srcPart.toNat, agent := m.srcPort.toNat, sseq := m.sseq, answer := answer }
    let older (a : AtomicEntry) : Bool := a.part = e.part && a.agent = e.agent && a.sseq = e.sseq
    onLinks (fun l =>
      let kept := (l.atomics.filter fun a => !older a) ++ [e]
      { l with atomics := kept.drop (kept.length - 262144) }) s
  else s

/-- The OK answer of a request, with as much data as its response carries: an atomic with FETCH = 0 gets none (R61). -/
def okAnswer (m : Msg) (data : List Byte) : Msg :=
  let (op, len) := responseOp m
  mkResponse m op len stOK 0 (data.take len) false

/-- A store of a request is performed: it is written through where it is mirrored, and answered once its twin has
answered (R69, R423). -/
def storePerformed (m : Msg) (phys : Nat) (bytes : List Byte) (poison : Bool) (old : List Byte) (s : Part) : Part :=
  let a := okAnswer m old
  let s := keepAtomic m a s
  match twinOf phys s with
  | none => emit a s
  | some t => sendThrough 0x117 t phys bytes poison (isBound phys s) .request (some a) s

/-! ### Atomics (R61) -/

/-- The value that an atomic writes, from the old value and its operands. -/
def atomicNew (m : Msg) (old : Nat) : Nat :=
  let w := 8 * atomicWidth m
  let a := leAt m.data 0 (atomicWidth m)
  let signedCmp := bitAt m.oparg.toNat 1
  let less (x y : Nat) : Bool := if signedCmp then decide (signed w x < signed w y) else decide (x < y)
  match m.op.toNat with
  | 0x08 => (old + a) % 2 ^ w
  | 0x09 => if less a old then a else old
  | 0x0A => if less old a then a else old
  | _ => if old = a then leAt m.data 8 (atomicWidth m) else old

/-- Merge bytes under a byte-enable mask, bit k of the mask for byte k (R60, WR_MASKED). -/
def mergeBytes : Nat → List Byte → List Byte → List Byte
  | mask, o :: os, n :: ns => (if mask % 2 = 1 then n else o) :: mergeBytes (mask / 2) os ns
  | _, os, _ => os

/-- The line after a WR_MASKED or an atomic on the old line, and the old value of an atomic. -/
def updatedLine (m : Msg) (line : List Byte) : List Byte × List Byte :=
  if m.op.toNat = 0x04 then (mergeBytes (leAt m.data 0 16) line (sliceBytes m.data 16 128), [])
  else
    let off := m.addr.toNat % 128
    let w := atomicWidth m
    let old := leAt line off w
    (patchBytes line off (leBytes w (atomicNew m old)), leBytes 8 old)

/-- Does a line write poison its line: OPARG[3] from an agent that is no endpoint (R58, R310, R312)? -/
def poisons (m : Msg) : Bool := bitAt m.oparg.toNat 3 && 0x100 ≤ m.srcPort.toNat && (m.op.toNat = 0x03 || m.op.toNat = 0x23)

/-- Perform a request on a line of an interleaved or channel-local extent, once every check has passed. -/
def performDram (m : Msg) (s : Part) : Part :=
  let e := extOf m.addr.toNat
  let x := extentAt e s
  let line := lineOf m.addr.toNat
  let op := m.op.toNat
  let phys := physLine e x (handleSlot m) line s
  if op = 0x01 then
    let (st, bytes, s) := readLine x phys line m.srcPort.toNat s
    respond m st 0 bytes s
  else
    let s := if needsCopy m s then copyOnWrite m s else s
    let phys := physLine e x (handleSlot m) line s
    if op = 0x03 then
      match writeRequest x phys line (sliceBytes m.data 0 128) (poisons m) s with
      | none => refuse m stUnsupported s
      | some s => storePerformed m phys (sliceBytes m.data 0 128) (poisons m) [] s
    else
      match writeKey x (phys / linesPerPage) line s with
      | none => refuse m stUnsupported s
      | some (cipher, s) =>
        let (r, s) := demandRead phys s
        if r.state ≠ .good then refuse m stPoison s
        else
          let (new, old) := updatedLine m (readUnder cipher r.bytes r.cipher)
          storePerformed m phys new false old (storeLine phys new false cipher (noteWaiting phys s))

end Sys2Proof.Machine
end

