-- ==== Sys2Proof/Machine/FlashRead.lean ====
section
/-!
DEFINITION. Reads of flash-home extents (R333), the anteroom (R335 to R337) and the NVMe commands behind them (R326, R327).
-/

namespace Sys2Proof.Machine

/-- Drive of a flash-home extent (R328). -/
def driveOf (e : Nat) : Nat := (e - 0x4000) / 30720

/-- The drive on root port `d`. -/
def drive (d : Nat) (s : Part) : Drive := s.flt.drives.getD d Drive.blank

/-- Change a drive. -/
def onDrive (d : Nat) (f : Drive → Drive) (s : Part) : Part :=
  onFlash (fun b => { b with drives := lset b.drives d (f (b.drives.getD d Drive.blank)) }) s

/-- Does the drive serve reads (R343)? -/
def driveServes (d : Nat) (s : Part) : Bool := (drive d s).state = .ready || (drive d s).state = .warn

/-- Queue a flash event (R348). -/
def flashEvent (kind move drive status info : Nat) (s : Part) : Part :=
  pushEvent .flt (kind * 2 + move * 16 + drive * 2 ^ 10 + status * 2 ^ 13) info s

/-! ### NVMe commands (R326, R327) -/

/-- Is it an admin command (R326)? -/
def isAdmin : NvmeUse → Bool
  | .abort _ | .identify _ _ | .getLog _ | .setFeature _ | .getFeature _ | .createQueue _ _ | .deleteQueue _ _ | .asyncEvent => true
  | _ => false

/-- Is it a Write or Flush of the journal (R330)? -/
def isJournal : NvmeUse → Bool
  | .journal _ | .flush => true
  | _ => false

/-- Is it a Read, and is it a Write? -/
def isRead : NvmeUse → Bool
  | .stage _ _ | .direct _ | .moveRead _ _ => true
  | _ => false
def isWrite : NvmeUse → Bool
  | .moveWrite _ _ | .journal _ => true
  | _ => false

/-- Commands outstanding on a queue of a drive. -/
def queueLoad (q : Nat) (y : Drive) : Nat := (y.cmds.filter fun c => c.queue = q).length

/-- The I/O queue pair with the fewest commands outstanding, of those numbered up to `n`. -/
def leastPair (y : Drive) : Nat → Nat
  | 0 => 1
  | 1 => 1
  | n + 1 => let k := leastPair y n; if queueLoad (n + 1) y < queueLoad k y then n + 1 else k

/-- The queue that takes a command (R327), if it has room: a queue of n entries holds n - 1, so that 8 pairs of 1,024 hold 8,184 and
the admin queue of 64 holds 63. Which pair takes an I/O command is a DESIGN CHOICE (log entry 45): the one with the fewest. -/
def queueFor (use : NvmeUse) (y : Drive) : Option Nat :=
  if isAdmin use then if queueLoad 0 y < 63 then some 0 else none
  else
    let q := leastPair y 8
    if queueLoad q y < 1023 then some q else none

/-- Is it a Write or Flush of the journal, or the Reset of a journal zone that has been full (R331)? -/
def isOrdered (use : NvmeUse) : Bool := isJournal use || use = .reset 0 || use = .reset 1

/-- Must a command wait for another to complete (R327, R330, R331)? The journal's commands go one at a time: a Flush after its Write, the
next Write after that Flush, a Reset after every Flush. A move has one command outstanding at a time. -/
def mustFollow (use : NvmeUse) (y : Drive) : Bool := isOrdered use && y.cmds.any fun c => isOrdered c.use

/-- Give a drive an NVMe command on a queue. -/
def nvmeIssue (d q : Nat) (use : NvmeUse) (retried : Bool) (s : Part) : Part :=
  count 13 d 0 (bitOf (isRead use)) (count 13 d 1 (bitOf (isWrite use)) (onDrive d (fun y =>
    { y with
      cmds := y.cmds ++ [{ cid := y.nextCid, queue := q, use := use, retried := retried }]
      nextCid := (y.nextCid + 1) % 65536 }) s))

/-- The queue on which a command may go to its drive now. -/
def mayIssue (use : NvmeUse) (y : Drive) : Option Nat := if mustFollow use y then none else queueFor use y

/-- Give a drive an NVMe command (R327): one that finds no room, or must follow another, is held. -/
def nvme (d : Nat) (use : NvmeUse) (retried : Bool) (s : Part) : Part :=
  let y := drive d s
  let behind : Bool := isOrdered use && y.held.any fun h => isOrdered h.use
  match (if behind then none else mayIssue use y) with
  | some q => nvmeIssue d q use retried s
  | none => onDrive d (fun y => { y with held := y.held ++ [{ use := use, retried := retried }] }) s

/-- Take a command off a drive. -/
def nvmeDone (d cid : Nat) (s : Part) : Part :=
  onDrive d (fun y => { y with cmds := y.cmds.filter fun c => c.cid ≠ cid }) s

/-- The commands of a drive that are outstanding or held, by what they are for. -/
def usesOf (y : Drive) : List NvmeUse := y.cmds.map (·.use) ++ y.held.map (·.use)

/-- Nothing is wanted any more of the commands that a test picks: held ones are dropped. -/
def voidUses (test : NvmeUse → Bool) (y : Drive) : Drive :=
  { y with
    cmds := y.cmds.map fun c => if test c.use then { c with use := .void } else c
    held := y.held.filter fun h => !test h.use }

/-- The held commands of a list in turn, the first that may go to its drive: its queue, itself, and the others. -/
def firstHeld (y : Drive) : List NvmeHeld → List NvmeHeld → Option (Nat × NvmeHeld × List NvmeHeld)
  | _, [] => none
  | before, h :: hs =>
    match mayIssue h.use y with
    | some q => some (q, h, before ++ hs)
    | none => firstHeld y (before ++ [h]) hs

/-- A held command goes to its drive. -/
def pumpHeldNvme (s : Part) : Option Part :=
  (List.range 8).findSome? fun d =>
    let y := drive d s
    if y.state = .absent || y.state = .down then none
    else (firstHeld y [] y.held).map fun (q, h, rest) =>
      nvmeIssue d q h.use h.retried (onDrive d (fun y => { y with held := rest }) s)

/-! ### The anteroom -/

/-- Room pages that staging reads in flight have been given. -/
def stagingRooms (s : Part) : List Nat :=
  s.flt.drives.flatMap fun d => (usesOf d).filterMap fun u => match u with | .stage _ r => some r | _ => none

/-- Flash pages that are being staged. -/
def stagingPages (s : Part) : List Nat :=
  s.flt.drives.flatMap fun d => (usesOf d).filterMap fun u => match u with | .stage p _ => some p | _ => none

/-- Room pages that hold or will hold a staged page. -/
def takenRooms (s : Part) : List Nat := s.flt.staged.map (·.2.room) ++ stagingRooms s

/-- Room extents that still take pages. -/
def openRooms (s : Part) : List Nat := s.flt.room.filter fun e => e ∉ s.flt.removing

/-- The first free page of the room. -/
def freeRoom (s : Part) : Option Nat :=
  let taken := takenRooms s
  (openRooms s).findSome? fun e => (firstFree (fun i => e * 4096 + i ∈ taken) 4096).map fun i => e * 4096 + i

/-- Does a move copy from a flash page? -/
def moveUses (page : Nat) (s : Part) : Bool := s.flt.moves.any fun m => !m.demote && m.src = page / 4096

/-- Is a staged page pinned (R336)? -/
def isPinned (page : Nat) (g : Staged) (s : Part) : Bool :=
  !g.pins.isEmpty || g.kept || !(tget s.flt.reading page []).isEmpty || moveUses page s

/-- The unpinned staged page that has gone longest unread. -/
def evictee (s : Part) : Option Nat :=
  ((s.flt.staged.filter fun p => !isPinned p.1 p.2 s && p.2.room / 4096 ∈ openRooms s).foldl
    (fun (best : Option (Nat × Nat)) p =>
      match best with
      | none => some (p.1, p.2.used)
      | some b => if p.2.used < b.2 then some (p.1, p.2.used) else some b) none).map (·.1)

/-- Does a read, a move or a STAGE pin wait for a page (R336)? -/
def isAwaited (page : Nat) (s : Part) : Bool :=
  !(tget s.flt.reading page []).isEmpty || moveUses page s || s.flt.wanted.any fun p => p.1 = page

/-- Pages of the room that are pinned (R336): staged pages, and pages on their way for which something waits. -/
def pinnedCount (s : Part) : Nat :=
  (s.flt.staged.filter fun p => isPinned p.1 p.2 s).length + ((stagingPages s).filter fun p => isAwaited p s).length

/-- Are fewer than ROOM_LOW × 256 pages free or unpinned (R336)? -/
def roomIsLow (s : Part) : Bool := decide (s.flt.room.length * 4096 - pinnedCount s < s.flt.roomLow * 256)

/-- Queue ROOM_LOW when fewer than ROOM_LOW × 256 pages are free or unpinned (R336). -/
def checkRoom (s : Part) : Part :=
  let low := roomIsLow s
  let s' := onFlash (fun b => { b with lowSent := low }) s
  if low && !s.flt.lowSent then flashEvent 7 0 0 0 0 s' else s'

/-- A free room page, evicting an unpinned page where none is free (R336). -/
def takeRoom (s : Part) : Option Nat × Part :=
  match freeRoom s with
  | some r => (some r, s)
  | none =>
    match evictee s with
    | none => (none, s)
    | some p =>
      let r := (tget? s.flt.staged p).map (·.room)
      (r, count 13 (driveOf (p / 4096)) 4 1 (onFlash (fun b => { b with staged := tdel b.staged p }) s))

/-- Begin to stage a flash page, if it is not staged or on its way and a room page can be had (R336). -/
def stagePage (page : Nat) (s : Part) : Part :=
  let d := driveOf (page / 4096)
  if thas s.flt.staged page || page ∈ stagingPages s || !driveServes d s then s
  else
    match takeRoom s with
    | (none, s) => s
    | (some r, s) => nvme d (.stage page r) false s

/-- Begin every staging read that waits for a room page (R336). -/
def stageWaiting (s : Part) : Part :=
  let pages := (s.flt.reading.map (·.1) ++ s.flt.wanted.map (·.1)).eraseDups
  checkRoom (pages.foldl (fun s p => stagePage p s) s)

/-- A page whose staging read waits for a room page, and can have one now (R336): a page has been unpinned, evicted or added. -/
def pageToStage (s : Part) : Option Nat :=
  if (freeRoom s).isNone && (evictee s).isNone then none
  else
    let out := stagingPages s
    (s.flt.reading.map (·.1) ++ s.flt.wanted.map (·.1)).find? fun p =>
      !thas s.flt.staged p && p ∉ out && driveServes (driveOf (p / 4096)) s

/-- What follows from a change of pins (R336): a waiting staging read begins, and ROOM_LOW is noted or has passed. -/
def pumpRoom (s : Part) : Option Part :=
  match pageToStage s with
  | some p => some (stagePage p s)
  | none => if s.flt.room.isEmpty || roomIsLow s = s.flt.lowSent then none else some (checkRoom s)

/-- The staged pages of an extent that leaves LIVE flash-home are dropped, and so is what a staging read of one would bring (R337). -/
def dropStaged (e : Nat) (s : Part) : Part :=
  let of (u : NvmeUse) : Bool := match u with | .stage p _ => p / 4096 = e | _ => false
  onFlash (fun b =>
    { b with
      staged := b.staged.filter fun p => p.1 / 4096 ≠ e
      wanted := b.wanted.filter fun p => p.1 / 4096 ≠ e
      drives := b.drives.map (voidUses of) }) s

/-- Copy a line of a flash page to its room page as it is stored (R342), poisoned where the drive marks or lost it. -/
def stageLine (src dst : Nat) (bad : Bool) (s : Part) : Part :=
  let (c, s) := copiedLine src s
  storeLine dst (if bad then errorValue 128 else c.bytes) (bad || c.bad) (if bad then none else c.cipher) s

/-- Write a staged page into its room page; `bad` lists the 4 KiB blocks that could not be read. -/
def fillRoom (page room : Nat) (bad : List Nat) (s : Part) : Part :=
  (List.range linesPerPage).foldl (fun s i =>
    stageLine (page * linesPerPage + i) (room * linesPerPage + i) (i / 32 ∈ bad) s) s

/-! ### Reads -/

/-- Refuse a request and name the path or drive that is down in its notice: CAUSE 2 (R65, R344). -/
def refuseCause (m : Msg) (status cause : Nat) (s : Part) : Part :=
  let (op, len) := responseOp m
  let s := emit (mkResponse m op len status 0 [] false) (keepFailure m status s)
  raiseNotice m status m.dstPart.toNat m.dstPort.toNat cause s

/-- Read a flash-home line whose bytes stand at `phys`, under the key that its BIND names (R342, R395, R401). -/
def readBound (e : Nat) (b : JRec) (phys lineInExt agent : Nat) (s : Part) : Nat × List Byte × Part :=
  let x := extentAt e s
  match readKey x b.keyEpoch 0 lineInExt agent s with
  | none => (stUnsupported, [], countNoKey x s)
  | some want =>
    let (r, s) := demandRead phys s
    if r.state = .good then (stOK, readUnder want r.bytes r.cipher, s)
    else (stPoison, [], s)

/-- The stream whose tile reads under a tag of the streaming service (R225). -/
def streamOfTag (tag : Nat) (s : Part) : Option Nat :=
  let has (fs : List Fetch) : Bool := fs.any fun f => f.tag = tag
  (s.str.streams.find? fun p =>
    (p.2.tiles.any fun t => has t.reads) || (p.2.fold.map (·.reads)).any has || (p.2.residual.map (·.reads)).any has).map (·.1)

/-- The STAGE pin of a stream ends when one of its tiles reads the page (R225). -/
def unpinRead (m : Msg) (g : Staged) (s : Part) : Staged :=
  if m.srcPort = 0x113 && m.srcPart.toNat = myPart s then
    match streamOfTag m.tag.toNat s with
    | some i => { g with pins := g.pins.filter fun k => k ≠ i }
    | none => g
  else g

/-- Serve a read from a page that a stand-in keeps, whose room page has a tag of its own (R424, R431). -/
def readKept (m : Msg) (g : Staged) (s : Part) : Part :=
  let e := extOf m.addr.toNat
  let line := lineOf m.addr.toNat
  let (st, bytes, s) := readLine (extentAt e s) (g.room * linesPerPage + line % linesPerPage) line m.srcPort.toNat s
  respond m st 0 bytes s

/-- Serve a read from a staged page. -/
def readStaged (m : Msg) (b : JRec) (g : Staged) (s : Part) : Part :=
  let e := extOf m.addr.toNat
  let line := lineOf m.addr.toNat
  let page := e * 4096 + line / linesPerPage
  let s := onFlash (fun f =>
    { f with clock := f.clock + 1, staged := tset f.staged page { unpinRead m g s with used := f.clock + 1 } }) s
  let (st, bytes, s) := readBound e b (g.room * linesPerPage + line % linesPerPage) line m.srcPort.toNat s
  respond m st 0 bytes s

/-- Issue the direct read of a 4 KiB block, if none is outstanding (R333). -/
def issueDirect (block : Nat) (s : Part) : Part :=
  let d := driveOf (block / 65536)
  let out : Bool := NvmeUse.direct block ∈ usesOf (drive d s)
  if out || !driveServes d s then s else nvme d (.direct block) false s

/-- A read of a flash-home extent that has passed its checks (R333, R344). -/
def flashRead (m : Msg) (s : Part) : Part :=
  let e := extOf m.addr.toNat
  let x := extentAt e s
  let line := lineOf m.addr.toNat
  let page := e * 4096 + line / linesPerPage
  match tget? s.flt.bound e, tget? s.flt.staged page with
  | none, none => refuseCause m stTimeout 2 s
  | none, some g => if g.kept then readKept m g s else refuseCause m stTimeout 2 s
  | some b, some g => if g.kept then readKept m g s else readStaged m b g s
  | some _, none =>
    if !driveServes (driveOf e) s then refuseCause m stTimeout 2 s
    else if x.cls = .edition then
      stageWaiting (onFlash (fun f => { f with reading := tset f.reading page (tget f.reading page [] ++ [m]) }) s)
    else
      let block := e * 65536 + line / 32
      issueDirect block (onFlash (fun f => { f with direct := tset f.direct block (tget f.direct block [] ++ [m]) }) s)

/-! ### Journals and zones (R328 to R331) -/

/-- LBAs that an extent takes in a zone: its bytes and its poison bitmap (R328). -/
def extentLbas : Nat := 65600

/-- The poison bitmap of a flash-home extent, the last 64 LBAs of its space (R328): bit k is 1 when line k is poisoned. -/
def poisonBitmap (e : Nat) (s : Part) : List Byte :=
  let bad (k : Nat) : Bool := ((lineAttr s.dram.memory (e * linesPerExtent + k)).map (·.poison)).getD false
  (List.range (linesPerExtent / 8)).map fun i =>
    BitVec.ofNat 8 ((List.range 8).foldl (fun v k => v + bitOf (bad (8 * i + k)) * 2 ^ k) 0)

/-- An empty data zone. -/
def Zone.blank : Zone := { wp := 0, live := [], finished := false }

/-- The data zone of a drive; one that is not listed is empty. -/
def zoneAt (d z : Nat) (s : Part) : Zone := tget (drive d s).zones z Zone.blank

/-- Change a data zone. -/
def onZone (d z : Nat) (f : Zone → Zone) (s : Part) : Part :=
  onDrive d (fun y => { y with zones := tset y.zones z (f (tget y.zones z Zone.blank)) }) s

/-- Zones to which a Write of a move that has stopped is outstanding. -/
def voidZones (y : Drive) : List Nat := y.cmds.filterMap fun c => match c.use with | .voidWrite z => some z | _ => none

/-- Is the zone being written: by a demotion, or by a Write that one has left outstanding (R327)? -/
def zoneWriting (d z : Nat) (s : Part) : Bool :=
  (s.flt.moves.any fun m => m.demote && m.drive = d && m.zone = z) || z ∈ voidZones (drive d s)

/-- A record of 64 bytes with its CRC over the first 56 (R330). -/
def sealRecord (bs : List Byte) : List Byte :=
  let b := sliceBytes bs 0 56
  b ++ leBytes 8 (crc64 b)

/-- A BIND or UNBIND as the journal spells it (R330). In UNBIND only KIND, DRIVE, EXT, SEQ and CRC are not zero. -/
def journalRecord (r : JRec) : List Byte :=
  let attr := r.gallery + r.cls * 2 ^ 3 + r.opset * 2 ^ 5 + bitOf r.anyPoison * 2 ^ 7 + bitOf r.twinValid * 2 ^ 8
  let d := leBytes 1 (driveOf r.ext)
  match r.kind with
  | .bind =>
    sealRecord (leBytes 1 1 ++ d ++ leBytes 2 r.zone ++ leBytes 4 r.ext ++ leBytes 8 r.lba ++ leBytes 8 r.object.toNat ++
      leBytes 4 r.ordinal ++ leBytes 2 attr ++ leBytes 2 r.twinPart ++ leBytes 4 r.serial ++ leBytes 1 r.slot ++ [0] ++
      leBytes 2 r.keyEpoch ++ leBytes 8 r.seq)
  | .unbind => sealRecord (leBytes 1 2 ++ d ++ leBytes 2 0 ++ leBytes 4 r.ext ++ List.replicate 32 0 ++ leBytes 8 r.seq)

/-- The HEADER of a journal zone (R330): the root port and the part number. -/
def headerBytes (d part seq : Nat) : List Byte :=
  sealRecord (leBytes 1 3 ++ leBytes 1 d ++ leBytes 2 part ++ List.replicate 36 0 ++ leBytes 8 seq)

/-- The records of the bound extents of a drive, numbered anew after a HEADER (R331). -/
def compacted (seq : Nat) : List JRec → List JRec
  | [] => []
  | r :: rs => { r with seq := seq } :: compacted (seq + 1) rs

/-- The Write of each journal block and the Flush after it (R330). -/
def journalWrites (d zone : Nat) : Nat → Part → Part
  | 0, s => s
  | n + 1, s => journalWrites d zone n (nvme d .flush false (nvme d (.journal zone) false s))

/-- Append a record to a drive's journal (R330, R331): a block of its own, padded with zeros, written and flushed. A full zone gives
way to the other, which takes a HEADER and one BIND for every bound extent first; then the full zone is reset. -/
def jAppend (d : Nat) (r : JRec) (s : Part) : Part :=
  let y := drive d s
  let z := y.active
  if y.zcap ≤ (y.journal.getD z []).length then
    let all := compacted (y.jseq + 1) ((s.flt.bound.filter fun p => driveOf p.1 = d).map (·.2))
    let n := y.jseq + 1 + all.length
    let blocks := headerBytes d (myPart s) y.jseq :: (all ++ [{ r with seq := n }]).map journalRecord
    let s := onDrive d (fun y => { y with journal := lset y.journal (1 - z) blocks, active := 1 - z, jseq := n + 1 }) s
    nvme d (.reset z) false (journalWrites d (1 - z) blocks.length s)
  else
    let blocks := y.journal.getD z [] ++ [journalRecord { r with seq := y.jseq }]
    journalWrites d z 1 (onDrive d (fun y => { y with journal := lset y.journal z blocks, jseq := y.jseq + 1 }) s)

/-- Every journal block is written and flushed (steps 5 and 6 of R340). -/
def jFlushed (d : Nat) (s : Part) : Part :=
  onDrive d (fun y =>
    { y with cmds := y.cmds.filter fun c => !isJournal c.use, held := y.held.filter fun h => !isJournal h.use }) s

/-- The UNBIND record of an extent. -/
def unbindRec (e : Nat) : JRec :=
  { kind := .unbind, zone := 0, ext := e, lba := 0, object := 0, ordinal := 0, gallery := 0, cls := 0, opset := 0,
    anyPoison := false, twinValid := false, twinPart := 0, serial := 0, slot := 0, keyEpoch := 0, seq := 0 }

/-- Does a drive hold an extent bound to it? -/
def hasRecord (e : Nat) (s : Part) : Bool :=
  thas s.flt.bound e || (drive (driveOf e) s).zones.any fun p => e ∈ p.2.live

/-- Can a data zone be reset (R329, R331): written or finished, without a live extent, not being written, and the journal flushed? -/
def zoneDead (d z : Nat) (s : Part) : Bool :=
  let x := zoneAt d z s
  (x.wp ≠ 0 || x.finished) && x.live.isEmpty && !zoneWriting d z s && driveServes d s && !((usesOf (drive d s)).any isJournal)

/-- The data zones of a drive that can be reset, and whose reset has not been begun. -/
def deadZones (d : Nat) (s : Part) : List Nat :=
  let y := drive d s
  (y.zones.filter fun p => zoneDead d p.1 s && NvmeUse.reset p.1 ∉ usesOf y).map (·.1)

/-- Begin the reset of every data zone of a drive that can be reset (R329), each in a turn of the FLASH class, where it holds the turn's
energy (R453, R454). -/
def resetDeadZones (d : Nat) (s : Part) : Part :=
  (deadZones d s).foldl (fun s z => if canSpend 10 lineCost s then nvme d (.reset z) false (spend 10 lineCost s) else s) s

/-- Zone resets that have waited for energy begin. -/
def pumpZones (s : Part) : Option Part :=
  if canSpend 10 lineCost s then ((List.range 8).find? fun d => !(deadZones d s).isEmpty).map fun d => resetDeadZones d s else none

/-- A zone has been reset (R329), or a journal zone that had been full (R331). -/
def zoneIsReset (d z : Nat) (s : Part) : Part :=
  let gone (y : Drive) : Drive :=
    { y with cmds := y.cmds.filter fun c => c.use ≠ .reset z, held := y.held.filter fun h => h.use ≠ .reset z }
  if z < 2 then
    if NvmeUse.reset z ∉ usesOf (drive d s) then s
    else
      count 13 d 2 1 (onDrive d (fun y =>
        { gone y with journal := if z = y.active then y.journal else lset y.journal z [] }) s)
  else if zoneDead d z s then count 13 d 2 1 (onDrive d (fun y => { gone y with zones := tdel y.zones z }) s)
  else s

/-- An extent is no longer bound: UNBIND is written where the drive can be written, and its zone space is dead (R329, R331). -/
def unbindExtent (e : Nat) (s : Part) : Part :=
  let d := driveOf e
  if !inFlashWindow e || !hasRecord e s then s
  else
    let s := onFlash (fun b => { b with bound := tdel b.bound e }) s
    let s := if driveServes d s then jAppend d (unbindRec e) s else s
    let freed (z : Zone) : Zone := { z with live := z.live.filter fun x => x ≠ e }
    let s := onDrive d (fun y => { y with zones := tmap y.zones freed }) s
    resetDeadZones d (count 13 d 66 extentLbas s)

end Sys2Proof.Machine
end

