-- ==== Sys2Proof/Machine/Twin.lean ====
section
/-!
DEFINITION. The mirror service 0x117: the twin's side of write-throughs (R424, R425), checks (R433), the primary's side of
their answers (R423, R427, R428), and the sending of copies (R427, R430).
-/

namespace Sys2Proof.Machine

/-- Queue a recovery event (R447): kind, extent, part, engine. -/
def flrEvent (kind ext part engine : Nat) (s : Part) : Part :=
  pushEvent .flr (kind * 2) (ext + part * 2 ^ 18 + engine * 2 ^ 30) s

/-! ### Held copies (R420, R424) -/

/-- The local extent that holds a copy of an extent of a part. -/
def holdOf (part ext : Nat) (s : Part) : Option (Nat × HoldEntry) :=
  s.flr.holds.find? fun p => p.2.srcPart = part && p.2.srcExt = ext

/-- May this message act on the copy (R424)? Its source is the primary, or the stand-in that SEND named for it. -/
def holdSource (m : Msg) (h : HoldEntry) (s : Part) : Bool :=
  m.srcPart.toNat = h.srcPart || tget? s.flr.standIns h.srcPart = some m.srcPart.toNat

/-- Place of an extent of a part in its object (R18). -/
def ordinalOf (object : BitVec 64) (part ext : Nat) : Nat := Config.ordinal object (part * 2 ^ 18 + ext)

/-- The entry under which a held copy is encrypted (R424): the source's gallery and object. -/
def heldExtent (h : HoldEntry) : Extent :=
  { Extent.blank with
    object := h.object, epoch := h.epoch, gallery := h.gallery, state := h.state, cls := h.cls, opset := h.opset,
    ordinal := ordinalOf h.object h.srcPart h.srcExt }

/-- The extent and page whose data a local page holds: of a held copy, of a stand-in's kept flash page, of an edition to which a
spare page is mapped, or the page's own. -/
def pageUnit (page : Nat) (s : Part) : Extent × Nat :=
  let e := page / 4096
  match tget? s.flr.holds e with
  | some h => (heldExtent h, page % 4096)
  | none =>
    match s.flt.staged.find? fun p => p.2.kept && p.2.room = page with
    | some p => (extentAt (p.1 / 4096) s, p.1 % 4096)
    | none =>
      match s.regions.editions.findSome? fun r => r.maps.find? fun p => p.2.page = page with
      | some m => (extentAt (m.1 / 4096 / 16) s, m.1 % 4096)
      | none => (extentAt e s, page % 4096)

/-- The extent and line whose data a local line holds. -/
def lineUnit (phys : Nat) (s : Part) : Extent × Nat :=
  let (x, i) := pageUnit (phys / linesPerPage) s
  (x, i * linesPerPage + phys % linesPerPage)

/-- Store a line that the mirror service receives: BOUND lines as sent, poisoned lines poisoned, others under this part's
own keys; `none` where R395 refuses the write (R424). -/
def storeCopy (x : Extent) (phys lineInExt : Nat) (m : Msg) (s : Part) : Option Part :=
  let poison := bitAt m.oparg.toNat 3
  if bitAt m.oparg.toNat 4 then
    some (storeLine phys (if poison then errorValue 128 else m.data) poison none (setTag (phys / linesPerPage) 0 0 (noteWaiting phys s)))
  else writeRequest x phys lineInExt m.data poison s

/-- States and classes by their codes (R25, R425). -/
def extStateOf (n : Nat) : ExtState :=
  match n with | 1 => .live | 2 => .revoking | 3 => .recalling | 4 => .moving | 5 => .lost | _ => .free
def extClassOf (n : Nat) : ExtClass :=
  match n with | 0 => .owned | 1 => .edition | 2 => .catalogue | _ => .reserved

/-- A hold entry as TWIN_ENTRY writes it (R425). -/
def entryWritten (d : List Byte) (h : HoldEntry) : HoldEntry :=
  let w := leAt d 0 8
  { h with
    srcExt := field w 35 18, epoch := BitVec.ofNat 16 (field w 51 36), gallery := field w 54 52,
    state := extStateOf (field w 58 55), cls := extClassOf (field w 60 59), opset := field w 62 61,
    object := BitVec.ofNat 64 (leAt d 8 8) }

/-- What a line gives to its extent's checksum (R433): a byte, 0 if good and 1 if not, and its plaintext or the error value. A line of a
BOUND page, which no key slot opens, gives its bytes as they are sent to the twin (R422, R424: DEDUCED). The read counts as any
does (R302). -/
def lineCheck (phys : Nat) (s : Part) : List Byte × Part :=
  let (x, i) := lineUnit phys s
  let (c, s) := copiedLine phys s
  (if c.bad then 1 :: errorValue 128 else 0 :: sliceBytes (plainOf x phys i c.bytes c.cipher s) 0 128, s)

/-- The CRC-64 of R45 over every line of an extent in offset order (R433), and the state after its reads. -/
def extentCheck (e : Nat) (s : Part) : Nat × Part :=
  let (r, s) := (List.range linesPerExtent).foldl (fun a i =>
    let (bytes, s) := lineCheck (keptLine e i a.2) a.2
    (bytes.foldl crcByte a.1, s)) (0xFFFFFFFFFFFFFFFF, s)
  (r ^^^ 0xFFFFFFFFFFFFFFFF, s)

/-! ### Answers to the primary -/

/-- Mark a twin DOWN (R428). -/
def twinDown (twin : Nat) (s : Part) : Part :=
  if twin ∈ s.flr.twinDown then s
  else onRecovery (fun b => { b with twinDown := b.twinDown ++ [twin] }) s

/-- Lines in flight of a copy that the model sends. -/
def copyWindow : Nat := 256

/-- Send a line of an extent to its twin, as it is stored (R311, R427). -/
def sendLine (e i dst : Nat) (kind : ThroughKind) (s : Part) : Part :=
  let src := keptLine e i s
  let (x, j) := lineUnit src s
  let (c, s) := copiedLine src s
  sendThrough 0x117 dst (e * linesPerExtent + i) (plainOf x src j c.bytes c.cipher s) c.bad (isBound src s) kind none s

/-- Send more lines of an initial copy. -/
def pumpRun (n : Nat) (r : MirrorRun) (s : Part) : MirrorRun × Part :=
  match n with
  | 0 => (r, s)
  | n + 1 =>
    if copyWindow ≤ r.out || linesPerExtent ≤ r.next then (r, s)
    else
      let s := sendLine r.ext r.next r.twin .copy s
      pumpRun n { r with next := r.next + 1, out := r.out + 1 } s

/-- An initial copy has a line acknowledged (R427): more lines go, and the last acknowledgement ends it. -/
def mirrorAck (ext : Nat) (s : Part) : Part :=
  match s.flr.mirrors.find? fun r => r.ext = ext with
  | none => s
  | some r =>
    let (r', s) := pumpRun 1 { r with out := r.out - 1 } s
    if r'.out = 0 && linesPerExtent ≤ r'.next then
      let rest := s.flr.mirrors.filter fun q => q.ext ≠ ext
      let s := onRecovery (fun b => { b with mirrors := rest }) s
      if r.system && rest.any (·.system) then s else flrEvent 1 ext r.twin 0 s
    else onRecovery (fun b => { b with mirrors := b.mirrors.map fun q => if q.ext = ext then r' else q }) s

/-- Begin the initial copy of an extent (R427). -/
def startMirror (ext twin : Nat) (system : Bool) (s : Part) : Part :=
  let r : MirrorRun := { ext := ext, twin := twin, next := 0, out := 0, system := system }
  let (r, s) := pumpRun copyWindow r s
  onRecovery (fun b => { b with mirrors := b.mirrors ++ [r] }) s

/-! ### Copies for a stand-in (R430 step 5) -/

/-- A command of FLR_CMD ends for its view. -/
def flrEnd (view result : Nat) (s : Part) : Part := onRecovery (fun b => { b with seq := seqEnd view result 0 b.seq }) s

/-- Send a line of a held copy to the stand-in, under the address that it has on the failed part. -/
def sendHeld (r : SendRun) (local_ : Nat) (h : HoldEntry) (i : Nat) (s : Part) : Part :=
  let phys := local_ * linesPerExtent + i
  let (c, s) := copiedLine phys s
  let m : Msg := { Msg.blank with
    op := 0x03, gallery := BitVec.ofNat 3 h.gallery, dstPart := BitVec.ofNat 12 r.standIn, dstPort := 0x117,
    addr := BitVec.ofNat 58 (r.failed * 2 ^ 46 + h.srcExt * 2 ^ 28 + i * 128),
    oparg := BitVec.ofNat 64 (8 * bitOf c.bad + 16 * bitOf (isBound phys s)),
    data := if c.bad then errorValue 128 else sliceBytes (plainOf (heldExtent h) phys i c.bytes c.cipher s) 0 128 }
  let (tag, s) := issueInternal 0x117 m s
  let w : WriteThrough := { agent := 0x117, tag := tag, twin := r.standIn, line := phys, kind := .send, answer := none }
  onRecovery (fun b => { b with throughs := b.throughs ++ [w] }) s

/-- Send more of a SEND: an opening TWIN_ENTRY, the lines, and a closing TWIN_ENTRY for each held extent in turn. -/
def sendGo : Nat → SendRun → Part → SendRun × Part
  | 0, r, s => (r, s)
  | n + 1, r, s =>
    match r.exts with
    | [] => (r, s)
    | e :: rest =>
      match tget? s.flr.holds e with
      | none => sendGo n { r with exts := rest, next := none } s
      | some h =>
        let entry (done : Bool) (s : Part) : Part := sendEntry r.standIn r.failed h.srcExt h.srcExt (heldExtent h) done s
        match r.next with
        | none => sendGo n { r with next := some 0 } (entry false s)
        | some i =>
          if linesPerExtent ≤ i then sendGo n { r with exts := rest, next := none } (entry true s)
          else if copyWindow ≤ r.out then (r, s)
          else sendGo n { r with next := some (i + 1), out := r.out + 1 } (sendHeld r e h i s)

/-- Put a SEND back, or end it once all is sent and answered. -/
def sendPut (r : SendRun) (s : Part) : Part :=
  let rest := s.flr.sends.filter fun q => q.standIn ≠ r.standIn
  if r.exts.isEmpty && r.out = 0 then
    let s := onRecovery (fun b => { b with sends := rest }) s
    match r.view with
    | some v => flrEnd v 0 s
    | none => s
  else onRecovery (fun b => { b with sends := rest ++ [r] }) s

/-- A line that SEND sent has been answered OK. -/
def sendAck (standIn : Nat) (s : Part) : Part :=
  match s.flr.sends.find? fun r => r.standIn = standIn with
  | none => s
  | some r => let (r, s) := sendGo 1024 { r with out := r.out - 1 } s; sendPut r s

/-- A line that SEND sent has failed: the copy stops and its command ends with BAD_STATE: DESIGN CHOICE. -/
def sendFails (standIn : Nat) (s : Part) : Part :=
  let mine := (s.flr.sends.filter fun r => r.standIn = standIn).filterMap (·.view)
  let s := onRecovery (fun b =>
    { b with
      sends := b.sends.filter fun r => r.standIn ≠ standIn
      throughs := b.throughs.filter fun w => !(w.kind = .send && w.twin = standIn) }) s
  mine.foldl (fun s v => flrEnd v 2 s) s

/-! ### The twin's side -/

/-- The stand-in asks for an extent again, whose checksums differ (R433): it is sent as SEND sends one. DESIGN CHOICE (log entry 54): the
request is a TWIN_ENTRY with DONE = 1 from the stand-in to the twin, a use of DONE that R425 does not name. -/
def resendHeld (standIn local_ : Nat) (h : HoldEntry) (s : Part) : Part :=
  let r : SendRun := (s.flr.sends.find? fun r => r.standIn = standIn).getD
    { failed := h.srcPart, standIn := standIn, exts := [], next := none, out := 0, view := none }
  let (r, s) := sendGo 1024 { r with exts := r.exts ++ [local_] } s
  sendPut r s

/-- A line of a held copy has been written. The initial copy sends every line in order on one stream, so that it is complete once each
line has come after those before it (R427: DEDUCED). -/
def lineHeld (line : Nat) (h : HoldEntry) : HoldEntry :=
  if line = h.next then { h with next := line + 1, synced := h.synced || line + 1 = linesPerExtent } else h

/-- A message of the mirror service on a held copy (R424, R425, R433). -/
def performHeld (m : Msg) (local_ : Nat) (h : HoldEntry) (s : Part) : Part :=
  let setHold (f : HoldEntry → HoldEntry) (s : Part) : Part :=
    onRecovery (fun b => { b with holds := tset b.holds local_ (f h) }) s
  let op := m.op.toNat
  if op = 0x60 then
    let s := emit (okAnswer m []) (setHold (entryWritten m.data) s)
    if bitAt (leAt m.data 0 8) 63 && m.srcPart.toNat ≠ h.srcPart then
      resendHeld m.srcPart.toNat local_ (entryWritten m.data h) s
    else s
  else if op = 0x61 then
    let (sum, s) := extentCheck local_ s
    emit (okAnswer m (leBytes 8 sum)) s
  else
    let line := lineOf m.addr.toNat
    match storeCopy (heldExtent h) (local_ * linesPerExtent + line) line m s with
    | none => refuse m stUnsupported s
    | some s => emit (okAnswer m []) (setHold (lineHeld line) s)

/-- An unit's command has a write-through answered; the command's end looks at what is still out (R282, R309). -/
def throughEnded (w : WriteThrough) (s : Part) : Part :=
  match w.answer with
  | some a => emit a s
  | none =>
    match w.kind with
    | .copy => mirrorAck (w.line / linesPerExtent) s
    | .send => sendAck w.twin s
    | _ => s

/-- The twin answered a write-through with a status (R423, R428): OK ends it; anything else marks the twin DOWN, and
every write that waits for that twin counts as performed on the primary alone. -/
def throughAnswered (agent tag status : Nat) (s : Part) : Part :=
  match s.flr.throughs.find? fun w => w.agent = agent && w.tag.toNat = tag with
  | none => s
  | some w =>
    if status = stOK then
      throughEnded w (onRecovery (fun b => { b with throughs := b.throughs.erase w }) s)
    else if w.kind = .send then sendFails w.twin s
    else
      let lost := s.flr.throughs.filter fun v => v.twin = w.twin && v.kind ≠ .send
      let fresh := !isTwinDown w.twin s
      let s := onRecovery (fun b =>
        { b with
          throughs := b.throughs.filter fun v => v.twin ≠ w.twin || v.kind = .send
          mirrors := b.mirrors.filter fun r => r.twin ≠ w.twin }) (twinDown w.twin s)
      let s := if fresh then flrEvent 2 (w.line / linesPerExtent) w.twin 0 s else s
      lost.foldl (fun s v =>
        match v.answer with
        | some a => emit a s
        | none => s) s

end Sys2Proof.Machine
end

