-- ==== Sys2Proof/Machine/Catalogue.lean ====
section
/-!
DEFINITION. Catalogue regions at home (chapter 04): the directory (R124), transactions (R121, R122, R126 to R129), supply
by the nearest holder (R130), the contention predictor (R131, R132) and lost holders (R135 to R137).
-/

namespace Sys2Proof.Machine

/-! ### Tables -/

/-- The directory entry of a line (R111, R124). -/
def dirAt (line : Nat) (s : Part) : DirEntry :=
  match tget? s.cat.dir line with
  | some w => dirOfWord w
  | none =>
    { dstate := .i, pred := tget s.cat.dirInit (line / linesPerExtent) 0, p0 := none, p1 := none, p2 := none, p3 := none,
      busy := false }

/-- Write a directory entry: it reaches the backing store at once (R125). -/
def putDir (line : Nat) (d : DirEntry) (s : Part) : Part :=
  onCatalogue (fun c => { c with dir := tset c.dir line (dirWord d) }) s

/-- Entries that the directory cache holds (R125). -/
def dirCacheSize : Nat := 4194304

/-- The cache is asked for a line's entry: a hit, or a miss that takes the entry in, in place of another where the cache is full
(R125, R510). Which entry goes is open: DESIGN CHOICE, log 81. -/
def lookUpDir (line : Nat) (s : Part) : Part :=
  if line ∈ s.cat.dirCache then count 6 0 3 1 s
  else
    let room (c : List Nat) : List Nat :=
      if dirCacheSize ≤ c.length then c.eraseIdx (Config.dirVictim line % dirCacheSize) else c
    count 6 0 4 1 (onCatalogue (fun c => { c with dirCache := room c.dirCache ++ [line] }) s)

/-- Valid pointers of an entry, P0 first. -/
def ptrsOf (d : DirEntry) : List Nat := d.p0.toList ++ d.p1.toList ++ d.p2.toList ++ d.p3.toList

/-- The entry with a state and pointers; an S entry without a pointer is I. -/
def withPtrs (st : DState) (ps : List Nat) (d : DirEntry) : DirEntry :=
  { d with
    dstate := if st = .s && ps.isEmpty then .i else st
    p0 := ps[0]?, p1 := ps[1]?, p2 := ps[2]?, p3 := ps[3]? }

/-- Set the state and pointers of a line. -/
def setDir (line : Nat) (st : DState) (ps : List Nat) (s : Part) : Part := putDir line (withPtrs st ps (dirAt line s)) s

/-- The member entry of a member number. -/
def catMember (group n : Nat) (s : Part) : Option CatMember := tget? s.cat.members (group * 256 + n)

/-- Is the member active? -/
def memberActive (group n : Nat) (s : Part) : Bool := ((catMember group n s).map (·.state)) = some .active

/-- Is the member marked LOST? -/
def memberLost (group n : Nat) (s : Part) : Bool := ((catMember group n s).map (·.state)) = some .lost

/-- Member number of an agent in a group. -/
def memberOf (group part port : Nat) (s : Part) : Option Nat :=
  (List.range 256).find? fun n =>
    match catMember group n s with
    | some c => c.part = part && c.port = port
    | none => false

/-- Active members of a group. -/
def activeMembers (group : Nat) (s : Part) : List Nat := (List.range 256).filter fun n => memberActive group n s

/-- Distance to a part (R130, R144). -/
def distTo (part : Nat) (s : Part) : Nat := if part = myPart s then 0 else tget s.cat.dist part 0xFF

/-- Catalogue region and group of a line. -/
def regionOfLine (line : Nat) (s : Part) : Option CatRegion := catRegionOf (extentAt (line / linesPerExtent) s).object s

/-- A catalogue event (R143). -/
def catEvent (kind group member addr : Nat) (s : Part) : Part :=
  pushEvent .cat (kind * 2 + group * 16 + member * 2 ^ 13) addr s

/-- A line's pool address. -/
def catAddr (line : Nat) (s : Part) : Nat := (lineAddr line s).toNat

/-! ### Snoops -/

/-- The snoop message to a member (R117), whose answers come to port 0x1FF (R118). SRC_PORT is DEDUCED (log entry 23). -/
def snoopMsg (line op tag reqTag : Nat) (c : CatMember) (req : Msg) (s : Part) : Msg :=
  sized { Msg.blank with
    op := BitVec.ofNat 8 op, vc := vcLike .snp req, gallery := BitVec.ofNat 3 (extentAt (line / linesPerExtent) s).gallery,
    srcPart := BitVec.ofNat 12 (myPart s), srcPort := 0x1FF, dstPart := BitVec.ofNat 12 c.part,
    dstPort := BitVec.ofNat 9 c.port, tag := BitVec.ofNat 16 tag, addr := BitVec.ofNat 58 (catAddr line s),
    oparg := BitVec.ofNat 64 (reqTag + req.srcPart.toNat * 2 ^ 16 + req.srcPort.toNat * 2 ^ 28) }

/-- The request that a transaction answers; for the part's own work, one that names the home as requester. -/
def txnReq (t : CatTxn) (line : Nat) (s : Part) : Msg :=
  match t.item with
  | .request m => m
  | _ => { Msg.blank with
      srcPart := BitVec.ofNat 12 (myPart s), srcPort := 0x1FF, addr := BitVec.ofNat 58 (catAddr line s) }

/-- A tag for a snoop that no awaited snoop carries. -/
def snoopTag (s : Part) : Nat :=
  let used (k : Nat) : Bool := s.cat.txns.any fun p => p.2.snoops.any fun w => w.tag = (s.cat.nextTag + k) % 65536
  (s.cat.nextTag + (firstFree used 65536).getD 0) % 65536

/-- Send one snoop of a transaction; a member that is LOST or gone counts as one that will never answer (R135). -/
def sendSnoop (line : Nat) (t : CatTxn) (n op : Nat) (s : Part) : CatTxn × Part :=
  match catMember t.group n s with
  | none => ({ t with lost := t.lost ++ [n] }, s)
  | some c =>
    if c.state = .lost then ({ t with lost := t.lost ++ [n] }, s)
    else
      let tag := snoopTag s
      let s := onCatalogue (fun b => { b with nextTag := (tag + 1) % 65536 }) s
      let own := t.fin = .own
      let req := txnReq t line s
      let s := count 6 0 1 1 (emit (snoopMsg line op tag (if own then tag else req.tag.toNat) c req s) s)
      let t := if own && op = 0x2A then { t with fetchTag := some tag } else t
      ({ t with snoops := t.snoops ++ [{ member := n, op := op, tag := tag }] }, s)

/-- Send the snoops of a transaction. -/
def sendSnoops (line : Nat) (ns : List (Nat × Nat)) (t : CatTxn) (s : Part) : CatTxn × Part :=
  ns.foldl (fun (p : CatTxn × Part) n => sendSnoop line p.1 n.1 n.2 p.2) (t, s)

/-! ### The end of a transaction -/

/-- Close a transaction: BUSY clears (R126). -/
def closeTxn (line : Nat) (s : Part) : Part :=
  let s := onCatalogue (fun c => { c with txns := tdel c.txns line }) s
  putDir line { dirAt line s with busy := false } s

/-- Put work on a line's queue. -/
def catEnqueue (line : Nat) (item : CatItem) (s : Part) : Part :=
  onCatalogue (fun c => { c with waiting := tset c.waiting line (tget c.waiting line [] ++ [item]) }) s

/-- Store a transaction. -/
def putTxn (line : Nat) (t : CatTxn) (s : Part) : Part := onCatalogue (fun c => { c with txns := tset c.txns line t }) s

/-- Set the state that a transaction leaves, and close it or await its CMP_ACK. A requester that has been LOST meanwhile sends
none: the line is then resolved (R135). -/
def grantTxn (line : Nat) (t : CatTxn) (s : Part) : Part :=
  let s := match t.next with
    | some (st, ps) => setDir line st ps s
    | none => s
  if !t.needsAck || t.acked then closeTxn line s
  else if t.member.any fun n => memberLost t.group n s then catEnqueue line .fix (closeTxn line s)
  else putTxn line { t with awaitAck := true } s

/-- Complete a transaction without a grant (R129): the entry stays as it is. -/
def failTxn (line : Nat) (t : CatTxn) (status : Nat) (s : Part) : Part :=
  match t.item with
  | .request m =>
    let (op, len) := if m.op.toNat ∈ [0x20, 0x21, 0x22] || t.dataOp = 0x3B then (t.dataOp, 128) else responseOp m
    let s := emit (mkResponse m op len status 0 [] false) (keepFailure m status s)
    closeTxn line (if status = stRetryLater then s else raiseNotice m status m.dstPart.toNat m.dstPort.toNat 0 s)
  | _ => closeTxn line s

/-- Write a line of a catalogue extent to memory and to its twin, with the answer that waits for the twin; `none` where
R395 refuses the write. -/
def writeCat (line : Nat) (bytes : List Byte) (poison : Bool) (answer : Option Msg) (s : Part) : Option Part :=
  match writeRequest (extentAt (line / linesPerExtent) s) line (line % linesPerExtent) bytes poison s with
  | none => none
  | some s =>
    some (match twinOf line s with
      | some t => sendThrough 0x117 t line bytes poison (isBound line s) .request answer s
      | none => match answer with
        | some a => emit a s
        | none => s)

/-- Put data that a snoop returned into memory, where there is any. -/
def keepDirty (line : Nat) (t : CatTxn) (s : Part) : Part :=
  match t.dirty with
  | some d => (writeCat line d false none s).getD s
  | none => s

/-- Give the requester data and its state. -/
def giveData (line : Nat) (t : CatTxn) (bytes : List Byte) (s : Part) : Part :=
  match t.item with
  | .request m => grantTxn line t (emit (mkResponse m t.dataOp 128 stOK 0 bytes false) s)
  | _ => closeTxn line s

/-- Data from memory for a transaction (R129). -/
def giveMemory (line : Nat) (t : CatTxn) (s : Part) : Part :=
  let (st, bytes, s) := readLine (extentAt (line / linesPerExtent) s) line (line % linesPerExtent)
    (txnReq t line s).srcPort.toNat s
  if st = stOK then giveData line t bytes s else failTxn line t st s

/-- A line whose holder is lost with its data (R135): POISON, or the memory copy under REVERT. -/
def crashLine (line : Nat) (t : CatTxn) (member : Nat) (s : Part) : Part :=
  if t.poisonMode then catEvent 2 t.group member (catAddr line s) (setDir line .poison [] s) else setDir line .i [] s

/-- Perform a write or home atomic of a transaction in memory (R126, R128). -/
def performCat (line : Nat) (t : CatTxn) (s : Part) : Part :=
  match t.item with
  | .request m =>
    let ended (new old : List Byte) (s : Part) : Part :=
      let a := okAnswer m old
      match writeCat line new false (some a) s with
      | none => failTxn line t stUnsupported s
      | some s => grantTxn line t (keepAtomic m a s)
    if m.op.toNat = 0x03 then ended (sliceBytes m.data 0 128) [] s
    else
      match t.dirty with
      | some d => let (new, old) := updatedLine m d; ended new old s
      | none =>
        let (st, bytes, s) := readLine (extentAt (line / linesPerExtent) s) line (line % linesPerExtent) 0x1FF s
        if st = stOK then let (new, old) := updatedLine m bytes; ended new old s else failTxn line t st s
  | _ => closeTxn line s

/-- What is left of an entry once a member is off it, or once every holder is (R137, R141). -/
def dropped (member : Option Nat) (d : DirEntry) : DirEntry :=
  match member with
  | none => withPtrs .i [] d
  | some n =>
    let rest := (ptrsOf d).filter fun k => k ≠ n
    if d.dstate ∈ [.e, .o, .bcO] && d.p0 = some n then
      if d.dstate = .bcO then withPtrs .bcS [] d
      else if d.dstate = .o then withPtrs .s rest d
      else withPtrs .i [] d
    else if d.dstate = .bcO then d
    else withPtrs d.dstate rest d

/-- End the part's own work on a line (R135, R137, R141). -/
def endOwn (line : Nat) (t : CatTxn) (s : Part) : Part :=
  let s := keepDirty line t s
  match t.item with
  | .drop m => closeTxn line (putDir line (dropped m (dirAt line s)) s)
  | .scan => closeTxn line (putDir line (withPtrs .i [] (dirAt line s)) s)
  | _ =>
    -- resolution of a lost P0: data fetched from a sharer, or none
    if t.dirty.isSome then
      let left (n : Nat) : Bool := some n ≠ t.supplier && !memberLost t.group n s && n ∉ t.lost
      closeTxn line (setDir line .s ((t.ptrs.drop 1).filter left) s)
    else closeTxn line (crashLine line t (t.ptrs.headD 0) s)

/-- Is P0's data lost to a transaction (R135, R136)? -/
def dataLost (t : CatTxn) : Bool :=
  t.found ∈ [.e, .o, .bcO] && t.dirty.isNone && !t.forwarded &&
  match t.ptrs.head? with
  | some p => p ∈ t.lost
  | none => false

/-- Sharers that can still give the data of an O line whose P0 is lost (R135). -/
def sharersLeft (t : CatTxn) : List Nat :=
  if t.found = .o then (t.ptrs.drop 1).filter fun n => n ∉ t.lost else []

/-- The sharer to ask next for the data of a lost P0, where one that was asked had none (R135): S pointers are a superset (R124). -/
def nextSharer (t : CatTxn) : Option Nat :=
  if t.item = .fix && t.dirty.isNone && dataLost t then (sharersLeft t).head? else none

/-- The part's own work for a read, a purge or a removal whose P0 is lost with its data (R135, R136), and the snoops that begin it:
what it was begun for waits again behind it. Where a sharer holds the data, it is fetched; where the sharers are not known, all are
invalidated. -/
def rescueTxn (line : Nat) (t : CatTxn) (s : Part) : CatTxn × List (Nat × Nat) × Part :=
  let s := onCatalogue (fun c => { c with waiting := tset c.waiting line (t.item :: tget c.waiting line []) }) s
  let own := { t with item := .fix, fin := .own, snoops := [], dirty := none, forwarded := false, awaitAck := false, acked := false, held := false }
  match sharersLeft t with
  | n :: _ => ({ own with supplier := some n }, [(n, 0x2A)], s)
  | [] => (own, if t.found = .bcO then (activeMembers t.group s).map fun n => (n, 0x29) else [], s)

/-- Act on a transaction whose snoops have all been answered (R126 to R129, R135). -/
def actTxn : Nat → Nat → CatTxn → Part → Part
  | 0, line, t, s => putTxn line t s
  | k + 1, line, t, s =>
    if !t.snoops.isEmpty then putTxn line t s
    else if (t.fin = .perform || t.dirty.isSome) && throughBusy 0x117 line s then putTxn line { t with held := true } s
    else if t.fin = .own then
      if t.fetchTag.isSome && t.forwarded && t.dirty.isNone then putTxn line t s
      else
        match nextSharer t, t.item with
        | some n, _ =>
          let (t, s) := sendSnoop line { t with supplier := some n, fetchTag := none } n 0x2A s
          actTxn k line t s
        | none, .drop _ =>
          if dataLost t then
            let (t, snoops, s) := rescueTxn line t s
            let (t, s) := sendSnoops line snoops t s
            actTxn k line t s
          else endOwn line t s
        | none, _ => endOwn line t s
    else
      let op : Nat := match t.item with
        | .request m => m.op.toNat
        | _ => 0
      if dataLost t then
        if op = 0x01 || op = 0x20 then
          let (t, snoops, s) := rescueTxn line t s
          let (t, s) := sendSnoops line snoops t s
          actTxn k line t s
        else if t.poisonMode then failTxn line t stPoison (crashLine line t (t.ptrs.headD 0) s)
        else if t.fin = .perform then performCat line t s
        else giveMemory line t s
      else
        match t.fin with
        | .grant =>
          match t.item with
          | .request m => grantTxn line t (emit (mkResponse m 0x31 0 stOK 1 [] false) s)
          | _ => closeTxn line s
        | .perform => performCat line t s
        | .shared =>
          -- RD_SHARED on an E line: the next state follows P0's answer
          let p0 := t.ptrs.headD 0
          let r := t.member.toList
          if t.forwarded then
            grantTxn line { t with next := some (if t.p0After = 2 then (.o, p0 :: r) else if t.p0After = 1 then (.s, p0 :: r) else (.e, r)) } s
          else if t.p0After = 0 then giveMemory line { t with next := some (.e, r), dataOp := 0x39 } s
          else giveMemory line { t with next := some (.s, p0 :: r) } s
        | _ =>
          if t.forwarded then grantTxn line t s
          else
            match t.dirty with
            | some d => giveData line t d (keepDirty line t s)
            | none =>
              if t.found ∈ [.o, .bcO] && t.supplier.isSome && t.supplier ≠ t.ptrs.head? && !t.retried then
                match t.ptrs.head? with
                | some p =>
                  let (t, s) := sendSnoop line { t with retried := true } p t.supplyOp s
                  actTxn k line t s
                | none => giveMemory line t s
              else giveMemory line t s

/-! ### The beginning of a transaction -/

/-- The holder that supplies a read (R130): the candidate at least distance, the lowest number on a tie. DESIGN CHOICE, log 81: a
requester that a pointer names is itself no candidate. -/
def nearest (cands : List Nat) (r : Option Nat) (group reqPart : Nat) (s : Part) : Option (Nat × Nat) :=
  let dist (n : Nat) : Option Nat := (catMember group n s).map fun c =>
    if c.part = reqPart then 0 else distTo reqPart s + distTo c.part s
  (cands.filter fun n => some n ≠ r).foldl (fun best n =>
    match dist n, best with
    | some d, none => some (n, d)
    | some d, some b => if d < b.2 || (d = b.2 && n < b.1) then some (n, d) else some b
    | none, b => b) none

/-- The supplier of a read: in S memory supplies unless a sharer is strictly nearer and NEAREST is set (R130). -/
def supplierOf (region : CatRegion) (d : DirEntry) (r : Option Nat) (reqPart : Nat) (s : Part) : Option Nat :=
  match d.dstate with
  | .s =>
    match nearest (ptrsOf d) r region.group reqPart s with
    | some (n, k) => if region.nearest && k < distTo reqPart s then some n else none
    | none => none
  | .o =>
    match nearest (ptrsOf d) r region.group reqPart s with
    | some (n, _) => some n
    | none => d.p0
  | .e | .bcO => d.p0
  | _ => none

/-- The predictor after an atomic (R132). -/
def predAfter (d : DirEntry) (r : Option Nat) (contended : Bool) : Nat :=
  if contended || (d.dstate ∈ [.e, .o, .bcO] && d.p0 ≠ r) then min 3 (d.pred + 1) else d.pred - 1

/-- Is an atomic near (R131)? -/
def nearAtomic (region : CatRegion) (opset pred : Nat) (member : Option CatMember) : Bool :=
  match member with
  | none => false
  | some c =>
    opset = 3 && c.state = .active && c.nearAt &&
    (region.predMode = .near || (region.predMode = .adaptive && pred ≤ 1))

/-- An empty transaction on a line. -/
def newTxn (item : CatItem) (region : CatRegion) (d : DirEntry) (member : Option Nat) : CatTxn :=
  { item := item, member := member, group := region.group, poisonMode := !region.revert, found := d.dstate,
    ptrs := ptrsOf d, fin := .data, dataOp := 0x81, next := none, needsAck := false, snoops := [], supplier := none,
    supplyOp := 0, fetchTag := none, retried := false, dirty := none, forwarded := false, p0After := 0, lost := [], awaitAck := false, acked := false, held := false }

/-- Everyone to invalidate: the pointers, and every active member in a broadcast state. -/
def holdersOf (region : CatRegion) (d : DirEntry) (s : Part) : List Nat :=
  if d.dstate ∈ [.bcS, .bcO] then (activeMembers region.group s ++ (ptrsOf d).filter fun n => !memberActive region.group n s)
  else ptrsOf d

/-- Pointers with the requester added, where it is listed or one is free (R126). -/
def addPtr (ps : List Nat) (r : List Nat) : Option (List Nat) :=
  match r with
  | [n] => if n ∈ ps then some ps else if ps.length < 4 then some (ps ++ [n]) else none
  | _ => some ps

/-- The snoops that open a transaction, and how it will end (R126). `op` is the request's, with UPGRADE and RD_OWN already
told apart by R120 and R127. -/
def planTxn (op : Nat) (near : Bool) (region : CatRegion) (d : DirEntry) (reqPart : Nat) (t : CatTxn) (s : Part) :
    CatTxn × List (Nat × Nat) :=
  let r := t.member
  let rl := r.toList
  let all := holdersOf region d s
  let sup := supplierOf region d r reqPart s
  let ask (op : Nat) (x : Option Nat) : List (Nat × Nat) := x.toList.map fun n => (n, op)
  let inv (ns : List Nat) : List (Nat × Nat) := ns.map fun n => (n, 0x29)
  if op = 0x01 then
    ({ t with dataOp := 0x81, supplier := sup, supplyOp := 0x2B }, ask 0x2B sup)
  else if op = 0x20 then
    let t := { t with needsAck := true, dataOp := 0x38, supplyOp := 0x28 }
    match d.dstate with
    | .i | .poison => ({ t with dataOp := 0x39, next := some (.e, rl) }, [])
    | .s =>
      match addPtr (ptrsOf d) rl with
      | some ps => ({ t with next := some (.s, ps), supplier := sup }, ask 0x28 sup)
      | none => ({ t with next := some (.bcS, []) }, [])
    | .e =>
      if d.p0 = r then ({ t with dataOp := 0x39, next := some (.e, rl) }, [])
      else ({ t with fin := .shared, supplier := d.p0 }, ask 0x28 d.p0)
    | .o =>
      match addPtr (ptrsOf d) rl with
      | some ps => ({ t with next := some (.o, ps), supplier := sup }, ask 0x28 sup)
      | none => ({ t with next := some (.bcO, d.p0.toList), supplier := sup }, ask 0x28 sup)
    | .bcS => (t, [])
    | .bcO => ({ t with supplier := d.p0 }, ask 0x28 d.p0)
  else if op = 0x21 then
    let t := { t with needsAck := true, dataOp := 0x3A, supplyOp := 0x2A, next := some (.e, rl) }
    let sup := if d.dstate = .bcS || (d.dstate = .e && d.p0 = r) then none else sup
    ({ t with supplier := sup },
      ask 0x2A sup ++ (if d.dstate = .e then [] else inv (all.filter fun n => some n ≠ r && some n ≠ sup)))
  else if op = 0x22 then
    ({ t with needsAck := true, fin := .grant, dataOp := 0x3A, next := some (.e, rl) }, inv (all.filter fun n => some n ≠ r))
  else if near then
    ({ t with needsAck := true, dataOp := 0x3B, next := some (.e, rl) }, inv (all.filter fun n => some n ≠ r))
  else ({ t with fin := .perform, next := some (.i, []) }, inv all)

/-- UPGRADE and RD_OWN as the home handles them (R120, R126, R127). -/
def effectiveOp (op : Nat) (d : DirEntry) (r : Option Nat) : Nat :=
  let listed := (match r with | some n => n ∈ ptrsOf d | none => false)
  if op = 0x22 && (!listed || d.dstate = .bcS || d.dstate = .e || d.dstate = .i) then 0x21
  else if op = 0x21 && (d.dstate = .o || d.dstate = .bcO) && d.p0 = r then 0x22
  else op

/-- A write-back (R126): from the M or O holder it is written; from another agent it is STALE. -/
def writeBack (line : Nat) (m : Msg) (region : CatRegion) (d : DirEntry) (s : Part) : Part :=
  let r := memberOf region.group m.srcPart.toNat m.srcPort.toNat s
  if d.dstate ∈ [.e, .o, .bcO] && r.isSome && d.p0 = r then
    match writeCat line (sliceBytes m.data 0 128) (poisons m) (some (mkResponse m 0x31 0 stOK 0 [] false)) s with
    | none => refuse m stUnsupported s
    | some s =>
      putDir line (withPtrs (if d.dstate = .e then .i else if d.dstate = .o then .s else .bcS)
        (if d.dstate = .o then (ptrsOf d).drop 1 else []) d) s
  else count 6 0 64 1 (emit (mkResponse m 0x31 0 stOK 2 [] false) s)

/-- May the agent send this catalogue request (R114)? A member in REMOVING counts as a non-member. -/
def agentMay (m : Msg) (group : Nat) (s : Part) : Bool :=
  let n := memberOf group m.srcPart.toNat m.srcPort.toNat s
  let st : Option MemberState := match n with
    | some k => (catMember group k s).map (·.state)
    | none => none
  let op := m.op.toNat
  if st = some .lost then false
  else if op ∈ [0x20, 0x21, 0x22] then st = some .active
  else if op = 0x01 then m.na
  else true

/-- Does a line name a lost member, so that it must be resolved first (R135)? -/
def needsFix (region : CatRegion) (d : DirEntry) (s : Part) : Bool := (ptrsOf d).any fun n => memberLost region.group n s

/-- Begin the resolution of a line that a lost member holds (R135). A sharer that is to give its data is asked with
SNP_INV_FWD naming the home, since R123 gives SNP_INV no data from S: DEDUCED. -/
def beginFix (line : Nat) (region : CatRegion) (d : DirEntry) (s : Part) : Part :=
  let t := { newTxn .fix region d none with fin := .own }
  let lostP0 : Bool := match d.p0 with | some n => memberLost region.group n s | none => false
  let alive := (ptrsOf d).filter fun n => !memberLost region.group n s
  if d.dstate = .s then setDir line .s alive s
  else if d.dstate ∈ [.o, .bcO] && !lostP0 then setDir line d.dstate alive s
  else if d.dstate = .o then
    match alive with
    | [] => crashLine line t (d.p0.getD 0) s
    | n :: _ =>
      let s := putDir line { d with busy := true } s
      let (t, s) := sendSnoops line [(n, 0x2A)] { t with supplier := some n } s
      actTxn 8 line t s
  else if d.dstate = .bcO then
    let s := putDir line { d with busy := true } s
    let (t, s) := sendSnoops line ((activeMembers region.group s).map fun n => (n, 0x29)) t s
    actTxn 8 line t s
  else if d.dstate = .e then crashLine line t (d.p0.getD 0) s
  else s

/-- Begin a request on a line that is not busy (R126). -/
def beginRequest (line : Nat) (m : Msg) (region : CatRegion) (contended : Bool) (s : Part) : Part :=
  let d := dirAt line s
  let op := m.op.toNat
  let x := extentAt (line / linesPerExtent) s
  let r := (memberOf region.group m.srcPart.toNat m.srcPort.toNat s).filter fun n => memberActive region.group n s
  if !agentMay (asRequester m) region.group s then refuse m stUnsupported s
  else if op = 0x23 then writeBack line m region d s
  else
    let pred := if isAtomic op then predAfter d r contended else d.pred
    let near := isAtomic op && nearAtomic region x.opset pred (r.bind fun n => catMember region.group n s)
    let d := { d with pred := pred }
    let s := putDir line d s
    let eop := effectiveOp op d r
    let t := newTxn (.request m) region d r
    let (t, snoops) := planTxn eop near region d m.srcPart.toNat t s
    if d.dstate = .poison && op ≠ 0x03 then failTxn line t stPoison s
    else
      let s := putDir line { d with busy := true } s
      let s := if d.dstate ∈ [.bcS, .bcO] && 1 < snoops.length then count 6 0 2 1 s else s
      let (t, s) := sendSnoops line snoops t s
      actTxn 8 line t s

/-- Is a line one of those that REMOVE_MEMBER's walk invalidates (R137)? -/
def removeTouches (n : Nat) (d : DirEntry) : Bool := d.dstate ∈ [.bcS, .bcO] || n ∈ ptrsOf d

/-- Is the work on a line a request, rather than the part's own? -/
def isRequest : CatItem → Bool
  | .request _ => true
  | _ => false

/-- Begin what waits for a line (R121). -/
def beginItem (line : Nat) (item : CatItem) (contended : Bool) (s : Part) : Part :=
  let s := lookUpDir line s
  let d := dirAt line s
  match regionOfLine line s with
  | none =>
    match item with
    | .request m => refuse m stUnsupported s
    | _ => s
  | some region =>
    let own (targets : List Nat) : Part :=
      let s := putDir line { d with busy := true } s
      let t := { newTxn item region d none with fin := .own }
      let (t, s) := sendSnoops line (targets.map fun n => (n, 0x29)) t s
      actTxn 8 line t s
    match item with
    | .fix => if needsFix region d s then beginFix line region d s else s
    | .drop (some n) => if removeTouches n d then own [n] else s
    | .drop none => if !dirHolds d then s else own (holdersOf region d s)
    | .scan => own (activeMembers region.group s)
    | .request m =>
      if needsFix region d s then
        let again := tget s.cat.waiting line []
        beginFix line region d (onCatalogue (fun c => { c with waiting := tset c.waiting line (.request m :: again) }) s)
      else beginRequest line m region contended s

/-- Must waiting work, a write-back, wait for another agent's write-through of the line (R422)? -/
def itemHeld (line : Nat) (item : CatItem) (s : Part) : Bool :=
  match item with
  | .request m => m.op = 0x23 && throughBusy 0x117 line s
  | _ => false

/-- The first line that has work waiting and no transaction open. -/
def readyLine (s : Part) : Option Nat :=
  (s.cat.waiting.find? fun p => (p.2.head?.any fun i => !itemHeld p.1 i s) && !thas s.cat.txns p.1).map (·.1)

/-- A transaction whose write to memory need wait no longer goes on (R422). -/
def heldTxn (s : Part) : Option (Nat × CatTxn) := s.cat.txns.find? fun p => p.2.held && !throughBusy 0x117 p.1 s

/-- Go on with a transaction that another agent's write-through has held, or begin the next waiting work of a line (R121). -/
def pumpCat (s : Part) : Option Part :=
  match heldTxn s, readyLine s with
  | some (line, t), _ => some (actTxn 8 line { t with held := false } s)
  | none, none => none
  | none, some line =>
    match tget s.cat.waiting line [] with
    | [] => none
    | item :: rest =>
      let s := onCatalogue (fun c =>
        { c with waiting := if rest.isEmpty then tdel c.waiting line else tset c.waiting line rest }) s
      some (beginItem line item (rest.any isRequest) s)

/-- Transactions and waiting requests of the part (R122): the part's own work on lines is none of them. -/
def catLoad (s : Part) : Nat :=
  (s.cat.txns.filter fun p => isRequest p.2.item).length + s.cat.waiting.foldl (fun n p => n + (p.2.filter isRequest).length) 0

/-- A request to a catalogue extent that has passed R30 (R111, R112, R121, R122). -/
def catRequest (m : Msg) (s : Part) : Part :=
  let line := field m.addr.toNat 45 7
  let e := extOf m.addr.toNat
  match catRegionOf (extentAt e s).object s with
  | none => refuse m stUnsupported s
  | some _ =>
    if e ∈ s.cat.initBusy then refuse m stRetryLater s
    else if 16384 ≤ catLoad s then refuse m stRetryLater s
    else catEnqueue line (.request m) s

/-! ### Answers of members -/

/-- The transaction and line that await a snoop answer with this tag. -/
def snoopTxn (tag : Nat) (s : Part) : Option (Nat × CatTxn × SnoopWait) :=
  s.cat.txns.findSome? fun p => (p.2.snoops.find? fun w => w.tag = tag).map fun w => (p.1, p.2, w)

/-- Does a member's answer pass the gallery check (R114)? One that does not is discarded: it has no completion. -/
def answerFits (line : Nat) (m : Msg) (s : Part) : Bool :=
  let g := (extentAt (line / linesPerExtent) s).gallery
  m.gallery.toNat = g && galleryActive g s

/-- A snoop answer (R118, R123): SNP_RSP, SNP_DATA, or data forwarded to the home itself (R135). A sharer that answers the part's own
work without data holds no copy. -/
def snoopAnswer (m : Msg) (s : Part) : Part :=
  match snoopTxn m.tag.toNat s with
  | none => count 6 0 65 1 s
  | some (line, t, w) =>
    let fwd := bitAt m.aux.toNat 2
    let t := { t with snoops := t.snoops.erase w }
    let t :=
      if m.op.toNat = 0x3C then { t with dirty := some (sliceBytes m.data 0 128) }
      else
        { t with
          forwarded := t.forwarded || fwd
          p0After := if some w.member = t.ptrs.head? then m.aux.toNat % 4 else t.p0After
          ptrs := if t.fin = .own && !fwd && some w.member ≠ t.ptrs.head? then t.ptrs.filter fun n => n ≠ w.member else t.ptrs }
    if answerFits line m s then actTxn 8 line t s else s

/-- Data that a holder forwarded to the home itself, which fetches it for a lost P0 (R135). -/
def fetchedData (m : Msg) (s : Part) : Part :=
  match s.cat.txns.find? fun p => p.2.fetchTag = some m.tag.toNat && p.2.dirty.isNone with
  | none => count 6 0 65 1 s
  | some (line, t) => actTxn 8 line { t with dirty := some (sliceBytes m.data 0 128) } s

/-- CMP_ACK closes the transaction of the request whose tag and part it carries, and whose agent is at the port it came by where
this part is the requester's (R118, R121). A requester sends it as soon as it has the data (R120), so that it can come before the last
snoop is answered: the transaction then closes with that answer. -/
def cmpAck (m : Msg) (s : Part) : Part :=
  let matches_ (t : CatTxn) : Bool := t.needsAck && !t.acked &&
    match t.item with
    | .request r => r.tag = m.tag && r.srcPart = m.srcPart && (m.srcPart.toNat ≠ myPart s || r.srcPort = m.srcPort)
    | _ => false
  match s.cat.txns.find? fun p => matches_ p.2 with
  | none => count 6 0 65 1 s
  | some (line, t) =>
    if !answerFits line m s then s
    else if t.awaitAck then closeTxn line s
    else putTxn line { t with acked := true } s

/-- Is a member a sharer of an entry: any pointer in S, P1 to P3 in O (R124)? -/
def isSharer (n : Nat) (d : DirEntry) : Bool := (d.dstate = .s && n ∈ ptrsOf d) || (d.dstate = .o && n ∈ (ptrsOf d).drop 1)

/-- A snoop that is never answered (R135, R136). A sharer's pointer is cleared, in the entry and in what the transaction leaves. -/
def snoopLost (line : Nat) (t : CatTxn) (w : SnoopWait) (s : Part) : Part :=
  let d := dirAt line s
  let others (ps : List Nat) : List Nat := ps.filter fun n => n ≠ w.member
  let t := { t with snoops := t.snoops.erase w, lost := t.lost ++ [w.member] }
  if isSharer w.member d then
    actTxn 8 line { t with ptrs := others t.ptrs, next := t.next.map fun p => (p.1, others p.2) }
      (putDir line (withPtrs d.dstate (others (ptrsOf d)) d) s)
  else actTxn 8 line t s

end Sys2Proof.Machine
end

