-- ==== Sys2Proof/Machine/ChuDesc.lean ====
section
/-!
DEFINITION. The channel-unit descriptor (R276), its validity (R278), its operand ranges, and the requests that a running
command holds (R282).
-/

namespace Sys2Proof.Machine

/-- Word `w` of a descriptor, bits `hi` to `lo`. -/
def descField (d : List Nat) (w hi lo : Nat) : Nat := field (d.getD w 0) hi lo

/-- Fields of the channel-unit descriptor (R276). -/
def chuOp (d : List Nat) : Nat := descField d 0 1 0
def chuAct (d : List Nat) : Nat := descField d 0 3 2
def chuFmtA (d : List Nat) : Nat := descField d 0 5 4
def chuFmtB (d : List Nat) : Nat := descField d 0 7 6
def chuFmtD (d : List Nat) : Nat := descField d 0 9 8
def chuGallery (d : List Nat) : Nat := descField d 0 12 10
def chuExt (d : List Nat) : Nat := descField d 0 31 14
def chuN (d : List Nat) : Nat := descField d 0 59 32
def chuOffA (d : List Nat) : Nat := descField d 1 27 0
def chuOffB (d : List Nat) : Nat := descField d 1 59 32
def chuOffD (d : List Nat) : Nat := descField d 2 27 0
def chuEpoch (d : List Nat) : Nat := descField d 2 47 32
def chuAlpha (d : List Nat) : Nat := descField d 3 31 0
def chuBeta (d : List Nat) : Nat := descField d 3 63 32
def chuPart (d : List Nat) : Nat := descField d 4 11 0
def chuPort (d : List Nat) : Nat := descField d 4 20 12

/-- Bytes of an element: FP32, BF16, FP16. -/
def chuSize (fmt : Nat) : Nat := if fmt = 0 then 4 else 2

/-- Does the command read a B operand? -/
def chuHasB (d : List Nat) : Bool := chuOp d ≠ 2

/-- The element at which an operand reaches the next 16 KiB boundary, a row of one bank, from element `e` on (R286). An extent
starts on such a boundary of channel address (R275). -/
def nextRow (off fmt e : Nat) : Nat := (((off + e * chuSize fmt) / 16384 + 1) * 16384 - off) / chuSize fmt

/-- Where the segment that element `e` lies in ends, for every operand at once (R286). -/
def segmentEnd (d : List Nat) (e : Nat) : Nat :=
  let ad := min (nextRow (chuOffA d) (chuFmtA d) e) (nextRow (chuOffD d) (chuFmtD d) e)
  min (chuN d) (if chuHasB d then min ad (nextRow (chuOffB d) (chuFmtB d) e) else ad)

/-- Segments that end between two elements. -/
def segmentsEnded (d : List Nat) : Nat → Nat → Nat → Nat
  | 0, _, _ => 0
  | n + 1, start, stop => if start < stop && segmentEnd d start ≤ stop then 1 + segmentsEnded d n (segmentEnd d start) stop else 0

/-- Byte ranges of A, B and D in the extent: start and end (R278). -/
def chuRangeA (d : List Nat) : Nat × Nat := (chuOffA d, chuOffA d + chuN d * chuSize (chuFmtA d))
def chuRangeB (d : List Nat) : Nat × Nat :=
  if chuHasB d then (chuOffB d, chuOffB d + chuN d * chuSize (chuFmtB d)) else (0, 0)
def chuRangeD (d : List Nat) : Nat × Nat := (chuOffD d, chuOffD d + chuN d * chuSize (chuFmtD d))

/-- Do two byte ranges overlap? -/
def overlap (a b : Nat × Nat) : Bool := a.1 < b.2 && b.1 < a.2

/-- Is the descriptor valid (R276, R278)? -/
def chuValid (d : List Nat) : Bool :=
  chuOp d ≠ 3 && chuFmtA d ≠ 3 && chuFmtB d ≠ 3 && chuFmtD d ≠ 3 &&
  descField d 0 13 13 = 0 && descField d 0 63 60 = 0 && descField d 1 31 28 = 0 && descField d 1 63 60 = 0 &&
  descField d 2 31 28 = 0 && descField d 2 63 48 = 0 && descField d 4 63 21 = 0 &&
  (d.drop 5).all (· = 0) &&
  1 ≤ chuN d && chuN d ≤ 134217728 &&
  chuOffA d % 128 = 0 && chuOffB d % 128 = 0 && chuOffD d % 128 = 0 &&
  (chuHasB d || (chuFmtB d = 0 && chuOffB d = 0)) &&
  (chuRangeA d).2 ≤ 2 ^ 28 && (chuRangeB d).2 ≤ 2 ^ 28 && (chuRangeD d).2 ≤ 2 ^ 28 &&
  (!overlap (chuRangeD d) (chuRangeA d) || (chuOffD d = chuOffA d && chuFmtD d = chuFmtA d)) &&
  (!chuHasB d || !overlap (chuRangeD d) (chuRangeB d) || (chuOffD d = chuOffB d && chuFmtD d = chuFmtB d))

/-- Is a line touched by a byte range? -/
def lineIn (line : Nat) (r : Nat × Nat) : Bool := overlap (line * 128, line * 128 + 128) r

/-- Does a running command hold a request to a line of its extent (R282)? -/
def chuHoldsLine (e line : Nat) (store : Bool) (s : Part) : Bool :=
  s.chu.cmds.any fun c => c.running && chuExt c.desc = e &&
    if store then lineIn line (chuRangeA c.desc) || lineIn line (chuRangeB c.desc) || lineIn line (chuRangeD c.desc)
    else lineIn line (chuRangeD c.desc)

end Sys2Proof.Machine
end

