-- ==== Sys2Proof/Machine/SystemRegion.lean ====
section
/-!
DEFINITION. The tables that the part keeps in its system region (R417), and what a stand-in finds in the failed part's (R430 step 3). The
layout of that region is not in the spec, so its lines are an opaque function of the tables, and the tables read from its bytes are an
opaque function of those (log entry 25).
-/

namespace Sys2Proof.Machine

/-- The tables of the system region (R417, second column) that a stand-in takes over. Routes and path salts say where a
part's own ports lead, and the hold table stands for copies in the part's own extents: the stand-in keeps its own. -/
structure SystemTables where
  extents    : Table Extent
  objects    : Table ObjectEntry
  owners     : List OwnerEntry
  editions   : List EditionRegion
  spares     : List SparePool
  leases     : List Lease
  catRegions : List CatRegion
  members    : Table CatMember
  dir        : Table (BitVec 64)
  dirInit    : Table Nat
  foldSlots  : Table FoldSlot
  groups     : Table (BitVec 64)
  mcMembers  : Table (BitVec 64)
  deriving DecidableEq, Repr, Inhabited

/-- The tables of R417's second column. -/
structure BackedTables where
  taken  : SystemTables
  loans  : Table Loan
  routes : Table Route × Table Route
  salts  : List Word32
  holds  : Table HoldEntry
  deriving DecidableEq, Repr, Inhabited

/-- The part's tables as they stand. -/
def tablesNow (s : Part) : BackedTables :=
  { taken :=
      { extents := s.pool.extents, objects := s.pool.objects, owners := s.regions.owners, editions := s.regions.editions,
        spares := s.regions.spares, leases := s.regions.leases, catRegions := s.cat.regions, members := s.cat.members, dir := s.cat.dir,
        dirInit := s.cat.dirInit, foldSlots := s.cmp.slots, groups := s.clv.groups, mcMembers := s.clv.members }
    loans := s.pool.loans, routes := (s.pool.routeParts, s.pool.routePorts), salts := s.pool.salts, holds := s.flr.holds }

/-- The lines of the system region that hold some tables: their places in it, and their bytes. -/
opaque systemLines (t : BackedTables) : List (Nat × List Byte)

/-- The tables of part `h` as read from the bytes of its system region. -/
opaque systemTables (h : Nat) (region : List Host.Cell) : SystemTables

end Sys2Proof.Machine
end

