-- ==== Sys2Proof/Machine/StandIn.lean ====
section
/-!
DEFINITION. The stand-in's side of R430 to R434: what the copies that twins send do, the loading of the failed part's
tables, and the comparison of each extent with its twin.
-/

namespace Sys2Proof.Machine

/-- The record of an extent of the failed part; one that has none is not ready. -/
def standExt (e : Nat) (s : Part) : StandInExt :=
  tget s.flr.standExts e { state := .notReady, mismatches := 0, twin := 0, counted := true }

/-- Change the record of an extent of the failed part. -/
def onStandExt (e : Nat) (f : StandInExt → StandInExt) (s : Part) : Part :=
  onRecovery (fun b => { b with standExts := tset b.standExts e { f (standExt e s) with counted := true } }) s

/-- Is the extent in the system region (R21)? -/
def isSystem (e : Nat) (s : Part) : Bool := isTray s && systemFirst s ≤ e && e < workingFirst s

/-- The entry of an extent of the failed part on the stand-in (R431). -/
def adoptedEntry (e : Nat) (x : Extent) : Extent :=
  if x.state = .free then x
  else if inLoanWindow e then { x with state := .lost }
  else if inFlashWindow e then if x.twinValid then x else { Extent.blank with epoch := x.epoch }
  else if x.twinValid then x
  else { x with state := .lost }

/-- The extents of the failed part that wait for their copies, as not ready (R431): mirrored ones in use, and those of a
mirrored edition region's spare pool (R421). -/
def awaitedExts (xs : Table Extent) (s : Part) : Table StandInExt :=
  (xs.filter fun p => p.2.twinValid && (p.2.state ≠ .free || inSpare p.1 s) && p.2.state ≠ .lost && !inLoanWindow p.1).map fun p =>
    (p.1, { state := .notReady, mismatches := 0, twin := p.2.twinPart, counted := true })

/-- Write a line of the part's tables to its system region, and to the region's twin (R417, R422). -/
def writeSystem (s : Part) (w : Nat × List Byte) : Part :=
  let phys := systemFirst s * linesPerExtent + w.1 % (64 * linesPerExtent)
  let bytes := sliceBytes w.2 0 128
  mirrorLine 0x117 phys bytes false false .request (storeLine phys bytes false (partCipher phys s) s)

/-- While the system region has a twin, the lines of it that a change of the tables alters are written (R417, R421, R422). Without a
twin nothing outside the part sees them, and the model keeps the tables alone. -/
def pumpSystem (s : Part) : Option Part :=
  let lines := systemLines (tablesNow s)
  if !s.flr.sysValid || !isTray s || !running s || lines = s.flr.sysLines then none
  else
    let s := (lines.filter fun w => w ∉ s.flr.sysLines).foldl writeSystem s
    some (onRecovery (fun b => { b with sysLines := lines }) s)

/-- Load the failed part's tables from its system region (R430 step 3, R431). -/
def loadTables (s : Part) : Part :=
  let lo := systemFirst s * 2 ^ 28
  let hi := workingFirst s * 2 ^ 28
  let t := systemTables s.flr.forPart (s.dram.memory.cells.filter fun c => decide (lo ≤ c.1) && decide (c.1 < hi))
  let xs := ((canonical t.extents).filter fun p => !isReserved p.1 s).map fun p => (p.1, adoptedEntry p.1 p.2)
  let s := onPool (fun p => { p with extents := xs, objects := canonical t.objects, loans := [] }) s
  let s := onRegions (fun r =>
    { r with owners := t.owners, editions := t.editions, spares := t.spares, leases := t.leases }) s
  let s := onCatalogue (fun c =>
    { c with regions := t.catRegions, members := canonical t.members, dir := canonical t.dir, dirCache := [], dirInit := canonical t.dirInit }) s
  let s := onCompression (fun c => { c with slots := canonical t.foldSlots }) s
  let s := onCollectives (fun c => { c with groups := canonical t.groups, members := canonical t.mcMembers }) s
  onRecovery (fun b =>
    { b with
      tablesIn := true
      standExts := ((awaitedExts xs s).filter fun p => !isSystem p.1 s).foldl (fun t p => tset t p.1 p.2)
        (b.standExts.filter fun p => isSystem p.1 s) }) s

/-- The next extent to compare (R433), if none is being checked. -/
def nextCheck (s : Part) : Option (Nat × StandInExt) :=
  if s.flr.standIn ≠ .compare || s.flr.standExts.any fun p => p.2.state = .checking then none
  else s.flr.standExts.find? fun p => p.2.state = .done && !isSystem p.1 s

/-- Is every extent compared, UNCHECKED or LOST (R430)? -/
def compareOver (s : Part) : Bool :=
  s.flr.standExts.all fun p => isSystem p.1 s || p.2.state ∈ [.compared, .unchecked, .lost]

/-- Send TWIN_CHECK for an extent, after every earlier write-through of the 0x117 stream (R433). -/
def sendCheck (e twin : Nat) (s : Part) : Part :=
  let m : Msg := { Msg.blank with
    op := 0x61, gallery := BitVec.ofNat 3 (extentAt e s).gallery, dstPart := BitVec.ofNat 12 twin, dstPort := 0x117,
    addr := BitVec.ofNat 58 (homePart s * 2 ^ 46 + e * 2 ^ 28) }
  (issueInternal 0x117 m s).2

/-- Go on with the comparison: check the next extent, or queue COMPARE_DONE. -/
def goCompare (s : Part) : Part :=
  match nextCheck s with
  | some (e, c) => sendCheck e c.twin (onStandExt e (fun x => { x with state := .checking }) s)
  | none => if s.flr.standIn = .compare && compareOver s then flrEvent 5 0 s.flr.forPart 0 s else s

/-- Is nothing of the failed part still to be copied? -/
def shadowOver (s : Part) : Bool :=
  s.flr.tablesIn && s.flr.standExts.all fun p => p.2.state ≠ .notReady && p.2.state ≠ .copying

/-- An extent has become DONE, or will never be: when every extent is, SHADOW ends (R430 step 6). -/
def checkShadow (s : Part) : Part :=
  if s.flr.standIn = .shadow && shadowOver s then
    goCompare (flrEvent 4 0 s.flr.forPart 0 (onRecovery (fun b => { b with standIn := .compare }) s))
  else s

/-- Are all extents of the system region DONE? -/
def systemDone (s : Part) : Bool :=
  (List.range 64).all fun i => (standExt (systemFirst s + i) s).state ∈ [.done, .compared]

/-- TWIN_ENTRY for an extent of the failed part: the first opens its copy, the one with DONE closes it (R430 step 5). -/
def standInEntry (m : Msg) (s : Part) : Part :=
  let w := leAt m.data 0 8
  let e := field w 17 0
  let done := bitAt w 63
  let s := onStandExt e (fun c => { c with state := if done then .done else .copying, twin := m.srcPart.toNat }) s
  if isSystem e s then
    if done && !s.flr.tablesIn && systemDone s then checkShadow (loadTables s) else s
  else
    let x := extentAt e s
    let y := { x with
      epoch := BitVec.ofNat 16 (field w 51 36), gallery := field w 54 52, state := extStateOf (field w 58 55),
      cls := extClassOf (field w 60 59), opset := field w 62 61, object := BitVec.ofNat 64 (leAt m.data 8 8),
      ordinal := ordinalOf (BitVec.ofNat 64 (leAt m.data 8 8)) s.flr.forPart e }
    let s := putExtent e y s
    if !done then s
    else if s.flr.standIn = .compare then goCompare s
    else checkShadow s

/-- The pinned anteroom page of a flash-home page of the failed part (R431). -/
def keptPage (page : Nat) (s : Part) : Option Nat × Part :=
  match tget? s.flt.staged page with
  | some g => (some g.room, s)
  | none =>
    match takeRoom s with
    | (none, s) => (none, s)
    | (some r, s) =>
      let g : Staged := { room := r, pins := [], used := s.flt.clock, kept := true }
      (some r, onFlash (fun f => { f with staged := tset f.staged page g }) s)

/-- A line of an extent of the failed part (R430 step 5, R431). -/
def standInLine (m : Msg) (s : Part) : Option Part :=
  let e := extOf m.addr.toNat
  let line := lineOf m.addr.toNat
  let x := extentAt e s
  if isSystem e s then
    let phys := e * linesPerExtent + line
    some (storeLine phys m.data (bitAt m.oparg.toNat 3) (partCipher phys s) s)
  else if inFlashWindow e then
    match keptPage (e * 4096 + line / linesPerPage) s with
    | (none, _) => none
    | (some r, s) => storeCopy x (r * linesPerPage + line % linesPerPage) line m s
  else
    let phys := e * linesPerExtent + line
    let (y, i) := lineUnit phys s
    storeCopy y phys i m s

/-- A copy message of a twin of the failed part. -/
def standInReceives (m : Msg) (s : Part) : Part :=
  let p := m.srcPart.toNat
  let s := onRecovery (fun b => { b with senders := if p ∈ b.senders then b.senders else b.senders ++ [p] }) s
  let s := count 17 0 1 m.data.length s
  if m.op.toNat = 0x60 then standInEntry m (emit (okAnswer m []) s)
  else if m.op.toNat = 0x03 then
    match standInLine m s with
    | some s => emit (okAnswer m []) s
    | none => refuse m stUnsupported s
  else refuse m stUnsupported s

/-- Ask the twin to send an extent again (R433; log entry 54). -/
def askAgain (e twin : Nat) (s : Part) : Part := sendEntry twin (homePart s) e e (extentAt e s) true s

/-- The twin's checksum of an extent that is being checked arrives (R433): equal ends the check; a mismatch copies the extent again, and
the third makes it LOST. -/
def checkAnswered (ext : Nat) (sum : Option Nat) (s : Part) : Part :=
  match s.flr.standExts.find? fun p => p.1 = ext && p.2.state = .checking with
  | none => s
  | some (e, c) =>
    let (own, s) := extentCheck e s
    if sum = some own then goCompare (onStandExt e (fun c => { c with state := .compared }) s)
    else
      let s := count 17 0 65 1 s
      if c.mismatches < 2 then
        goCompare (askAgain e c.twin (onStandExt e (fun c => { c with state := .notReady, mismatches := c.mismatches + 1 }) s))
      else
        let s := onStandExt e (fun c => { c with state := .lost, mismatches := 3 }) s
        goCompare (note 17 2 none .standInLost [e] (putExtent e { extentAt e s with state := .lost } s))

end Sys2Proof.Machine
end

