-- ==== Sys2Proof/Machine/Reseq.lean ====
section
/-!
DEFINITION. Requests at their home: the resequencer (R69, R70, R74), duplicates (R69, R72), what holds a message (R95, R282,
R422, R433), the dispatch of requests for the home's memory and mirror service, and lenders (R31, R62).
-/

namespace Sys2Proof.Machine

/-! ### Lenders (R62) -/

/-- The loan that a loan-window extent belongs to. -/
def loanOf (e : Nat) (s : Part) : Option (Nat × Loan) :=
  s.pool.loans.find? fun p =>
    (p.2.state = .active || p.2.state = .recalling) && 0x3000 + p.2.first ≤ e && e < 0x3000 + p.2.first + p.2.count

/-- A message to the lender of a loan, on the line of a pool address: a tag of the part's own and the lender-side address (R62).
DEDUCED (log entry 23): R57 has 0x1FF as a destination only, and numbers no agent that sends for the home; the answers come to 0x1FF. -/
def toLender (l : Loan) (tag : BitVec 16) (op : Nat) (data : List Byte) (m : Msg) (s : Part) : Part :=
  let e := extOf m.addr.toNat
  let off := m.addr.toNat % 2 ^ 28
  let f := sized (unmarked { m with
    op := BitVec.ofNat 8 op, data := data,
    srcPart := BitVec.ofNat 12 (myPart s), srcPort := 0x1FF, dstPart := BitVec.ofNat 12 (myPart s),
    dstPort := BitVec.ofNat 9 l.lender, tag := tag,
    addr := BitVec.ofNat 58 (l.base.toNat + (e - 0x3000 - l.first) * 2 ^ 28 + off / 128 * 128), oparg := 0, na := false })
  let s := onLinks (fun b => { b with nextTag := tset b.nextTag agPart ((tag.toNat + 1) % 65536) }) s
  toLocalPort l.lender (Entry.own (agentBay m s)) none f (track agPart f s)

/-- Ask the lender for a step of a request (R62): of the line under its encryption (R392). -/
def askLender (step : LenderStep) (cipher : Option Cipher) (op : Nat) (data : List Byte) (m : Msg) (s : Part) : Part :=
  match loanOf (extOf m.addr.toNat) s with
  | none => refuse m stUnsupported s
  | some (i, l) =>
    let tag := freshTag agPart s
    let r : LenderReq :=
      { step := step, cipher := cipher, loan := i, ext := extOf m.addr.toNat, tag := tag, req := m, epoch := m.epoch }
    toLender l tag op data m (onPool (fun p => { p with lenderReqs := p.lenderReqs ++ [r] }) s)

/-- The local page of a pool address. -/
def pageOf (m : Msg) : Nat := extOf m.addr.toNat * pagesPerExtent + lineOf m.addr.toNat / linesPerPage

/-- Must a loan page be re-encrypted under CURRENT before a store to it (R395)? -/
def pageDue (x : Extent) (page : Nat) (s : Part) : Bool :=
  let g := gallery x.gallery s
  g.current.isSome && epochClass (pageTag page s).epoch g ∈ [.previous, .unkeyed]

/-- Does a request for a line at a lender wait: for a request out on the line, for the re-encryption of the line, or, a store, of its page
(R395, R399)? -/
def lenderBusy (x : Extent) (m : Msg) (s : Part) : Bool :=
  let line := lineOf m.addr.toNat
  let store := isStore m.op.toNat
  (s.pool.lenderReqs.any fun r => pageOf r.req = pageOf m && lineOf r.req.addr.toNat = line && (store || r.step ≠ .read)) ||
  (s.pool.loanPages.any fun w => w.page = pageOf m && w.line = line % linesPerPage && (store || w.stage ≠ .due)) ||
  (store && pageDue x (pageOf m) s)

/-- A request for a loan extent (R395): a line is read and written at the lender as ciphertext, and the part itself applies a masked write or
an atomic to it (R392). A store comes here when its page is under CURRENT. -/
def performLoan (x : Extent) (m : Msg) (s : Part) : Part :=
  let line := lineOf m.addr.toNat
  if isStore m.op.toNat then
    match writeKey x (pageOf m) line s with
    | none => refuse m stUnsupported s
    | some (c, _) =>
      if m.op.toNat = 0x03 then askLender .write c 0x03 (rawBytes (sliceBytes m.data 0 128) c) m s
      else askLender .fetch c 0x01 [] m s
  else
    let t := pageTag (pageOf m) s
    match readKey x t.epoch t.split line (asRequester m).srcPort.toNat s with
    | none => refuse m stUnsupported (countNoKey x s)
    | some c => askLender .read c 0x01 [] m s

/-- A lender has done a step of a request: the answer, or the write that follows the read of the old line. -/
def lenderServed (r : LenderReq) (m : Msg) (s : Part) : Part :=
  let plain := readUnder r.cipher (sliceBytes m.data 0 128) none
  let answer (data : List Byte) : Part :=
    let a := okAnswer r.req data
    emit { a with aux := m.aux } (keepAtomic r.req a s)
  match r.step with
  | .read => answer plain
  | .write => answer []
  | .fetch =>
    let (new, old) := updatedLine r.req plain
    askLender (.put old) r.cipher 0x03 (rawBytes new r.cipher) r.req s
  | .put old => answer old

/-! ### Re-encrypting a loan page (R395, R399) -/

/-- The read or write of a line at its page's lender, on the part's own account. -/
def pageMessage (w : LoanPage) (s : Part) : Msg :=
  { Msg.blank with
    srcPart := BitVec.ofNat 12 (myPart s), srcPort := 0x1FF, gallery := BitVec.ofNat 3 (extentAt (w.page / pagesPerExtent) s).gallery,
    addr := BitVec.ofNat 58 (myPart s * 2 ^ 46 + (w.page * linesPerPage + w.line) * 128) }

/-- Change the record of a page's re-encryption. -/
def onLoanPage (page : Nat) (f : LoanPage → LoanPage) (s : Part) : Part :=
  onPool (fun p => { p with loanPages := p.loanPages.map fun w => if w.page = page then f w else w }) s

/-- Begin to re-encrypt a loan page, from its SPLIT on. -/
def startLoanPage (page : Nat) (s : Part) : Part :=
  if s.pool.loanPages.any fun w => w.page = page then s
  else
    let w : LoanPage := { page := page, line := (pageTag page s).split, stage := .due, tag := 0 }
    onPool (fun p => { p with loanPages := p.loanPages ++ [w] }) s

/-- Send a line's read or write to the lender. -/
def sendLoanLine (w : LoanPage) (stage : LoanStage) (op : Nat) (data : List Byte) (s : Part) : Part :=
  match loanOf (w.page / pagesPerExtent) s with
  | none => onPool (fun p => { p with loanPages := p.loanPages.filter fun v => v.page ≠ w.page }) s
  | some (_, l) =>
    let tag := freshTag agPart s
    toLender l tag op data (pageMessage w s) (onLoanPage w.page (fun v => { v with stage := stage, tag := tag }) s)

/-- The first copy of a lender that waits starts, where none of that lender runs (R38) and no line of the
extent is being re-encrypted. -/
def startCopies (s : Part) : Part :=
  let step (acc : List CopyJob) (c : CopyJob) : List CopyJob :=
    if c.running || acc.any (fun d => d.lender = c.lender) || s.pool.copies.any (fun d => d.running && d.lender = c.lender) ||
      s.pool.loanPages.any (fun w => w.page / pagesPerExtent = c.src)
    then acc ++ [c] else acc ++ [{ c with running := true }]
  onPool (fun p => { p with copies := p.copies.foldl step [] }) s

/-- The re-encryption of a page ends; a copy of its extent may have waited for that. -/
def stopLoanPage (page : Nat) (s : Part) : Part :=
  startCopies (onPool (fun p => { p with loanPages := p.loanPages.filter fun v => v.page ≠ page }) s)

/-- A line is done: SPLIT advances, and after the last line the page is tagged CURRENT. An extent that is no longer served leaves its pages as
they stand. -/
def loanLineDone (w : LoanPage) (s : Part) : Part :=
  let x := extentAt (w.page / pagesPerExtent) s
  let t := pageTag w.page s
  match (gallery x.gallery s).current with
  | none => stopLoanPage w.page s
  | some k =>
    if linesPerPage ≤ w.line + 1 then stopLoanPage w.page (setTag w.page k.epoch 0 (count 14 x.gallery 0 1 s))
    else
      let s := setTag w.page t.epoch (w.line + 1) s
      if x.place = .loan && (x.state = .live || x.state = .revoking) then
        onLoanPage w.page (fun v => { v with line := w.line + 1, stage := .due }) s
      else stopLoanPage w.page s

/-- The lender's answer to a line of a page: what was read goes back under CURRENT; a line that it cannot give, or does not take, stays as it
is (DESIGN CHOICE, log entry 23). -/
def loanLineAnswer (w : LoanPage) (m : Msg) (s : Part) : Part :=
  let e := w.page / pagesPerExtent
  let x := extentAt e s
  let g := gallery x.gallery s
  let lineInExt := w.page % pagesPerExtent * linesPerPage + w.line
  let t := pageTag w.page s
  match w.stage, g.current with
  | .reading, some k =>
    match (if m.status.toNat = stOK then readKey x t.epoch t.split lineInExt 0x117 s else none) with
    | some c =>
      let new := some (cipherOf k x.ordinal lineInExt x.object.toNat)
      sendLoanLine w .writing 0x03 (rawBytes (readUnder c (sliceBytes m.data 0 128) none) new) s
    | none => loanLineDone w s
  | _, _ => loanLineDone w s

/-- Go on with the pages that are being re-encrypted, where no request is out on the line that is due. -/
def pumpLoanPages (s : Part) : Option Part :=
  let ready (w : LoanPage) : Bool :=
    w.stage = .due && !(s.pool.lenderReqs.any fun r => pageOf r.req = w.page && lineOf r.req.addr.toNat % linesPerPage = w.line)
  (s.pool.loanPages.find? fun w => ready w).map fun w => sendLoanLine w .reading 0x01 [] s

/-- A lender's answer, or its absence, for a message of the part's own tag. -/
def lenderAnswer (m : Msg) (s : Part) : Part :=
  match s.pool.lenderReqs.find? fun r => r.tag = m.tag with
  | none =>
    match s.pool.loanPages.find? fun w => w.stage ≠ .due && w.tag = m.tag with
    | some w => loanLineAnswer w m s
    | none => count 5 0 64 1 s
  | some r =>
    let s := onPool (fun p => { p with lenderReqs := p.lenderReqs.erase r }) s
    let st := m.status.toNat
    if st = stOK then lenderServed r m s
    else if st = stTimeout then refuseCause r.req st 1 s
    else refuse r.req st s

/-! ### What holds a message -/

/-- Are two messages of one stream? -/
def sameStream (a b : Msg) : Bool := a.srcPart = b.srcPart && a.srcPort = b.srcPort && a.dstPart = b.dstPart

/-- The request of a waiting or open catalogue item. -/
def itemReq : CatItem → Option Msg
  | .request m => some m
  | _ => none

/-- Ordered requests that the home has begun and not yet performed: at a lender or behind snoops. -/
def unperformed (s : Part) : List Msg :=
  (s.pool.lenderReqs.map (·.req)).filter (·.ord) ++
  (s.cat.txns.filterMap fun p => itemReq p.2.item).filter (·.ord) ++
  ((s.cat.waiting.flatMap fun p => p.2.filterMap itemReq)).filter (·.ord)

/-- Is an earlier ordered message of the stream not yet performed (R67)? -/
def streamBusy (m : Msg) (s : Part) : Bool := (unperformed s).any (sameStream m)

/-- Does a check of an extent against its twin hold a store to it (R433)? -/
def compareHolds (e : Nat) (s : Part) : Bool := ((tget? s.flr.standExts e).map (·.state)) = some .checking

/-- Is the message a read or store of the home's memory? -/
def isMemory (m : Msg) : Bool := m.dstPort = 0x1FF && (m.op.toNat = 0x01 || isStore m.op.toNat)


/-- Must a memory request wait: for a running channel-unit command (R282), a check of its extent (R433), another agent's
write-through of its line (R422), a spare page (R95), work on its line at a lender (R395, R399), or the energy of its line (R454)? -/
def memoryHeld (m : Msg) (s : Part) : Bool :=
  let e := extOf m.addr.toNat
  let line := lineOf m.addr.toNat
  let store := isStore m.op.toNat
  isMemory m && accessStatus (asRequester m) s = stOK &&
  (!mayTake (classOf m s) (expedited m) lineCost s ||
   chuHoldsLine e line store s ||
   (let x := extentAt e s; x.place = .loan && x.cls ≠ .catalogue && lenderBusy x m s) ||
   (store && (compareHolds e s || throughBusy 0x117 (physLine e (extentAt e s) (handleSlot m) line s) s ||
      (needsCopy m s && (sparePages (extentAt e s).object s).isEmpty))))

/-! ### Performing -/

/-- A FENCE_MARK is performed (R74, R84): the stream's last fence, and LAST_FENCE of every region that its agent owns. -/
def performMark (key : Nat) (m : Msg) (s : Part) : Part :=
  let no := BitVec.ofNat 24 m.oparg.toNat
  let s := onLinks (fun l =>
    match tget? l.reseq key with
    | some r => { l with reseq := tset l.reseq key { r with lastFence := some no } }
    | none => l) s
  onRegions (fun r => { r with owners := r.owners.map fun o =>
    if o.owned && o.part = m.srcPart.toNat && o.port = m.srcPort.toNat then { o with lastFence := some no } else o }) s

/-- Is it an atomic that a stand-in must not perform again (R432)? -/
def standInRetx (m : Msg) (s : Part) : Bool :=
  m.retx && isAtomic m.op.toNat &&
  ((m.dstPart.toNat ≠ myPart s) || (s.flr.standIn = .taken && s.links.resync))

/-- Has the extent that holds the line been copied, where it is a spare one of the failed part (R421, R430)? -/
def pageReady (m : Msg) (s : Part) : Bool :=
  let e := extOf m.addr.toNat
  homePart s = myPart s ||
  standReady (physLine e (extentAt e s) (handleSlot m) (lineOf m.addr.toNat) s / linesPerExtent) s

/-- The class of a request takes the energy of the line that it reaches (R453). -/
def takeLine (m : Msg) (s : Part) : Part := takes (classOf m s) (expedited m) lineCost s

/-- A request for the home's memory (R79, R110, R333). -/
def performMemory (m : Msg) (s : Part) : Part :=
  let e := extOf m.addr.toNat
  let x := extentAt e s
  let op := m.op.toNat
  if standInRetx m s then refuse m stTimeout s
  else if x.cls = .catalogue && x.state ≠ .free then
    let g := grantStatus (asRequester m) s
    if g = stOK then catRequest m (takeLine m s) else refuse m g s
  else if op ∈ [0x20, 0x21, 0x22, 0x23] then
    let g := grantStatus m s
    refuse m (if g = stOK then stUnsupported else g) s
  else
    let g := accessStatus (asRequester m) s
    if g = stTimeout then refuseCause m g 2 s
    else if g ≠ stOK then refuse m g s
    else if x.place = .loan then performLoan x m (takeLine m s)
    else if x.place = .flash then flashRead m (takeLine m s)
    else if !pageReady m s then refuse m stRetryLater s
    else performDram m (takeLine m s)

/-- A message for the mirror service 0x117 (R424, R430). -/
def performMirror (m : Msg) (s : Part) : Part :=
  let a := m.addr.toNat
  let agent := m.srcPort.toNat
  if !(0x115 ≤ agent && agent ≤ 0x117) || m.op.toNat ∉ [0x03, 0x60, 0x61] then refuse m stUnsupported s
  else if homePart s ≠ myPart s && a / 2 ^ 46 = homePart s && agent = 0x117 then standInReceives m s
  else
    match holdOf (a / 2 ^ 46) (extOf a) s with
    | none => refuse m stUnsupported (count 17 0 64 1 s)
    | some (e, h) => if holdSource m h s then performHeld m e h s else refuse m stUnsupported s

/-- Perform an ordered message. -/
def performOrdered (key : Nat) (m : Msg) (s : Part) : Part :=
  if m.op.toNat = 0x11 then performMark key m s
  else if m.dstPort = 0x117 then performMirror m s
  else if m.dstPort = 0x1FF then performMemory m s
  else refuse m stUnsupported s

/-! ### The resequencer -/

/-- Is the message the next of its slot: the expected number, or a load whose earlier messages have been performed? -/
def isNext (r : ReseqSlot) (m : Msg) : Bool := if m.ord then m.sseq = r.next else serialBefore m.sseq r.next

/-- The held message of a slot that can be performed now. -/
def readyMessage (r : ReseqSlot) (s : Part) : Option Msg :=
  r.held.find? fun m => isNext r m && !streamBusy m s && !memoryHeld m s

/-- A slot and its message that can be performed now. -/
def readySlot (s : Part) : Option (Nat × Msg) :=
  s.links.reseq.findSome? fun p => (readyMessage p.2 s).map fun m => (p.1, m)

/-- Perform a message that its slot has ready (R69). -/
def performReady (key : Nat) (m : Msg) (s : Part) : Part :=
  performOrdered key m (onLinks (fun l =>
    match tget? l.reseq key with
    | some r =>
      { l with reseq := tset l.reseq key { r with held := r.held.erase m, next := if m.ord then r.next + 1 else r.next } }
    | none => l) s)

/-- Perform one message that its slot has ready (R69). -/
def pumpReseq (s : Part) : Option Part := (readySlot s).map fun p => performReady p.1 p.2 s

/-- Has an ordered message been begun and not yet been answered, so that its answer is still to come? -/
def unanswered (m : Msg) (s : Part) : Bool :=
  (unperformed s).any (fun r => sameStream m r && r.sseq = m.sseq) ||
  s.flr.throughs.any fun w =>
    match w.answer with
    | some a => a.dstPart = m.srcPart && a.dstPort = m.srcPort && a.tag = m.tag && a.sseq = m.sseq
    | none => false

/-- The status with which a slot has answered a message that it did not perform (R69). -/
def failureOf (m : Msg) (s : Part) : Option Nat :=
  (tget? s.links.reseq (reseqKey m s)).bind fun r => (r.failed.find? fun f => f.1 = m.sseq).map (·.2)

/-- A duplicate (R69, R72): its acknowledgement is sent again, with the status it had; an atomic gets its kept answer, or TIMEOUT. -/
def duplicate (m : Msg) (s : Part) : Part :=
  let (op, len) := responseOp m
  if m.op.toNat = 0x11 || unanswered m s then s
  else if let some status := failureOf m s then emit (mkResponse m op len status 0 [] false) s
  else if isAtomic m.op.toNat then
    match s.links.atomics.find? fun a => a.part = m.srcPart.toNat && a.agent = m.srcPort.toNat && a.sseq = m.sseq with
    | some a => emit { a.answer with tag := m.tag } s
    | none => refuse m stTimeout s
  else if m.op.toNat = 0x61 then performMirror m s
  else emit (okAnswer m []) s

/-- Idle slots with their last use. -/
def idleSlots (s : Part) : List (Nat × Nat) :=
  (s.links.reseq.filter fun p => p.2.held.isEmpty).map fun p => (p.1, p.2.used)

/-- The least recently used idle slot (R70). -/
def oldestIdle (s : Part) : Option Nat :=
  ((idleSlots s).foldl (fun (b : Option (Nat × Nat)) p =>
    match b with
    | none => some p
    | some q => if p.2 < q.2 then some p else some q) none).map (·.1)

/-- Configured resequencer streams (R35, R480). -/
def reseqCap (s : Part) : Nat := s.mgmt.record.reseqStreams

/-- A new slot for a stream (R70), set by its SYN message; none where none can be found. DESIGN CHOICE: loads that the old slot held are
performed at once (log entry 79). -/
def newSlot (key : Nat) (syn : Msg) (s : Part) : Option Part :=
  let old := match tget? s.links.reseq key with
    | some r => (r.held.filter fun (x : Msg) => !x.ord)
    | none => []
  let add (s : Part) : Part := onLinks (fun l =>
    { l with
      reseqClock := l.reseqClock + 1
      reseq := tset l.reseq key
        { next := syn.sseq, held := [], lastFence := none, started := syn.tag, failed := [], used := l.reseqClock + 1 } }) s
  let loads (s : Part) : Part := old.foldl (fun s m => performMemory m s) s
  if thas s.links.reseq key || s.links.reseq.length < reseqCap s then some (loads (add s))
  else
    match oldestIdle s with
    | none => none
    | some k => some (add (onLinks (fun l => { l with reseq := tdel l.reseq k }) s))

/-- Hold a message in its slot, once. -/
def holdMessage (key : Nat) (m : Msg) (s : Part) : Part :=
  onLinks (fun l =>
    match tget? l.reseq key with
    | some r =>
      let same (h : Msg) : Bool := h.ord = m.ord && h.sseq = m.sseq && h.tag = m.tag
      { l with
        reseqClock := l.reseqClock + 1
        reseq := tset l.reseq key
          { r with held := if r.held.any same then r.held else r.held ++ [m], used := l.reseqClock + 1 } }
    | none => l) s

/-- A memory request waits (R95, R282, R422, R433); one that waits for a running channel-unit command is counted on its unit (R295). -/
def holdBack (m : Msg) (s : Part) : Part :=
  let e := extOf m.addr.toNat
  let s := onChannelUnits (fun b => { b with held := b.held ++ [m] }) s
  if chuHoldsLine e (lineOf m.addr.toNat) (isStore m.op.toNat) s then count 12 (e % 24) 6 1 s else s

/-- A memory request that has to wait takes its place among those that wait, so that they are performed in the order of their
arrival (R282). A message of a slot stays in its slot too. -/
def keepPlace (key : Nat) (m : Msg) (s : Part) : Part :=
  let inSlot : Bool := match tget? s.links.reseq key with
    | some r => m ∈ r.held
    | none => false
  if inSlot && m ∉ s.chu.held && memoryHeld m s then holdBack m s else s

/-- A message discarded by the resequencer and counted (R69, R70). -/
def reseqDiscard (s : Part) : Part := count 2 0 67 1 s

/-- Is it the SYN message that set the slot, come again (R69)? A SYN message of a later start resets the slot (R70). -/
def startedBy (r : ReseqSlot) (m : Msg) : Bool := m.retx && r.started = m.tag && serialBefore m.sseq r.next

/-- Messages that the resequencer holds. -/
def heldCount (s : Part) : Nat := s.links.reseq.foldl (fun n p => n + p.2.held.length) 0

/-- An ordered message arrives at its slot (R69). -/
def slotTakes (key : Nat) (r : ReseqSlot) (m : Msg) (s : Part) : Part :=
  let ahead := sseqSince r.next m.sseq
  if ahead = 0 then keepPlace key m (holdMessage key m s)
  else if serialBefore m.sseq r.next then duplicate m (count 2 0 70 1 s)
  else if ahead < 1024 && heldCount s < Config.holdingSpace then keepPlace key m (holdMessage key m s)
  else reseqDiscard s

/-- An ordered message arrives (R69, R70): without a slot, anything but a SYN message is answered with RESYNC, a FENCE_MARK too. -/
def orderedArrives (m : Msg) (s : Part) : Part :=
  let key := reseqKey m s
  match (tget? s.links.reseq key).filter fun r => !m.syn || startedBy r m with
  | some r => slotTakes key r m s
  | none =>
    if !m.syn then respondResync m s
    else
      match newSlot key m s with
      | none => reseqDiscard s
      | some s => keepPlace key m (holdMessage key m s)

/-- A load that the source marked arrives (R67, R70). -/
def loadArrives (m : Msg) (s : Part) : Part :=
  let key := reseqKey m s
  if !m.after then holdLoad m s
  else
    match tget? s.links.reseq key with
    | none => if s.links.resync then respondResync m s else holdLoad m s
    | some _ => keepPlace key m (holdMessage key m s)
where
  /-- A load with nothing to wait for but a running channel-unit command (R282). -/
  holdLoad (m : Msg) (s : Part) : Part :=
    if memoryHeld m s then holdBack m s else performMemory m s

/-- Perform the oldest request whose range is free again, if its stream lets it (R282). -/
def pumpHeld (s : Part) : Option Part :=
  match s.chu.held.find? fun m => !memoryHeld m s with
  | none => none
  | some m =>
    let key := reseqKey m s
    let s := onChannelUnits (fun b => { b with held := b.held.erase m }) s
    match (tget? s.links.reseq key).filter fun r => m ∈ r.held with
    | some r => some (if isNext r m && !streamBusy m s then performReady key m s else s)
    | none => some (if m.ord then s else performMemory m s)

/-- A store that waits for its loan page has the page re-encrypted (R395). -/
def pumpLoanStores (s : Part) : Option Part :=
  let waiting := s.chu.held ++ s.links.reseq.flatMap fun p => p.2.held
  let begins (m : Msg) : Bool :=
    let x := extentAt (extOf m.addr.toNat) s
    x.place = .loan && isMemory m && isStore m.op.toNat && pageDue x (pageOf m) s && memoryHeld m s &&
    !(s.pool.loanPages.any fun w => w.page = pageOf m)
  (waiting.find? fun m => begins m).map fun m => startLoanPage (pageOf m) s

/-- A message held past its source's completion timeout is discarded unperformed; those behind it follow (R95, R282). -/
def discardHeld (part agent tag : Nat) (s : Part) : Part :=
  let named (m : Msg) : Bool := m.srcPart.toNat = part && m.srcPort.toNat = agent && m.tag.toNat = tag
  let drop (r : ReseqSlot) : ReseqSlot :=
    match r.held.find? fun m => named m with
    | none => r
    | some m =>
      { r with held := r.held.erase m, next := if m.ord && m.sseq = r.next then r.next + 1 else r.next }
  let s := onLinks (fun l => { l with reseq := tmap l.reseq drop }) s
  onChannelUnits (fun b => { b with held := b.held.filter fun m => !named m }) s

end Sys2Proof.Machine
end

