-- ==== Sys2Proof/Machine/Turns.lean ====
section
/-!
DEFINITION. Turns of the engines (R207, R390, R391): which gallery an engine serves next.
-/

namespace Sys2Proof.Machine

/-- Engine numbers of the turn windows, DESIGN CHOICE (log entry 83): reduce engines, mending engines, unfolders, folders, gather and filter
units. -/
def turnReduce (e : Nat) : Nat := e
def turnMend (e : Nat) : Nat := 64 + e
def turnGfu (u : Nat) : Nat := 128 + u
def turnUnfold (u : Nat) : Nat := 192 + u
def turnFold (u : Nat) : Nat := 256 + u

/-- The turns of an engine. -/
def turnsOf (e : Nat) (s : Part) : Turns := tget s.power.turns e Turns.blank

/-- Set the turns of an engine. -/
def putTurns (e : Nat) (t : Turns) (s : Part) : Part := onPower (fun p => { p with turns := tset p.turns e t }) s

/-- Turns of the window that gallery `g` was served (R390). -/
def servedTurns (w : List Nat) (g : Nat) : Nat := (w.filter fun h => h = g).length

/-- Is gallery `a` due before `b` (R390): the least turns served ÷ SLICE, ties to the lower number? -/
def dueBefore (w : List Nat) (s : Part) (a b : Nat) : Bool :=
  let x := servedTurns w a * (gallery b s).slice
  let y := servedTurns w b * (gallery a s).slice
  x < y || (x = y && a < b)

/-- The gallery to which the next turn falls: of those with work waiting and, with STRICT = 1, of the ACTIVE ones without (R391). -/
def dueGallery (w waiting : List Nat) (s : Part) : Option Nat :=
  let gs := (List.range 8).filter fun g => g ∈ waiting || (galleryActive g s && (gallery g s).strict)
  gs.foldl (fun (b : Option Nat) g =>
    match b with
    | none => some g
    | some h => if dueBefore w s g h then some g else some h) none

/-- A turn of gallery `g` in the sliding window of the last 4,096. -/
def turnServed (g : Nat) (w : List Nat) : List Nat := (g :: w).take 4096

/-- Turns dealt: the gallery that has the next one, the window after it, and the galleries of the idle turns before it. -/
structure Deal where
  gallery : Nat
  window  : List Nat
  idle    : List Nat
  deriving DecidableEq, Repr

/-- Deal turns until one falls to a gallery with work waiting (R390, R391), from a window and the idle turns so far. DESIGN CHOICE (log
entry 83): idle turns of a STRICT gallery pass in the same step. -/
def dealTurn : Nat → List Nat → List Nat → List Nat → Part → Option Deal
  | 0, _, _, _, _ => none
  | n + 1, w, idle, waiting, s =>
    match dueGallery w waiting s with
    | none => none
    | some g =>
      if g ∈ waiting then some { gallery := g, window := turnServed g w, idle := idle }
      else dealTurn n (turnServed g w) (g :: idle) waiting s

/-- The most idle turns between two that are used: every gallery's slices of a window. -/
def idleTurns : Nat := 8192

/-- The next turn of an engine among the galleries that have work waiting. -/
def nextTurn (e : Nat) (waiting : List Nat) (s : Part) : Option Deal :=
  if waiting.isEmpty then none else dealTurn idleTurns (turnsOf e s).window [] waiting s

/-- An engine takes the turn dealt: the idle turns before it are counted (R391, R412). -/
def takeDeal (e : Nat) (d : Deal) (s : Part) : Part :=
  d.idle.foldl (fun s g => count 14 g 2 1 s) (putTurns e { turnsOf e s with window := d.window } s)

/-- An engine takes a turn of a gallery at once, where no other work waits for the engine. -/
def takeTurn (e g : Nat) (s : Part) : Part :=
  match nextTurn e [g] s with
  | none => s
  | some d => takeDeal e d s

/-- A result chunk or a mended tile begins on an engine: REDUCE_PPM chunks, or MEND_PPM tiles, in every million are chosen for a spot
check (R438, R444). The Curator's random draw is a free value. -/
def chooseCheck (engine unit number : Nat) (s : Part) : Part :=
  let w := s.flr.spotCtrl.toNat
  let ppm := if engine < 64 then field w 19 0 else field w 39 20
  if ppm = 0 then s
  else
    let (n, s) := drawFree s
    if (Config.freeWord n).toNat % 1000000 < ppm then
      onRecovery (fun b => { b with checks := b.checks ++ [{ engine := engine, unit := unit, number := number }] }) s
    else s

end Sys2Proof.Machine
end

