-- ==== Sys2Proof/Machine/ChannelUnits.lean ====
section
/-!
DEFINITION. Channel units (R274 to R295): the checks of SUBMIT and of a start, the arithmetic, the lines a command reads and
writes, and how it ends.
-/

namespace Sys2Proof.Machine

/-- The agent number of the channel-unit service (R283). -/
def agChu : Nat := 0x115

/-! ### Checks (R280) -/

/-- Is the extent one that a command may run on (R280)? -/
def chuExtentOk (e : Nat) (s : Part) : Bool :=
  let x := extentAt e s
  isDramHome e s && x.place = .channelLocal && x.state = .live

/-- Is the region UNOWNED, or OWNED by the agent named (R280)? An ORPHANED region is refused. -/
def chuOwnerOk (d : List Nat) (x : Extent) (s : Part) : Bool :=
  match ownerOf x.object s with
  | none => true
  | some o => o.owned && o.part = chuPart d && o.port = chuPort d

/-- The unit of a command (R275). -/
def chuUnit (d : List Nat) : Nat := chuExt d % 24

/-- Commands of a unit that are queued or running. -/
def chuQueued (unit : Nat) (s : Part) : Nat := (s.chu.cmds.filter fun c => c.unit = unit && !c.running).length
def chuRunning (unit : Nat) (s : Part) : Option ChuCmd := s.chu.cmds.find? fun c => c.unit = unit && c.running

/-- RESULT of SUBMIT (R280, R384). The gallery's state is checked with the descriptor: DESIGN CHOICE. -/
def submitResult (d : List Nat) (s : Part) : Nat :=
  let e := chuExt d
  let x := extentAt e s
  if !isTray s || !(s.chu.enable.getD (chuUnit d) false) then 10
  else if !chuValid d then 3
  else if !galleryActive (chuGallery d) s then 2
  else if !chuExtentOk e s then 4
  else if chuGallery d ≠ x.gallery then 7
  else if chuEpoch d ≠ x.epoch.toNat then 8
  else if x.opset % 2 = 0 || x.cls ≠ .owned then 5
  else if !chuOwnerOk d x s then 6
  else if 64 ≤ chuQueued (chuUnit d) s then 9
  else 0

/-- Completion code of the checks that are made again at the start (R280); OK where the command runs. -/
def startStatus (d : List Nat) (s : Part) : Nat :=
  let e := chuExt d
  let x := extentAt e s
  if !chuExtentOk e s then stUnsupported
  else if chuGallery d ≠ x.gallery then stGalleryFault
  else if chuEpoch d ≠ x.epoch.toNat then stRevoked
  else if !chuOwnerOk d x s then stNotOwner
  else stOK

/-! ### Arithmetic (R277, R284, R285) -/

/-- The format of an operand. -/
def chuFormat (fmt : Nat) : FFmt := if fmt = 0 then fp32 else if fmt = 1 then bf16 else fp16

/-- An operand converted exactly to FP32 (R284). -/
def chuIn (fmt v : Nat) : Nat := (encodeF fp32 (decodeF (chuFormat fmt) v)).1

/-- A value rounded once to D_FMT (R284). -/
def chuOut (fmt r : Nat) : Nat := (encodeF (chuFormat fmt) (decodeF fp32 r)).1

/-- `r` of R277. -/
def chuRaw (op alpha beta a b : Nat) : Nat :=
  match op with
  | 0 => fmaFp32 alpha a (mulFp32 beta b)
  | 1 => mulFp32 (mulFp32 alpha a) b
  | _ => fmaFp32 alpha a beta

/-- One element of D. -/
def chuElement (d : List Nat) (a b : Nat) : Nat :=
  chuOut (chuFmtD d) (chuActivate (chuAct d)
    (chuRaw (chuOp d) (chuAlpha d) (chuBeta d) (chuIn (chuFmtA d) a) (chuIn (chuFmtB d) b)))

/-! ### Lines (R288, R289) -/

/-- Read lines of the extent: the worst status and the bytes. POISON gives way to any other failure. -/
def chuLines (x : Extent) (e : Nat) : Nat → Nat → Part → Nat × List Byte × Part
  | 0, _, s => (stOK, [], s)
  | n + 1, line, s =>
    let (st, bs, s) := readLine x (e * linesPerExtent + line) line agChu s
    let (st', rest, s) := chuLines x e n (line + 1) s
    (if st = stOK || st' = stUnsupported then st' else st, sliceBytes bs 0 128 ++ rest, s)

/-- The `n` elements of an operand from element `first` on, with the status of its lines. -/
def chuOperand (off fmt first n : Nat) (x : Extent) (e : Nat) (s : Part) : Nat × List Nat × Part :=
  let w := chuSize fmt
  let a := off + first * w
  let line := a / 128
  let (st, bs, s) := chuLines x e ((a + n * w - 1) / 128 - line + 1) line s
  (st, (List.range n).map fun k => leAt bs (a % 128 + k * w) w, s)

/-- Elements of D in a line. -/
def chuPerLine (d : List Nat) : Nat := 128 / chuSize (chuFmtD d)

/-- Bytes of a line of D: a partial last line is merged into the line as it stands (R288). The status is that of the old line. -/
def chuMerge (new : List Byte) (x : Extent) (e line : Nat) (s : Part) : Nat × List Byte × Part :=
  if new.length = 128 then (stOK, new, s)
  else
    let (st, bs, s) := readLine x (e * linesPerExtent + line) line agChu s
    (st, patchBytes (sliceBytes bs 0 128) 0 new, s)

/-- Compute and write the next line of D (R277, R288, R289), and send it to the twin (R282); the segments that end in it are counted
(R286). A line that cannot be read or written for want of a key ends the command there: DESIGN CHOICE. -/
def chuStep (c : ChuCmd) (s : Part) : ChuCmd × Part :=
  let d := c.desc
  let e := chuExt d
  let x := extentAt e s
  let n := min (chuPerLine d) (chuN d - c.done)
  let line := chuOffD d / 128 + c.done / chuPerLine d
  let (sa, as_, s) := chuOperand (chuOffA d) (chuFmtA d) c.done n x e s
  let (sb, bs, s) := if chuHasB d then chuOperand (chuOffB d) (chuFmtB d) c.done n x e s else (stOK, [], s)
  let new := (List.range n).flatMap fun k => leBytes (chuSize (chuFmtD d)) (chuElement d (as_.getD k 0) (bs.getD k 0))
  let (sd, bytes, s) := chuMerge new x e line s
  let bad := sa ≠ stOK || sb ≠ stOK || sd ≠ stOK
  if sa = stUnsupported || sb = stUnsupported || sd = stUnsupported then ({ c with status := stUnsupported }, s)
  else
    let phys := e * linesPerExtent + line
    match writeLine x phys line bytes bad s with
    | none => ({ c with status := stUnsupported }, s)
    | some s =>
      let s := mirrorLine agChu phys bytes bad (isBound phys s) (.channelUnit c.unit c.ticket) s
      let s := count 12 c.unit 5 (segmentsEnded d n c.done (c.done + n)) (count 12 c.unit 3 n s)
      let c := { c with done := c.done + n }
      if bad then
        ({ c with
          status := stPoison, poisoned := c.poisoned + 1
          firstBad := if c.poisoned = 0 then line * 128 else c.firstBad }, count 12 c.unit 64 1 s)
      else (c, s)

/-- Write up to `n` lines of D. -/
def chuRun : Nat → ChuCmd → Part → ChuCmd × Part
  | 0, c, s => (c, s)
  | n + 1, c, s =>
    if chuN c.desc ≤ c.done || c.status = stUnsupported then (c, s)
    else let (c, s) := chuStep c s; chuRun n c s

/-- Lines of D that a command writes. -/
def chuTotal (d : List Nat) : Nat := ceilDiv (chuN d) (chuPerLine d)

/-- Change the running command of a unit. -/
def onChuCmd (unit : Nat) (f : ChuCmd → ChuCmd) (s : Part) : Part :=
  onChannelUnits (fun b => { b with cmds := b.cmds.map fun c => if c.unit = unit && c.running then f c else c }) s

/-! ### Ending (R282, R283, R294) -/

/-- The fault notice of a failed command (R65, R283), for its gallery's fault queue. It names no request: opcode 0. -/
def chuNotice (c : ChuCmd) (status : Nat) (s : Part) : Part :=
  let off := if c.poisoned = 0 then chuOffD c.desc else c.firstBad
  let m : Msg := { Msg.blank with
    gallery := BitVec.ofNat 3 (chuGallery c.desc), srcPart := BitVec.ofNat 12 (myPart s), srcPort := BitVec.ofNat 9 agChu,
    dstPart := BitVec.ofNat 12 (myPart s), dstPort := 0x1FF, tag := BitVec.ofNat 16 c.ticket,
    addr := BitVec.ofNat 58 (homePart s * 2 ^ 46 + chuExt c.desc * 2 ^ 28 + off) }
  raiseNotice m status (myPart s) agPart 0 s

/-- A command ends with its event (R294): 1 DONE, 2 FAILED, 3 CANCELLED. -/
def chuEvent (kind status : Nat) (c : ChuCmd) (s : Part) : Part :=
  let s := count 12 c.unit (kind - 1) 1 s
  let s := pushEvent .chu (kind * 2 + c.unit * 8 + status * 256 + c.ticket * 65536) (c.firstBad + c.poisoned * 2 ^ 32) s
  if kind = 2 then chuNotice c status s else s

/-- A command leaves its unit. -/
def chuLeaves (c : ChuCmd) (s : Part) : Part :=
  let s := onChannelUnits (fun b => { b with cmds := b.cmds.filter fun k => !(k.unit = c.unit && k.ticket = c.ticket) }) s
  if c.running then
    onChannelUnits (fun b => { b with draining := lset b.draining c.unit false }) s
  else s

/-- A command ends FAILED. -/
def chuFails (status : Nat) (c : ChuCmd) (s : Part) : Part := chuEvent 2 status c (chuLeaves c s)

/-- The running command of a unit that writes no more ends once its write-throughs are answered (R282). A write-through that has failed ends
even a cancelled one FAILED: DEDUCED (log entry 85). -/
def chuFinish (c : ChuCmd) (s : Part) : Part :=
  if c.status ≠ stOK then chuFails c.status c s
  else chuEvent (if c.cancelled then 3 else 1) stOK c (chuLeaves c s)

/-- Does a write-through of a command await its answer? -/
def chuThroughOut (c : ChuCmd) (s : Part) : Bool := s.flr.throughs.any fun w => w.kind = .channelUnit c.unit c.ticket

/-- End one command that has nothing left to wait for. -/
def pumpChu (s : Part) : Option Part :=
  (s.chu.cmds.find? fun c => c.ended && !chuThroughOut c s).map fun c => chuFinish c s

/-- Are lines of D still being written through for another agent (R422)? -/
def chuWaits (c : ChuCmd) (s : Part) : Bool :=
  s.flr.throughs.any fun w =>
    w.agent ≠ agChu && w.line / linesPerExtent = chuExt c.desc && lineIn (w.line % linesPerExtent) (chuRangeD c.desc)

/-- Lines of DRAM that a byte range touches, and the energy of a command: of the lines of A, B and D, those of D being read and written. -/
def rangeLines (r : Nat × Nat) : Nat := ceilDiv r.2 128 - r.1 / 128
def chuCost (d : List Nat) : Nat := (rangeLines (chuRangeA d) + rangeLines (chuRangeB d) + 2 * rangeLines (chuRangeD d)) * lineCost

/-- The CHANNEL class gives a running command energy (R454). -/
def payChu (s : Part) : Option Part :=
  match s.chu.cmds.find? fun c => c.running && !c.ended && c.paid < chuCost c.desc with
  | none => none
  | some c =>
    let e := givable 4 (chuCost c.desc - c.paid) s
    if e = 0 then none else some (onChuCmd c.unit (fun c => { c with paid := c.paid + e }) (spend 4 e s))

/-- CHU_COMMAND_START: the head of a unit's queue starts, where the class holds the energy of a line (R454), or fails its start checks (R279,
R280). -/
def chuStarts (unit : Nat) (s : Part) : Part :=
  if (chuRunning unit s).isSome || !canSpend 4 lineCost s then s
  else
    match s.chu.cmds.find? fun c => c.unit = unit with
    | none => s
    | some c =>
      let st := startStatus c.desc s
      if st ≠ stOK then chuFails st c s
      else
        onChannelUnits (fun b =>
          { b with cmds := b.cmds.map fun k => if k = c then { k with running := true } else k }) s

/-- CHU_COMMAND_END: the running command writes the rest of D (R277 to R289), once the class has given its energy. -/
def chuEnds (unit : Nat) (s : Part) : Part :=
  match chuRunning unit s with
  | none => s
  | some c =>
    if c.ended || chuWaits c s || c.paid < chuCost c.desc then s
    else
      let (c', s) := chuRun (chuTotal c.desc) c s
      onChuCmd unit (fun _ => { c' with ended := true }) s

/-- Lines of D that a command can have written with the energy that it has been given. -/
def chuAffords (c : ChuCmd) : Nat := chuTotal c.desc * c.paid / max 1 (chuCost c.desc)

/-- A running command stops at a line boundary: how many lines it has written is a free value (R282), and none more where they wait for
another agent's write-through (R422). -/
def chuStop (c : ChuCmd) (s : Part) : ChuCmd × Part :=
  if c.ended || chuWaits c s then (c, s)
  else
    let left := chuAffords c - ceilDiv c.done (chuPerLine c.desc)
    let (n, s) := drawFree s
    chuRun ((Config.freeWord n).toNat % (left + 1)) c s

/-- Lines of D up to the end of the segment that a command is in (R286); none at a boundary. -/
def segmentLines (c : ChuCmd) : Nat :=
  if c.done = 0 || segmentEnd c.desc (c.done - 1) = c.done then 0
  else ceilDiv (segmentEnd c.desc c.done - c.done) (chuPerLine c.desc)

/-- A refresh falls due on the unit's channel (R287): the running command finishes its segment and yields, and the pre-emption is counted.
How many lines it has written by then is a free value, as everywhere. -/
def chuYields (unit : Nat) (s : Part) : Part :=
  match (chuRunning unit s).filter fun c => !c.ended with
  | none => s
  | some c =>
    let (c, s) := chuStop c s
    let (c, s) := if chuWaits c s then (c, s) else chuRun (segmentLines c) c s
    count 12 unit 4 1 (onChuCmd unit (fun _ => c) s)

/-- The commands of an extent stop with a status (REVOKE and RELEASE of R282): only the running one. It ends after its write-throughs. -/
def chuHalt (pick : ChuCmd → Bool) (status : Nat) (s : Part) : Part :=
  (s.chu.cmds.filter fun c => c.running && pick c).foldl (fun s c =>
    let (r, s) := chuStop c s
    onChuCmd c.unit (fun _ => { r with status := status, ended := true }) s) s

/-- REVOKE reaches an extent (R282). -/
def chuRevoked (e : Nat) (s : Part) : Part := chuHalt (fun c => chuExt c.desc = e) stRevoked s

/-- A region is released or orphaned (R282). -/
def chuReleased (object : BitVec 64) (s : Part) : Part :=
  chuHalt (fun c => (extentAt (chuExt c.desc) s).object = object) stNotOwner s

/-- Queued commands that are turned away with UNSUPPORTED (R282, R436). -/
def chuTurnAway (pick : ChuCmd → Bool) (s : Part) : Part :=
  (s.chu.cmds.filter fun c => !c.running && pick c).foldl (fun s c => chuFails stUnsupported c s) s

/-- An in-flight disable of a unit (R282, R295, R436). -/
def chuDisable (unit : Nat) (s : Part) : Part :=
  let s := onChannelUnits (fun b => { b with enable := lset b.enable unit false }) s
  let s := chuTurnAway (fun c => c.unit = unit) s
  if (chuRunning unit s).isSome then
    onChannelUnits (fun b => { b with draining := lset b.draining unit true }) s
  else s

/-- The drain bound of a unit passes (R436). -/
def chuAbort (unit : Nat) (s : Part) : Part := chuHalt (fun c => c.unit = unit) stUnsupported s

/-- A write-through of the channel-unit service has failed: its command will end with that status (R282). -/
def chuThroughFails (tag status : Nat) (s : Part) : Part :=
  match s.flr.throughs.find? fun w => w.agent = agChu && w.tag.toNat = tag with
  | none => s
  | some w =>
    match w.kind with
    | .channelUnit u t =>
      if status = stOK then s
      else onChuCmd u (fun c => if c.ticket = t then { c with status := status, ended := true } else c) s
    | _ => s

/-! ### Commands (R292, R293) -/

/-- A command of CHU_CMD ends for its view. -/
def chuEndCmd (view result fields : Nat) (s : Part) : Part :=
  onChannelUnits (fun b => { b with seq := seqEnd view result fields b.seq }) s

/-- The fields of CHU_STATUS after RESULT, at their places (R293). -/
def chuFields (unit ticket : Nat) (running : Bool) (done : Nat) : Nat :=
  unit * 2 ^ 5 + bitOf running * 2 ^ 10 + ticket * 2 ^ 16 + min 0xFFFFFFFF done * 2 ^ 32

/-- SUBMIT. -/
def chuSubmit (view : Nat) (s : Part) : Part :=
  let d := s.chu.descs.getD view []
  let unit := chuUnit d
  let r := submitResult d s
  if r ≠ 0 then chuEndCmd view r (chuFields unit 0 false 0) s
  else
    let t := (s.chu.tickets.getD unit 0 + 1) % 65536
    let c : ChuCmd :=
      { unit := unit, ticket := t, desc := d, done := 0, poisoned := 0, firstBad := 0, status := stOK, running := false,
        ended := false, cancelled := false, paid := 0 }
    chuEndCmd view 0 (chuFields unit t false 0)
      (onChannelUnits (fun b => { b with cmds := b.cmds ++ [c], tickets := lset b.tickets unit t }) s)

/-- CANCEL (R282). -/
def chuCancel (view unit ticket : Nat) (s : Part) : Part :=
  match s.chu.cmds.find? fun c => c.unit = unit && c.ticket = ticket with
  | none => chuEndCmd view 2 (chuFields unit ticket false 0) s
  | some c =>
    let s :=
      if c.running then
        let (r, s) := chuStop c s
        onChuCmd unit (fun _ => { r with status := stOK, ended := true, cancelled := true }) s
      else chuEvent 3 stOK c (chuLeaves c s)
    chuEndCmd view 0 (chuFields unit ticket c.running 0) s

/-- QUERY (R293): the elements that a running command has written are a free value, at a line boundary. -/
def chuQuery (view unit ticket : Nat) (s : Part) : Part :=
  match s.chu.cmds.find? fun c => c.unit = unit && c.ticket = ticket with
  | none => chuEndCmd view 2 (chuFields unit ticket false 0) s
  | some c =>
    if !c.running then chuEndCmd view 0 (chuFields unit ticket false 0) s
    else
      let (c, s) := chuStop c s
      chuEndCmd view 0 (chuFields unit ticket true c.done) (onChuCmd unit (fun _ => c) s)

/-- Perform a command of CHU_CMD. -/
def chuPerform (view cmd : Nat) (s : Part) : Part :=
  let unit := field cmd 8 4
  let ticket := field cmd 31 16
  match field cmd 3 0 with
  | 1 => chuSubmit view s
  | 2 => chuCancel view unit ticket s
  | 3 => chuQuery view unit ticket s
  | _ => chuEndCmd view 2 0 s

/-- A write of CHU_CMD. -/
def writeChuCmd (view cmd : Nat) (s : Part) : Part :=
  writeSeq 12 (·.chu.seq) (fun q => onChannelUnits fun b => { b with seq := q }) chuPerform view cmd s

/-- A fast reset loses every command, and no event is queued (R282). Each running one has written a free number of lines. -/
def resetChu (s : Part) : Part :=
  let s := (s.chu.cmds.filter fun c => c.running).foldl (fun s c => (chuStop c s).2) s
  onChannelUnits (fun b => { b with cmds := [], held := [], seq := CmdSeq.reset }) s

end Sys2Proof.Machine
end

