-- ==== Sys2Proof/Machine/PoolCmds.lean ====
section
/-!
DEFINITION. Commands on extents and loans: POL_EXT_CMD (R31 to R39), loan offers and recalls (R28, R29, R33, R34), and the
table window (R26, R27, R535 to R537).
-/

namespace Sys2Proof.Machine

/-! ### Loans -/

/-- A loan entry. -/
def loanAt (i : Nat) (s : Part) : Loan := tget s.pool.loans i Loan.blank

/-- Write a loan entry. -/
def putLoan (i : Nat) (l : Loan) (s : Part) : Part :=
  onPool (fun p => { p with loans := if l = Loan.blank then tdel p.loans i else tset p.loans i l }) s

/-- The extents of a loan that has slots. -/
def loanExtents (l : Loan) : List Nat := (List.range l.count).map fun k => 0x3000 + l.first + k

/-- A loan event, with its information word (R109). -/
def loanEvent (kind info : Nat) (s : Part) : Part := regionEvent kind 0 info s

/-- Step 7 of R33: when every extent of a RECALLING loan is FREE or LOST, the loan ends, its pending notice is answered and its
entry is freed. -/
def loanEnds (i : Nat) (s : Part) : Part :=
  let l := loanAt i s
  let gone (e : Nat) : Bool := (extentAt e s).state = .free || (extentAt e s).state = .lost
  if l.state = .recalling && (loanExtents l).all gone then
    let s := putLoan i Loan.blank s
    match l.notice with
    | some m => respond m stOK 0 [] s
    | none => s
  else s

/-- Loans that a change of an extent may have ended. -/
def checkLoanOf (e : Nat) (s : Part) : Part :=
  match loanOf e s with
  | some (i, _) => loanEnds i s
  | none => s

/-- An extent of a recalled loan becomes LOST: its copy is abandoned and its destination no longer reserved (R34). DESIGN CHOICE: the
MOVE_OUT_END of an extent for which no MOVE_OUT was accepted carries destination 0 (log entry 77). -/
def loseExtent (e : Nat) (s : Part) : Part :=
  let dest := ((s.pool.copies.find? fun c => c.src = e).map (·.dest)).getD 0
  let s := changeExtent e (fun x => { x with state := .lost }) s
  let s := onPool (fun p => { p with copies := p.copies.filter fun c => c.src ≠ e }) s
  loanEvent 7 (e + dest * 2 ^ 18 + 2 ^ 36) s

/-- Every extent of the loan whose copy has not completed becomes LOST (R34). -/
def loseLoan (i : Nat) (s : Part) : Part :=
  let es := (loanExtents (loanAt i s)).filter fun e => (extentAt e s).state = .recalling
  loanEnds i (startCopies (es.foldl (fun s e => loseExtent e s) s))

/-- Requests that wait at the home for something other than a memory controller or a lender are completed with a status
(step 3 of R31, R33): those behind an open catalogue transaction, and reads that wait for flash. -/
def dropWaiting (e status : Nat) (s : Part) : Part :=
  let old (m : Msg) : Bool := extOf m.addr.toNat = e && !exempt m.op.toNat
  let cat := (s.cat.waiting.flatMap fun p => p.2.filterMap itemReq).filter old
  let flash := ((s.flt.reading.flatMap (·.2)) ++ s.flt.direct.flatMap (·.2)).filter old
  let keepItem (i : CatItem) : Bool := match itemReq i with
    | some m => !old m
    | none => true
  let s := onCatalogue (fun b => { b with waiting := tmap b.waiting fun is => is.filter keepItem }) s
  let s := onFlash (fun b =>
    { b with
      reading := (tmap b.reading fun ms => ms.filter fun m => !old m).filter fun p => !p.2.isEmpty
      direct := tmap b.direct fun ms => ms.filter fun m => !old m }) s
  (cat ++ flash).foldl (fun s m => refuse m status s) s

/-- Step 2 of R33: the loan and its extents go to RECALLING; an extent in REVOKING takes no second epoch increment. A grace of
0 loses them at once (R34). -/
def recallLoan (i : Nat) (s : Part) : Part :=
  let l := loanAt i s
  let s := putLoan i { l with state := .recalling } s
  let es := (loanExtents l).filter fun e => (extentAt e s).state = .live || (extentAt e s).state = .revoking
  let go (s : Part) (e : Nat) : Part :=
    let s := changeExtent e (fun x =>
      { x with epoch := if x.state = .revoking then x.epoch else x.epoch + 1, state := .recalling }) s
    dropWaiting e stRecalled s
  let s := loanEvent 6 i (es.foldl go s)
  if l.grace = 0 then loseLoan i s else loanEnds i s

/-- Loan-window slots that belong to an ACTIVE or RECALLING loan (R536). -/
def slotTaken (k : Nat) (s : Part) : Bool := (loanOf (0x3000 + k) s).isSome

/-- Is a slot free for a loan? -/
def slotFree (s : Part) (k : Nat) : Bool := !slotTaken k s && (extentAt (0x3000 + k) s).state = .free

/-- Longest run of free slots, as a test for `n` of them in a row (R29). -/
def freeRun (n : Nat) : Nat → List Nat → Part → Bool
  | run, [], _ => decide (n ≤ run)
  | run, k :: ks, s => decide (n ≤ run) || freeRun n (if slotFree s k then run + 1 else 0) ks s

/-- LOAN_OFFER arrives (R28, R29, R62). -/
def loanOffer (m : Msg) (s : Part) : Part :=
  let base := leAt m.data 0 8
  let n := leAt m.data 8 2
  if !isTray s || n = 0 || 4096 < n || base % 2 ^ 28 ≠ 0 || m.srcPart.toNat ≠ myPart s then refuse m stUnsupported s
  else
    match firstFree (fun i => thas s.pool.loans i) 4096 with
    | none => refuse m stRetryLater s
    | some i =>
      if !freeRun n 0 (List.range 4096) s then refuse m stRetryLater s
      else
        let l : Loan :=
          { lender := m.srcPort.toNat, count := n, first := 0, state := .offered, grace := leAt m.data 10 2,
            base := BitVec.ofNat 64 base, tag := BitVec.ofNat 32 (leAt m.data 12 4), offer := some m, notice := none }
        loanEvent 5 i (putLoan i l s)

/-- The pending offer of a loan is answered, and the entry freed or kept ACTIVE (R29). -/
def declineOffer (i : Nat) (s : Part) : Part :=
  let l := loanAt i s
  let s := putLoan i Loan.blank s
  match l.offer with
  | some m => refuse m stRetryLater s
  | none => s

/-- LOAN_OFFER_EXPIRY: half the completion timeout has passed with the entry still OFFERED (R29). -/
def offerExpires (i : Nat) (s : Part) : Part := if (loanAt i s).state = .offered then declineOffer i s else s

/-- LOAN_RECALL arrives (R33). -/
def loanRecall (m : Msg) (s : Part) : Part :=
  let named (l : Loan) : Bool :=
    l.lender = m.srcPort.toNat && l.base.toNat = leAt m.data 0 8 && l.tag.toNat = leAt m.data 12 4 &&
    (l.state = .offered || l.state = .active || l.state = .recalling)
  match (if m.srcPart.toNat = myPart s then s.pool.loans.find? fun p => named p.2 else none) with
  | none => refuse m stUnsupported s
  | some (i, l) =>
    match l.state with
    | .offered => respond m stOK 0 [] (declineOffer i s)
    | .active => recallLoan i (putLoan i { l with notice := some m, grace := min l.grace (leAt m.data 10 2) } s)
    | _ =>
      match l.notice with
      | some _ => respond m stOK 2 [] s
      | none => putLoan i { l with notice := some m } s

/-- RECALL_GRACE_EXPIRY (R34). -/
def graceExpires (i : Nat) (s : Part) : Part := if (loanAt i s).state = .recalling then loseLoan i s else s

/-- LENDER_READ_RETRY: a copy that stalled asks its lender again (R34). -/
def retryCopy (e : Nat) (s : Part) : Part :=
  onPool (fun p =>
    { p with copies := p.copies.map fun c =>
        if c.src = e && portActive c.lender s then { c with stalled := false } else c }) s

/-- Line `i` of the bytes that a lender has returned, repeated as they come; a line of another length than 128 bytes is one that
the lender answered with POISON. -/
def lenderLine (bytes : List (List Byte)) (i : Nat) : List Byte := bytes.getD (i % bytes.length) []

/-- RECALL_COPY_DONE: the copy of an extent completes (step 5 of R33), its ciphertext stored as the lender returned it, and the
tags of the loan pages with it (R392). A lender that cannot answer stalls the copy (R34). -/
def copyDone (e : Nat) (bytes : List (List Byte)) (s : Part) : Part :=
  match s.pool.copies.find? fun c => c.src = e && c.running with
  | none => s
  | some c =>
    if c.stalled || bytes.isEmpty then s
    else if !portActive c.lender s then
      onPool (fun p => { p with copies := p.copies.map fun d => if d.src = e then { d with stalled := true } else d }) s
    else
      let x := extentAt e s
      let s := (List.range pagesPerExtent).foldl (fun s p =>
        let t := pageTag (e * pagesPerExtent + p) s
        setTag (c.dest * pagesPerExtent + p) t.epoch t.split s) s
      let s := (List.range linesPerExtent).foldl (fun s i =>
        let b := lenderLine bytes i
        let bad := b.length ≠ 128
        storeLine (c.dest * linesPerExtent + i) (if bad then errorValue 128 else b) bad none s) s
      let place : Place := if c.dest < interleavedExtents s then .interleaved else .channelLocal
      let i := ((loanOf e s).map (·.1)).getD 4096
      let s := putExtent c.dest { x with state := .live, place := place, detail := 0 } s
      let s := putExtent e { x with state := .free, object := 0 } s
      let s := onPool (fun p => { p with copies := p.copies.filter fun d => d.src ≠ e }) s
      loanEnds i (startCopies (loanEvent 7 (e + c.dest * 2 ^ 18) s))

/-! ### POL_EXT_CMD -/

/-- Does R39 give NO_SUCH_EXTENT for an extent? -/
def noSuchExtent (e : Nat) (s : Part) : Bool :=
  !isTray s || (24 * s.pool.perChannel ≤ e && e < 0x3000) || isReserved e s

/-- A command of POL_EXT_CMD ends for its view, with the extent's EPOCH (R39). -/
def extEnd (view result e : Nat) (s : Part) : Part :=
  onPool (fun p => { p with extSeq := seqEnd view result ((extentAt e s).epoch.toNat * 2 ^ 16) p.extSeq }) s

/-- Is a request to the extent outstanding (R38)? -/
def extBusy (e : Nat) (s : Part) : Bool :=
  let mine (m : Msg) : Bool := extOf m.addr.toNat = e
  s.pool.lenderReqs.any (fun r => r.ext = e) || s.cat.txns.any (fun p => p.1 / linesPerExtent = e) ||
  s.cat.waiting.any (fun p => p.1 / linesPerExtent = e && !p.2.isEmpty) ||
  s.flr.throughs.any (fun w => w.line / linesPerExtent = e && w.answer.isSome) ||
  ((s.flt.reading.flatMap (·.2)) ++ s.flt.direct.flatMap (·.2)).any mine || s.chu.held.any mine ||
  s.links.reseq.any (fun p => p.2.held.any mine) ||
  s.chu.cmds.any (fun c => c.running && chuExt c.desc = e)

/-- Has an extent a directory entry other than I or POISON (R111)? -/
def dirHeld (e : Nat) (s : Part) : Bool :=
  (dirList s).any fun p => p.1 / linesPerExtent = e && dirHolds p.2

/-- REVOKE, steps 1 to 3 (R31, R32): the command keeps BUSY until REVOKE_COMPLETE. -/
def extRevoke (view e : Nat) (s : Part) : Part :=
  let x := extentAt e s
  match x.state with
  | .revoking | .recalling => extEnd view 1 e s
  | .free | .lost => extEnd view 2 e s
  | _ =>
    let moving := x.state = .moving
    let s := changeExtent e (fun x => { x with epoch := x.epoch + 1, state := if moving then .moving else .revoking }) s
    let s := onFlash (fun b => { b with moves := b.moves.map fun m => if m.src = e then { m with revoking := true } else m }) s
    let s := dropWaiting e stRevoked (chuRevoked e s)
    onPool (fun p =>
      { p with
        revokes := p.revokes ++ [{ ext := e, view := view }]
        extSeq := seqReport view (p.extSeq.result.getD view 0) ((x.epoch + 1).toNat * 2 ^ 16) p.extSeq }) s

/-- MOVE_OUT (R38). DESIGN CHOICE: a second MOVE_OUT for an extent whose copy is accepted but still queued is refused with BAD_STATE as
one whose copy runs is (log entry 77). -/
def extMoveOut (view e dest : Nat) (s : Part) : Part :=
  let x := extentAt e s
  let l := loanOf e s
  if x.state ≠ .recalling || (l.map (·.2.state)) ≠ some .recalling || s.pool.copies.any (fun c => c.src = e) ||
      !isDramHome dest s || (extentAt dest s).state ≠ .free || inUse dest s then extEnd view 2 e s
  else
    let lender := (l.map (·.2.lender)).getD 0
    let c : CopyJob := { src := e, dest := dest, lender := lender, running := false, stalled := false }
    extEnd view 0 e (startCopies (onPool (fun p => { p with copies := p.copies ++ [c] }) s))

/-- FORCE_RECALL (R34, R38). -/
def extForce (view e : Nat) (s : Part) : Part :=
  let x := extentAt e s
  match (if inLoanWindow e then loanOf e s else none) with
  | none => extEnd view 2 e s
  | some (i, l) =>
    if x.state ≠ .live && x.state ≠ .revoking && x.state ≠ .recalling then extEnd view 2 e s
    else
      let s := if l.state = .active then recallLoan i s else s
      let s := match (extentAt e s).state with
        | .recalling => startCopies (loseExtent e s)
        | .live | .revoking => startCopies (dropWaiting e stLost (loseExtent e s))
        | _ => s
      extEnd view 0 e (loanEnds i s)

/-- FREE (R38, R111). -/
def extFree (view e : Nat) (s : Part) : Part :=
  let x := extentAt e s
  if (x.state ≠ .live && x.state ≠ .lost) || (x.cls = .catalogue && dirHeld e s) then extEnd view 2 e s
  else if extBusy e s then extEnd view 2 e s
  else
    let s := changeExtent e (fun x => { x with state := .free, object := 0 }) s
    let s := unbindExtent e (if inFlashWindow e then dropStaged e s else s)
    extEnd view 0 e (checkLoanOf e s)

/-- Perform a command of POL_EXT_CMD (R37). DESIGN CHOICE, log 77: an OP that R37 refuses is answered BAD_STATE, even where EXT is one
for which R39 gives NO_SUCH_EXTENT. -/
def extPerform (view cmd : Nat) (s : Part) : Part :=
  let e := field cmd 17 0
  let dest := field cmd 49 32
  let op := field cmd 23 20
  if op = 0 || 4 < op then extEnd view 2 e s
  else if noSuchExtent e s || (op = 2 && noSuchExtent dest s) then extEnd view 4 e s
  else
    match op with
    | 1 => extRevoke view e s
    | 2 => extMoveOut view e dest s
    | 3 => extForce view e s
    | _ => extFree view e s

/-- A write of POL_EXT_CMD. -/
def writeExtCmd (view cmd : Nat) (s : Part) : Part :=
  writeSeq 5 (·.pool.extSeq) (fun q => onPool fun b => { b with extSeq := q }) extPerform view cmd s

/-- A lender request is abandoned (step 4 of R31): its requester gets TIMEOUT, the lender's answer will be late. -/
def abandonLender (r : LenderReq) (s : Part) : Part :=
  let s := onPool (fun p => { p with lenderReqs := p.lenderReqs.erase r }) s
  let s := onLinks (fun l => { l with tracked := tdel l.tracked (trackKey agPart r.tag.toNat) }) s
  refuseCause r.req stTimeout 1 s

/-- REVOKE_COMPLETE: every old-epoch request has been answered, or the completion timeout after step 2 has passed and the lender
requests still out are abandoned (step 4 of R31). The extent leaves REVOKING, unless a recall or a move holds it. -/
def revokeCompletes (e : Nat) (s : Part) : Part :=
  match s.pool.revokes.find? fun r => r.ext = e with
  | none => s
  | some r =>
    let epoch := (extentAt e s).epoch
    let s := (s.pool.lenderReqs.filter fun q => q.ext = e && q.epoch ≠ epoch).foldl (fun s q => abandonLender q s) s
    let s := onPool (fun p => { p with revokes := p.revokes.erase r }) s
    let s := if (extentAt e s).state = .revoking then changeExtent e (fun x => { x with state := .live }) s else s
    let s := onFlash (fun b => { b with moves := b.moves.map fun m => if m.src = e then { m with revoking := false } else m }) s
    runSeq (·.pool.extSeq) (fun q => onPool fun b => { b with extSeq := q }) extPerform 8 (extEnd r.view 0 e s)

/-! ### The table window (R535 to R537) -/

/-- States, classes, operation sets and places as the entry holds them (R25). -/
def extStateNum : ExtState → Nat
  | .free => 0 | .live => 1 | .revoking => 2 | .recalling => 3 | .moving => 4 | .lost => 5
def extClassNum : ExtClass → Nat
  | .owned => 0 | .edition => 1 | .catalogue => 2 | .reserved => 3
def placeNum : Place → Nat
  | .interleaved => 0 | .channelLocal => 1 | .loan => 2 | .flash => 3 | .reserved n => n
def placeOf (n : Nat) : Place :=
  match n with | 0 => .interleaved | 1 => .channelLocal | 2 => .loan | 3 => .flash | n => .reserved n

/-- The two words of an extent entry (R25). -/
def extentWords (x : Extent) : List Nat :=
  [x.detail + placeNum x.place * 2 ^ 21 + x.opset * 2 ^ 24 + extClassNum x.cls * 2 ^ 26 + extStateNum x.state * 2 ^ 28 +
    x.gallery * 2 ^ 32 + bitOf x.twinValid * 2 ^ 35 + x.twinPart * 2 ^ 36 + x.epoch.toNat * 2 ^ 48, x.object.toNat]

/-- Entry `k` of an object's extent list (R27), where the list stands in a DRAM-home extent of this part that can be read. -/
def extentListed (o : ObjectEntry) (k : Nat) (s : Part) : Option Nat :=
  let a := o.list.toNat + 8 * k
  let line := a % 2 ^ 46 / 128
  let e := line / linesPerExtent
  if a / 2 ^ 46 ≠ homePart s || !isDramHome e s then none
  else
    let (status, bytes, _) := readLine (extentAt e s) line (line % linesPerExtent) agPart s
    if status = stOK then some (leAt bytes (a % 128) 8) else none

/-- The place of a local extent in its object (R18, R27): where the object's extent list names it, else open (log entry 25). -/
def listedOrdinal (object : BitVec 64) (e : Nat) (s : Part) : Nat :=
  let base := homePart s * 2 ^ 46 + e * 2 ^ 28
  let listed := (s.pool.objects.find? fun p => object ≠ 0 && p.2.id = object).bind fun p =>
    (List.range (min p.2.count 1048576)).find? fun k => extentListed p.2 k s = some base
  listed.getD (ordinalOf object (homePart s) e)

/-- The entry that two words spell; OBJECT of a FREE entry is null, DETAIL of a placement other than loan is zero. -/
def extentOfWords (e : Nat) (w0 w1 : Nat) (s : Part) : Extent :=
  let st := extStateOf (field w0 31 28)
  let place := placeOf (field w0 23 21)
  let object : BitVec 64 := if st = .free then 0 else BitVec.ofNat 64 w1
  { object := object, epoch := BitVec.ofNat 16 (field w0 63 48), twinPart := field w0 47 36, twinValid := bitAt w0 35,
    gallery := field w0 34 32, state := st, cls := extClassOf (field w0 27 26), opset := field w0 25 24, place := place,
    detail := if place = .loan then field w0 11 0 else 0,
    ordinal := if st = .free then 0 else listedOrdinal object e s }

/-- Does PLACE match the window and area of an extent (R26)? -/
def placeMatches (e : Nat) (p : Place) (s : Part) : Bool :=
  match p with
  | .interleaved => e < interleavedExtents s
  | .channelLocal => interleavedExtents s ≤ e && isDramHome e s
  | .loan => inLoanWindow e
  | .flash => inFlashWindow e
  | .reserved _ => false

/-- LIVE catalogue extents of this part (R26, R138). DESIGN CHOICE, log 81: one in REVOKING is not LIVE and does not count, so that the end
of its revocation can make it one more. -/
def liveCatalogue (s : Part) : Nat := (s.pool.extents.filter fun p => p.2.state = .live && p.2.cls = .catalogue).length

/-- May an entry of this STATE carry the PLACE (R26)? A FREE entry may carry a reserved one; any other must match the window. -/
def placeFits (e : Nat) (y : Extent) (s : Part) : Bool :=
  placeMatches e y.place s ||
  match y.place with
  | .reserved _ => y.state = .free
  | _ => false

/-- RESULT of the write of an extent entry, `object` being the OBJECT written (R26, R38, R95, R110, R111, R334, R335, R420, R421). -/
def extentWriteResult (e : Nat) (stateField : Nat) (object : BitVec 64) (y : Extent) (s : Part) : Nat :=
  let x := extentAt e s
  let live := y.state = .live
  let wasCat := x.state = .live && x.cls = .catalogue
  if noSuchExtent e s then 4
  else if 1 < stateField || (x.state ≠ .free && x.state ≠ .live) || inUse e s then 2
  else if (live && (y.cls = .reserved || y.opset = 0)) || !placeFits e y s then 2
  else if live && y.place = .flash && x.state ≠ .live then 2
  else if y.twinValid && y.place = .loan then 2
  else if y.cls = .catalogue && (y.place ≠ .interleaved || (catRegionOf object s).isNone) then 2
  else if wasCat && (!live || y.cls ≠ .catalogue || y.object ≠ x.object || y.gallery ≠ x.gallery) && dirHeld e s then 2
  else if live && y.cls = .catalogue && !wasCat && 512 ≤ liveCatalogue s then 3
  else 0

/-- A flash-home extent is freed by a write of its entry: its staged pages are dropped (R337), and a read that still waits for the drive
finds a FREE extent (R15). -/
def leaveFlash (e : Nat) (s : Part) : Part := checkRoom (dropWaiting e stUnsupported (dropStaged e s))

/-- Write an extent entry that has passed its checks. An extent that becomes a LIVE catalogue extent has its directory set to I
and is closed to requests until CATALOGUE_INIT_DONE (R111). -/
def writeExtent (e : Nat) (y : Extent) (s : Part) : Part :=
  let x := extentAt e s
  let init := y.state = .live && y.cls = .catalogue && !(x.state = .live && x.cls = .catalogue)
  let s := changeExtent e (fun _ => y) s
  let s := if inFlashWindow e && x.state = .live && y.state ≠ .live then leaveFlash e s else s
  if !init then s
  else
    let pred := ((catRegionOf y.object s).map (·.predInit)).getD 0
    onCatalogue (fun b =>
      { b with
        dir := b.dir.filter fun p => p.1 / linesPerExtent ≠ e
        dirInit := tset b.dirInit e pred
        initBusy := if e ∈ b.initBusy then b.initBusy else b.initBusy ++ [e] }) s

/-- CATALOGUE_INIT_DONE (R111). -/
def catInitDone (e : Nat) (s : Part) : Part := onCatalogue (fun b => { b with initBusy := b.initBusy.filter fun x => x ≠ e }) s

/-- The eight words of an object entry (R27). -/
def objectWords (o : ObjectEntry) : List Nat :=
  [o.id.toNat, o.count + o.attr * 2 ^ 32, o.list.toNat, o.size.toNat] ++
  (List.range 4).map fun k => leAt o.classState (8 * k) 8

/-- An object entry that nothing has written. -/
def ObjectEntry.blank : ObjectEntry := { id := 0, count := 0, attr := 0, list := 0, size := 0, classState := List.replicate 32 0 }

/-- The object entry that eight words spell. -/
def objectOfWords (w : List Nat) : ObjectEntry :=
  { id := BitVec.ofNat 64 (w.getD 0 0), count := field (w.getD 1 0) 31 0, attr := field (w.getD 1 0) 47 32,
    list := BitVec.ofNat 64 (w.getD 2 0), size := BitVec.ofNat 64 (w.getD 3 0),
    classState := (List.range 4).flatMap fun k => leBytes 8 (w.getD (4 + k) 0) }

/-- The number of a loan state (R28). -/
def loanStateNum : LoanState → Nat
  | .free => 0 | .offered => 1 | .active => 2 | .recalling => 3 | .ended => 4

/-- The four words of a loan entry (R28). -/
def loanWords (l : Loan) : List Nat :=
  [l.lender + l.count * 2 ^ 16 + l.first * 2 ^ 32 + loanStateNum l.state * 2 ^ 44 + l.grace * 2 ^ 48, l.base.toNat,
    l.tag.toNat, 0]

/-- RESULT of the write of a loan entry, and the state after it (R29, R536). -/
def writeLoan (i : Nat) (w : List Nat) (s : Part) : Nat × Part :=
  let l := loanAt i s
  let first := field (w.getD 0 0) 43 32
  let active := { l with first := first, state := LoanState.active }
  let free := { l with state := LoanState.free }
  if l.state ≠ .offered then (2, s)
  else if w.take 4 = loanWords free then (0, declineOffer i s)
  else if w.take 4 = loanWords active && first + l.count ≤ 4096 &&
      ((List.range l.count).all fun k => slotFree s (first + k)) then
    let s := putLoan i { active with offer := none } s
    (0, match l.offer with
      | some m => respond m stOK 1 [] s
      | none => s)
  else (2, s)

/-- The four words of a route entry (R537). -/
def routeWords (r : Route) : List Nat :=
  let bs : List Byte := (r.path ++ r.unused).map (BitVec.ofNat 8 ·)
  let spread := (List.range 16).foldl (fun n h => n + r.spread.getD h 0 % 16 * 2 ^ (4 * h)) 0
  [leAt bs 0 8, leAt bs 8 8, spread, r.path.length + bitOf r.given * 2 ^ 8]

/-- The route entry that four words spell; SPREAD is filled where it is not given (R24, R537). -/
def routeOfWords (w : List Nat) : Route :=
  let bs := (leBytes 8 (w.getD 0 0) ++ leBytes 8 (w.getD 1 0)).map (·.toNat)
  let n := field (w.getD 3 0) 7 0
  let given := bitAt (w.getD 3 0) 8
  let spread := (List.range 16).map fun h => field (w.getD 2 0) (4 * h + 3) (4 * h)
  { path := bs.take n, unused := bs.drop n, given := given,
    spread := if given || n = 0 then spread else (List.range 16).map fun h => h % n }

/-- May a route entry be written (R536)? -/
def routeOk (port : Bool) (w : List Nat) : Bool :=
  let n := field (w.getD 3 0) 7 0
  let given := bitAt (w.getD 3 0) 8
  n ≤ 16 && (!port || n ≤ 1) && field (w.getD 3 0) 63 16 = 0 &&
  (!given || n = 0 || ((List.range 16).all fun h => decide (field (w.getD 2 0) (4 * h + 3) (4 * h) < n)))

/-- The route of a local logical port, as the table window shows it. -/
def portRoute (p : Nat) (s : Part) : Route :=
  (tget? s.pool.routePorts p).getD
    { path := [p], spread := List.replicate 16 0, unused := List.replicate 15 0, given := false }

/-- The route to a part, as the table window shows it. -/
def partRoute (p : Nat) (s : Part) : Route :=
  (tget? s.pool.routeParts p).getD
    { path := [], spread := List.replicate 16 0, unused := List.replicate 16 0, given := false }

/-- The four words of a hold entry (R420). -/
def holdWords (h : Option HoldEntry) : List Nat :=
  match h with
  | none => [0, 0, 0, 0]
  | some h =>
    let n := h.srcPart + h.srcExt * 2 ^ 12 + h.epoch.toNat * 2 ^ 30 + h.gallery * 2 ^ 46 + extStateNum h.state * 2 ^ 49 +
      extClassNum h.cls * 2 ^ 53 + h.opset * 2 ^ 55 + 2 ^ 57 + bitOf h.synced * 2 ^ 58
    [h.object.toNat, n, 0, 0]

/-- Entries of a table (R25, R27, R28, R35, R420, R536). -/
def tableSize (t : Nat) (s : Part) : Nat :=
  match t with
  | 0 => 262144 | 1 => 1048576 | 2 => 4096 | 3 => s.mgmt.record.routeParts | 4 => 256 | 5 => 12288 | _ => 0

/-- The words of a table's entry. -/
def tableWords (t i : Nat) (s : Part) : List Nat :=
  match t with
  | 0 => if noSuchExtent i s then [0, 0] else extentWords (extentAt i s)
  | 1 => objectWords (tget s.pool.objects i ObjectEntry.blank)
  | 2 => loanWords (loanAt i s)
  | 3 => routeWords (partRoute i s)
  | 4 => routeWords (portRoute i s)
  | _ => holdWords (tget? s.flr.holds i)

/-- A command of POL_TBL_CMD ends for its view. -/
def tblEnd (view result : Nat) (s : Part) : Part :=
  onPool (fun p => { p with tblSeq := seqEnd view result 0 p.tblSeq }) s

/-- WRITE of a table entry (R536). The spine role has no object table (R419). -/
def tableWrite (t i : Nat) (w : List Nat) (s : Part) : Nat × Part :=
  match t with
  | 0 =>
    let y := extentOfWords i (w.getD 0 0) (w.getD 1 0) s
    let r := extentWriteResult i (field (w.getD 0 0) 31 28) (BitVec.ofNat 64 (w.getD 1 0)) y s
    if r ≠ 0 then (r, s) else (0, checkLoanOf i (writeExtent i y s))
  | 1 =>
    if !isTray s then (2, s)
    else
      let o := objectOfWords w
      (0, onPool (fun p => { p with objects := if o = ObjectEntry.blank then tdel p.objects i else tset p.objects i o }) s)
  | 2 => writeLoan i w s
  | 3 =>
    if routeOk false w then
      (0, resendRerouted s.pool.routeParts (onPool (fun p => { p with routeParts := tset p.routeParts i (routeOfWords w) }) s))
    else (2, s)
  | 4 => if routeOk true w then (0, onPool (fun p => { p with routePorts := tset p.routePorts i (routeOfWords w) }) s) else (2, s)
  | _ => (6, s)

/-- Perform a command of POL_TBL_CMD (R535, R536). DESIGN CHOICE (log entry 77): an OP that is neither READ nor WRITE is BAD_STATE even where
INDEX or TABLE would be BAD_INDEX, since the rules give no order. -/
def tblPerform (view cmd : Nat) (s : Part) : Part :=
  let op := field cmd 1 0
  let t := field cmd 5 2
  let i := field cmd 25 6
  let old := (s.pool.tblData.getD view []).map (·.toNat)
  if op = 0 || op = 3 then tblEnd view 2 s
  else if 5 < t || tableSize t s ≤ i then tblEnd view 5 s
  else if op = 1 then
    let w := tableWords t i s
    let new := (List.range 8).map fun k => BitVec.ofNat 64 (w.getD k (old.getD k 0))
    tblEnd view 0 (onPool (fun p => { p with tblData := lset p.tblData view new }) s)
  else
    let (r, s) := tableWrite t i old s
    tblEnd view r s

/-- A write of POL_TBL_CMD. -/
def writeTblCmd (view cmd : Nat) (s : Part) : Part :=
  writeSeq 5 (·.pool.tblSeq) (fun q => onPool fun b => { b with tblSeq := q }) tblPerform view cmd s

end Sys2Proof.Machine
end

