-- ==== Sys2Proof/Machine/FlashTier.lean ====
section
/-!
DEFINITION. The flash tier (chapter 11): tier moves (R338 to R341), the anteroom's commands (R335, R336), ADOPT, DISCARD and
ENROLL (R332, R345), the completions and failures of NVMe commands (R326, R327, R344), and drives coming and going (R343 to
R345, R550, R553).
-/

namespace Sys2Proof.Machine

/-! ### Commands -/

/-- A command of FLT_CMD ends for its view (R347). -/
def fltEnd (view result : Nat) (s : Part) : Part :=
  onFlash (fun b => { b with seq := seqEnd view result 0 b.seq }) s

/-- The move of that number. -/
def moveNum (n : Nat) (s : Part) : Option Move := s.flt.moves.find? fun m => m.num = n

/-- Change a move. -/
def onMove (n : Nat) (f : Move → Move) (s : Part) : Part :=
  onFlash (fun b => { b with moves := b.moves.map fun m => if m.num = n then f m else m }) s

/-- NVMe commands of a drive that serve a move. -/
def moveCmd (n : Nat) (use : NvmeUse) : Bool :=
  match use with
  | .moveRead k _ | .moveWrite k _ | .moveFlush k => k = n
  | _ => false

/-- Nothing is wanted any more of the commands of a move; a Write that is outstanding still writes its zone (R327). -/
def voidMove (m : Move) (y : Drive) : Drive :=
  let void (c : NvmeCmd) : NvmeCmd := match c.use with
    | .moveWrite k _ => if k = m.num then { c with use := .voidWrite m.zone } else c
    | _ => c
  voidUses (moveCmd m.num) { y with cmds := y.cmds.map void }

/-! ### Starting a move -/

/-- The one slot of a region that is not FREE, if there is exactly one (R338). -/
def onlySlot (r : EditionRegion) : Option Nat :=
  match (List.range r.slots.length).filter fun k => (slotAt r k).state ≠ .free with
  | [k] => some k
  | _ => none

/-- Is a slot CURRENT or RETIRED? -/
def isPublished (k : SlotRec) : Bool := k.state = .current || k.state = .retired

/-- The slot and serial of the edition that a move carries (R338, R339); none where the move is refused with BAD_STATE. -/
def moveEdition (demote : Bool) (e : Nat) (s : Part) : Option (Nat × Nat) :=
  let x := extentAt e s
  if x.cls ≠ .edition then some (0, 0)
  else
    match editionOf x.object s with
    | none => none
    | some r =>
      let slot : Option Nat :=
        match demote, tget? s.flt.bound e with
        | false, some b => if (slotAt r b.slot).serial.toNat = b.serial then some b.slot else none
        | _, _ => onlySlot r
      match slot with
      | some k => if isPublished (slotAt r k) then some (k, (slotAt r k).serial.toNat) else none
      | none => none

/-- Does the running fill name the extent (R338)? -/
def fillNames (e : Nat) (s : Part) : Bool :=
  s.dram.fill.any fun r => decide (r.firstLine < (e + 1) * linesPerExtent) && decide (e * linesPerExtent < r.firstLine + r.lines)

/-- Data zones of a drive that are being written. -/
def zonesWriting (d : Nat) (s : Part) : Nat :=
  ((s.flt.moves.filter fun m => m.demote && m.drive = d).map (·.zone) ++ voidZones (drive d s)).eraseDups.length

/-- Checks of DEMOTE (R338), in the order of its table. -/
def demoteResult (e dest zone : Nat) (s : Part) : Nat :=
  let d := driveOf dest
  let x := extentAt e s
  let y := drive d s
  let z := zoneAt d zone s
  if !inFlashWindow dest then 3
  else if y.state ≠ .ready then 7
  else if !isDramHome e s || isReserved e s || x.state ≠ .live || (x.cls ≠ .owned && x.cls ≠ .edition) then 3
  else if (moveEdition true e s).isNone then 2
  else if (extentAt dest s).state ≠ .free || hasRecord dest s || isMoveDest dest s then 3
  else if zone < 2 || y.nzones ≤ zone || 65536 ≤ zone || z.finished || zoneWriting d zone s ||
      y.zcap < z.wp + extentLbas then 4
  else if fillNames e s || 8 ≤ zonesWriting d s then 1
  else if 64 ≤ s.flt.moves.length then 5
  else 0

/-- Checks of PROMOTE (R339): it is refused with BAD_STATE wherever its extents, its drive or its edition are not as the rule needs
them, and with TABLE_FULL where no move slot is free (R340; DEDUCED from R338, log entry 47). An extent that the drive has no record
of, and no kept pages, cannot be copied. -/
def promoteResult (e dest : Nat) (s : Part) : Nat :=
  let x := extentAt e s
  let source : Bool := inFlashWindow e && x.state = .live && (isKept e s || (driveServes (driveOf e) s && thas s.flt.bound e))
  let place : Bool := isDramHome dest s && !isReserved dest s && (extentAt dest s).state = .free && !inUse dest s
  if !source || !place || (moveEdition false e s).isNone then 2
  else if 64 ≤ s.flt.moves.length then 5
  else 0

/-- The first free move number. -/
def freeMove (s : Part) : Nat := (firstFree (fun n => (moveNum n s).isSome) 64).getD 0

/-- Start a move (step 2 of R340): the source is MOVING, and a demotion begins at the zone's write pointer. -/
def startMove (view : Nat) (demote bg : Bool) (e dest zone : Nat) (s : Part) : Part :=
  let d := driveOf (if demote then dest else e)
  let (slot, serial) := (moveEdition demote e s).getD (0, 0)
  let n := freeMove s
  let m : Move :=
    { num := n, demote := demote, src := e, dest := dest, drive := d, zone := zone, bg := bg, slot := slot, serial := serial,
      revoking := false, copied := false, next := 0, start := (zoneAt d zone s).wp, bad := [], paid := 0 }
  let s := changeExtent e (fun x => { x with state := .moving }) s
  let s := if demote then onZone d zone id s else s
  onFlash (fun b =>
    { b with moves := b.moves ++ [m], seq := seqEnd view 0 (n * 2 ^ 5) b.seq }) s

/-! ### Ending a move -/

/-- 64 KiB blocks that a move reads or writes: the extent's bytes and its poison bitmap; and the LBAs of each. -/
def moveBlocks : Nat := 4100
def blockLbas : Nat := 16

/-- LBAs that a demotion has written (R341); a Write that is outstanding counts as written (DESIGN CHOICE, log entry 46). -/
def movedLbas (m : Move) (s : Part) : Nat :=
  let out : Bool := (drive m.drive s).cmds.any fun c => match c.use with | .moveWrite k _ => k = m.num | _ => false
  if m.copied then extentLbas else min extentLbas (blockLbas * (m.next + bitOf out))

/-- The zone that a demotion has been writing: its write pointer stands after what was written, and it is closed where another extent
still fits (R326). One in which nothing has been written is not in use (R350). -/
def leaveZone (m : Move) (s : Part) : Part :=
  let wp := m.start + movedLbas m s
  let s := onZone m.drive m.zone (fun z => { z with wp := wp }) s
  if wp = 0 && !(zoneAt m.drive m.zone s).finished then onDrive m.drive (fun y => { y with zones := tdel y.zones m.zone }) s
  else if driveServes m.drive s && !(zoneAt m.drive m.zone s).finished && wp + extentLbas ≤ (drive m.drive s).zcap then
    nvme m.drive (.close m.zone) false s
  else s

/-- A move ends without a switch (R341): the source returns to LIVE, or to the REVOKING that a revocation still needs; its records
are undone, and the LBAs that it has written are dead. `event` gives the status of MOVE_FAILED. -/
def stopMove (n : Nat) (event : Option Nat) (s : Part) : Part :=
  match moveNum n s with
  | none => s
  | some m =>
    let dead := movedLbas m s
    let s := if m.demote && !m.copied then leaveZone m s else s
    let s := onFlash (fun b => { b with moves := b.moves.filter fun q => q.num ≠ n }) s
    let s := onDrive m.drive (voidMove m) s
    let s := changeExtent m.src (fun x => { x with state := if m.revoking then .revoking else .live }) s
    let s :=
      if m.demote then
        if m.copied then unbindExtent m.dest s
        else resetDeadZones m.drive (count 13 m.drive 66 dead s)
      else
        match tget? s.flt.bound m.src with
        | some b => if m.copied && driveServes m.drive s then jAppend m.drive b s else s
        | none => s
    match event with
    | some st => flashEvent 2 n m.drive st (m.src + m.dest * 2 ^ 18) s
    | none => s

/-- The switch of a demoted edition drops the extent's page map and returns its private pages to the spare pool (step 8). -/
def dropMap (object : BitVec 64) (e : Nat) (s : Part) : Part :=
  match editionOf object s with
  | none => s
  | some r =>
    let mine (p : Nat × MapEntry) : Bool := p.1 / (16 * 4096) = e
    let pages := ((r.maps.filter fun p => mine p && p.2.priv).map (·.2.page)).eraseDups
    let s := onSpare object (fun q => { q with pages := q.pages ++ pages.filter fun p => p / 4096 ∈ q.exts && p ∉ q.pages }) s
    onEdition object (fun r => { r with maps := r.maps.filter fun p => !mine p }) s

/-- The switch of a promoted edition gives the extent an in-place page map with every PRIVATE bit set (step 8). -/
def inPlaceMap (object : BitVec 64) (e slot : Nat) (s : Part) : Part :=
  let put (t : Table MapEntry) (p : Nat) : Table MapEntry := tset t (mapKey e slot p) { page := e * 4096 + p, priv := true }
  onEdition object (fun r => { r with maps := (List.range 4096).foldl put r.maps }) s

/-- The switch (steps 7 and 8 of R340): DEST becomes LIVE with the source's fields and the source becomes FREE. Reads that still
wait for the drive at a promotion's switch are answered from DEST. -/
def switchMove (m : Move) (s : Part) : Part :=
  let x := extentAt m.src s
  let place : Place := if m.demote then .flash else if m.dest < interleavedExtents s then .interleaved else .channelLocal
  let s := putExtent m.dest { x with state := .live, place := place, detail := 0 } s
  let s := putExtent m.src { x with state := .free, object := 0, twinValid := false, twinPart := 0 } s
  let s := if x.twinValid && !isTwinDown x.twinPart s then sendEntry x.twinPart (homePart s) m.src m.dest (extentAt m.dest s) false s else s
  let s := onFlash (fun b => { b with moves := b.moves.filter fun q => q.num ≠ m.num }) s
  let s := onDrive m.drive (voidMove m) s
  let s :=
    if m.demote then if x.cls = .edition then dropMap x.object m.src s else s
    else
      let s := if x.cls = .edition then inPlaceMap x.object m.dest m.slot s else s
      let src (key per : Nat) : Bool := key / per = m.src
      let waits := ((s.flt.reading.filter fun p => src p.1 4096).flatMap (·.2)) ++
        ((s.flt.direct.filter fun p => src p.1 65536).flatMap (·.2))
      let s := onFlash (fun b =>
        { b with
          reading := b.reading.filter fun p => !src p.1 4096
          direct := b.direct.filter fun p => !src p.1 65536
          bound := tdel b.bound m.src }) (dropStaged m.src s)
      let freed (z : Zone) : Zone := { z with live := z.live.filter fun e => e ≠ m.src }
      let s := resetDeadZones m.drive (onDrive m.drive (fun y => { y with zones := tmap y.zones freed }) s)
      waits.foldl (fun s q =>
        let line := lineOf q.addr.toNat
        let (st, bytes, s) := readLine x (m.dest * linesPerExtent + line) line q.srcPort.toNat s
        respond q st 0 bytes s) s
  checkRoom (flashEvent 1 m.num m.drive 0 (m.src + m.dest * 2 ^ 18) s)

/-- Switch every move whose copy is done and whose source is not being revoked (step 6 of R340). -/
def switchReady (s : Part) : Part :=
  (s.flt.moves.filter fun m => m.copied && !m.revoking).foldl (fun s m => switchMove m s) s

/-! ### Copying -/

/-- Store a line of flash: bytes and encryption as they were given, no check bits of DRAM. -/
def storeFlash (line : Nat) (bytes : List Byte) (poison : Bool) (cipher : Option Cipher) (s : Part) : Part :=
  onMemory (putLine line bytes { poison := poison, errs := [], cipher := if poison then none else cipher }) s

/-- Physical lines of the extent's pages that a demotion reads: through the page map of an edition's slot (step 4 of R340). -/
def demoteSource (m : Move) (line : Nat) (s : Part) : Nat := physLine m.src (extentAt m.src s) m.slot line s

/-- KEY_EPOCH of the BIND of a demotion (R395, R401): 0x0000 where every page is BOUND, CURRENT's epoch where every page can be
brought under CURRENT; none where the copy cannot be performed. -/
def demoteEpoch (m : Move) (s : Part) : Option Nat :=
  let x := extentAt m.src s
  let g := gallery x.gallery s
  let tags := (List.range pagesPerExtent).map fun p => pageTag (demoteSource m (p * linesPerPage) s / linesPerPage) s
  if tags.all fun t => t.epoch = 0 then some 0
  else if tags.any fun t => t.epoch = 0 || epochClass t.epoch g = .other then none
  else g.current.map (·.epoch)

/-- Write one line of a demotion (R342, R395): ciphertext unchanged, but a line of a PREVIOUS or UNKEYED page under CURRENT. -/
def demoteLine (m : Move) (line : Nat) (s : Part) : Part :=
  let x := extentAt m.src s
  let g := gallery x.gallery s
  let phys := demoteSource m line s
  let t := pageTag (phys / linesPerPage) s
  let (c, s) := copiedLine phys s
  let dst := m.dest * linesPerExtent + line
  if c.bad then storeFlash dst c.bytes true none s
  else if t.epoch = 0 || line % linesPerPage < t.split || epochClass t.epoch g = .current then storeFlash dst c.bytes false c.cipher s
  else
    let want : Option Cipher := if epochClass t.epoch g = .previous then
        g.previous.map fun k => cipherOf k x.ordinal line x.object.toNat
      else none
    storeFlash dst (readUnder want c.bytes c.cipher) false (g.current.map fun k => cipherOf k x.ordinal line x.object.toNat) s

/-- The record of a demoted extent (R330). -/
def bindRec (m : Move) (epoch : Nat) (s : Part) : JRec :=
  let x := extentAt m.src s
  let y := drive m.drive s
  { kind := .bind, zone := m.zone, ext := m.dest, lba := m.zone * y.zsize + m.start, object := x.object, ordinal := x.ordinal,
    gallery := x.gallery, cls := extClassNum x.cls, opset := x.opset, anyPoison := (poisonBitmap m.dest s).any fun b => b ≠ 0,
    twinValid := x.twinValid, twinPart := x.twinPart, serial := m.serial, slot := m.slot, keyEpoch := epoch, seq := 0 }

/-- Copy every line of a demotion and write its BIND (steps 4 and 5 of R340). -/
def copyDemote (m : Move) (s : Part) : Part :=
  match demoteEpoch m s with
  | none => stopMove m.num (some stUnsupported) s
  | some epoch =>
    let s := (List.range linesPerExtent).foldl (fun s i => demoteLine m i s) s
    let r := bindRec m epoch s
    let s := jFlushed m.drive (jAppend m.drive r s)
    let s := onFlash (fun b => { b with bound := tset b.bound m.dest { r with seq := (drive m.drive s).jseq - 1 } }) s
    let s := onZone m.drive m.zone (fun z => { z with live := z.live ++ [m.dest] }) s
    leaveZone { m with copied := true } (onMove m.num (fun m => { m with copied := true }) s)

/-- Copy one line of a promotion: from its staged page, or from flash (step 4 of R340). -/
def promoteLine (m : Move) (line : Nat) (s : Part) : Part :=
  let staged := tget? s.flt.staged (m.src * 4096 + line / linesPerPage)
  let phys := match staged with
    | some g => g.room * linesPerPage + line % linesPerPage
    | none => m.src * linesPerExtent + line
  stageLine phys (m.dest * linesPerExtent + line) (staged.isNone && line / 32 ∈ m.bad) s

/-- Copy every line of a promotion, tag its pages with the KEY_EPOCH of the BIND, and write the UNBIND (steps 4 and 5 of R340). -/
def copyPromote (m : Move) (s : Part) : Part :=
  let tagOf (p : Nat) (s : Part) : PageTag :=
    match tget? s.flt.bound m.src, tget? s.flt.staged (m.src * 4096 + p) with
    | some b, none => { epoch := b.keyEpoch, split := 0 }
    | some b, some g => if g.kept then pageTag g.room s else { epoch := b.keyEpoch, split := 0 }
    | none, some g => pageTag g.room s
    | none, none => PageTag.unkeyed
  let s := (List.range pagesPerExtent).foldl (fun s p =>
    setTag (m.dest * pagesPerExtent + p) (tagOf p s).epoch (tagOf p s).split s) s
  let s := (List.range linesPerExtent).foldl (fun s i => promoteLine m i s) s
  let s := if thas s.flt.bound m.src && driveServes m.drive s then jFlushed m.drive (jAppend m.drive (unbindRec m.src) s) else s
  onMove m.num (fun m => { m with copied := true }) s

/-- The class of a move (R340, R453), and the energy of its lines: 512 of each block of 64 KiB. -/
def moveClass (bg : Bool) : Nat := if bg then 10 else 5
def moveCost : Nat := linesPerExtent * lineCost

/-- MOVE_COPY_DONE (steps 3 to 8 of R340): the copy completes, unless a channel-unit command still runs on the source or
the move's class has not given it the energy. -/
def moveCopyDone (n : Nat) (s : Part) : Part :=
  match moveNum n s with
  | none => s
  | some m =>
    let busy : Bool := s.chu.cmds.any fun c => c.running && chuExt c.desc = m.src
    if m.copied || m.paid < moveCost || busy || (!driveServes m.drive s && !isKept m.src s) then s
    else switchReady (if m.demote then copyDemote m s else copyPromote m s)

/-- The next NVMe command of a move (step 4 of R340): a demotion writes its 64 KiB blocks, the poison bitmap last, and flushes; a
promotion reads every block that is not staged, and the poison bitmap. -/
def nextUse (m : Move) (s : Part) : Option NvmeUse :=
  if m.demote then
    if m.next < moveBlocks then some (.moveWrite m.num m.next) else if m.next = moveBlocks then some (.moveFlush m.num) else none
  else
    let staged (k : Nat) : Bool := k < pagesPerExtent && thas s.flt.staged (m.src * 4096 + k)
    (((List.range moveBlocks).drop m.next).find? fun k => !staged k).map fun k => .moveRead m.num k

/-- The class of a move gives it energy (R454). -/
def payMove (bg : Bool) (s : Part) : Option Part :=
  match s.flt.moves.find? fun m => m.bg = bg && m.paid < moveCost with
  | none => none
  | some m =>
    let e := givable (moveClass bg) (moveCost - m.paid) s
    if e = 0 then none else some (onMove m.num (fun m => { m with paid := m.paid + e }) (spend (moveClass bg) e s))

/-- Issue the next NVMe command of a move of a class, or give such a move energy: a block goes once its lines' energy has been given. -/
def pumpMoves (bg : Bool) (s : Part) : Option Part :=
  let ready (m : Move) : Option (Nat × NvmeUse) :=
    if m.bg ≠ bg || m.paid < min moveCost ((m.next + 1) * 512 * lineCost) || m.copied || !driveServes m.drive s || (usesOf (drive m.drive s)).any (moveCmd m.num) ||
        (s.chu.cmds.any fun c => c.running && chuExt c.desc = m.src) then none
    else (nextUse m s).map fun u => (m.drive, u)
  match s.flt.moves.findSome? ready with
  | some (d, u) => some (nvme d u false s)
  | none => payMove bg s

/-- Issue the NVMe command of a direct read that waits for one, or one that was held (R327). -/
def pumpFlash (s : Part) : Option Part :=
    let idle (block : Nat) : Bool :=
      let d := driveOf (block / 65536)
      driveServes d s && NvmeUse.direct block ∉ usesOf (drive d s)
    match s.flt.direct.find? fun p => idle p.1 with
    | some (block, _) => some (issueDirect block s)
    | none => pumpHeldNvme s

/-! ### The anteroom -/

/-- Evict the unpinned pages of a room extent (R335). -/
def evictRoom (e : Nat) (s : Part) : Part :=
  let go (p : Nat × Staged) : Bool := p.2.room / 4096 = e && !isPinned p.1 p.2 s
  let out := s.flt.staged.filter go
  let s := out.foldl (fun s p => count 13 (driveOf (p.1 / 4096)) 4 1 s) s
  onFlash (fun b => { b with staged := b.staged.filter fun p => !go p }) s

/-- REMOVE_ROOM_DONE: no page of the room extent is pinned or on its way, and it returns as FREE (R335). -/
def removeRoomDone (s : Part) : Part :=
  match s.flt.run with
  | some (.removeRoom view e) =>
    let s := evictRoom e s
    let left : Bool := (takenRooms s).any fun r => r / 4096 = e
    if left then s
    else
      checkRoom (fltEnd view 0 (onFlash (fun b =>
        { b with room := b.room.filter fun x => x ≠ e, removing := b.removing.filter fun x => x ≠ e, run := none }) s))
  | _ => s

/-- The reads and pins that waited for a page that is now staged. -/
def serveStaged (page : Nat) (s : Part) : Part :=
  let waits := tget s.flt.reading page []
  let e := page / 4096
  let s := onFlash (fun b =>
    { b with reading := tdel b.reading page, wanted := b.wanted.filter fun p => p.1 ≠ page }) s
  waits.foldl (fun s m =>
    match tget? s.flt.bound e, tget? s.flt.staged page with
    | some b, some g => readStaged m b g s
    | _, _ => refuseCause m stTimeout 2 s) s

/-- The room page to which a command stages a page, if it does. -/
def stagingRoom (page : Nat) (c : NvmeCmd) : Option Nat :=
  match c.use with
  | .stage p r => if p = page then some r else none
  | _ => none

/-- A staging read completes (R336): the page goes to its room page with the blocks in `bad` poisoned, and the reads that wait for
it are served. -/
def pageStaged (page : Nat) (bad : List Nat) (s : Part) : Part :=
  let d := driveOf (page / 4096)
  match (drive d s).cmds.findSome? (stagingRoom page) with
  | none => s
  | some room =>
    let s := onDrive d (fun y => { y with cmds := y.cmds.filter fun c => (stagingRoom page c).isNone }) s
    let s := count 13 d 3 1 (count 13 d 64 (bad.filter (· < 16)).length (fillRoom page room bad s))
    let pins := ((s.flt.wanted.filter fun p => p.1 = page).map (·.2)).eraseDups
    let g : Staged := { room := room, pins := pins, used := s.flt.clock, kept := false }
    stageWaiting (serveStaged page (onFlash (fun b => { b with staged := tset b.staged page g }) s))

/-! ### Drives -/

/-- Requests that wait for a drive, without a staged page, complete at once with TIMEOUT (R344). -/
def failWaiting (d : Nat) (s : Part) : Part :=
  let mine (key per : Nat) : Bool := driveOf (key / per) = d
  let waits := ((s.flt.reading.filter fun p => mine p.1 4096).flatMap (·.2)) ++
    ((s.flt.direct.filter fun p => mine p.1 65536).flatMap (·.2))
  let s := onFlash (fun b =>
    { b with
      reading := b.reading.filter fun p => !mine p.1 4096
      direct := b.direct.filter fun p => !mine p.1 65536 }) s
  waits.foldl (fun s m => refuseCause m stTimeout 2 s) s

/-- A running ENROLL of a drive that is lost ends with DRIVE_DOWN. -/
def enrollFails (d : Nat) (s : Part) : Part :=
  match s.flt.run with
  | some (.enroll view k) => if k = d then fltEnd view 7 (onFlash (fun b => { b with run := none }) s) else s
  | _ => s

/-- A drive goes DOWN (R344, R341). -/
def driveDown (d : Nat) (s : Part) : Part :=
  if (drive d s).state = .absent || (drive d s).state = .down then s
  else
    let s := onDrive d (fun y => { y with state := .down, rate := 0, width := 0, cmds := [], held := [] }) s
    let s := (s.flt.moves.filter fun m => m.drive = d).foldl (fun s m => stopMove m.num (some stTimeout) s) s
    let s := flashEvent 3 0 d 0 0 (note 13 2 none .driveDown [d] s)
    failWaiting d (enrollFails d s)

/-- The critical warning of a drive (R343). -/
def driveWarns (d : Nat) (s : Part) : Part :=
  if (drive d s).state = .ready then flashEvent 5 0 d 0 0 (onDrive d (fun y => { y with state := .warn }) s) else s

/-- A drive's log is read in a turn of the TELEMETRY class (R343). -/
def pollNow (d critical percent : Nat) (s : Part) : Part :=
  let s := onDrive d (fun y => { y with percent := min percent 255 }) (spend 13 lineCost s)
  if critical ≠ 0 then driveWarns d s else s

/-- SMART_POLL (R343): the log page that a poll gets comes with the row. It waits while its class does not hold its energy. -/
def smartPoll (d critical percent : Nat) (s : Part) : Part :=
  if !driveServes d s then s
  else if canSpend 13 lineCost s then pollNow d critical percent s
  else onPower (fun p => { p with due := p.due ++ [.poll d critical percent] }) s

/-- An asynchronous event of a drive (R326, R343): it completes one of the Asynchronous Event Requests, which is issued again, and the
log that it names is read: the Changed Zone List, to no effect of its own, or SMART / Health. A critical warning puts the drive in
WARN. -/
def asyncEvent (d critical : Nat) (zones : List Nat) (s : Part) : Part :=
  let s := match (drive d s).cmds.find? fun c => c.use = .asyncEvent with
    | none => s
    | some c =>
      let s := nvme d .asyncEvent false (nvmeDone d c.cid s)
      nvme d (.getLog (if zones.isEmpty then 0x02 else 0xBF)) false s
  let s := if zones.isEmpty || !driveServes d s then s else note 13 0 none .journal (d :: zones) s
  if critical ≠ 0 then driveWarns d s else s

/-- A record of a journal as its 64 bytes spell it (R330); none where it is not a BIND or UNBIND. -/
def recordOf (bs : List Byte) : Option JRec :=
  let kind := leAt bs 0 1
  let attr := leAt bs 28 2
  if kind ≠ 1 && kind ≠ 2 then none
  else
    some { kind := if kind = 1 then .bind else .unbind, zone := leAt bs 2 2, ext := leAt bs 4 4, lba := leAt bs 8 8,
           object := BitVec.ofNat 64 (leAt bs 16 8), ordinal := leAt bs 24 4, gallery := field attr 2 0, cls := field attr 4 3,
           opset := field attr 6 5, anyPoison := bitAt attr 7, twinValid := bitAt attr 8, twinPart := leAt bs 30 2 % 4096,
           serial := leAt bs 32 4, slot := leAt bs 36 1 % 16, keyEpoch := leAt bs 38 2, seq := leAt bs 40 8 }

/-- Is the CRC of a record good? -/
def recordGood (bs : List Byte) : Bool := leAt bs 56 8 = crc64 (sliceBytes bs 0 56)

/-- The valid records of a list (R331): padding is passed over, and a bad CRC ends them. -/
def goodRecords : List (List Byte) → List (List Byte)
  | [] => []
  | r :: rs => if leAt r 0 1 = 0 then goodRecords rs else if recordGood r then r :: goodRecords rs else []

/-- The valid records of a journal zone, from its blocks. -/
def validRecords (zone : List (List Byte)) : List (List Byte) :=
  goodRecords (zone.flatMap fun b => (List.range (ceilDiv b.length 64)).map fun i => sliceBytes b (64 * i) 64)

/-- The part number and root port that a journal zone's HEADER names (R330). -/
def headerOf (zone : List (List Byte)) : Option (Nat × Nat) :=
  match validRecords zone with
  | r :: _ => if leAt r 0 1 = 3 then some (leAt r 2 2 % 4096, leAt r 1 1) else none
  | [] => none

/-- Insert a record in order of SEQ. -/
def insertRec (r : JRec) : List JRec → List JRec
  | [] => [r]
  | q :: qs => if r.seq < q.seq then r :: q :: qs else q :: insertRec r qs

/-- Replay a journal (R331): the records of both zones in order of SEQ; a later UNBIND cancels a BIND. -/
def replayJournal (zones : List (List (List Byte))) : Table JRec :=
  let all := zones.flatMap fun z => (validRecords z).filterMap recordOf
  let sorted := all.foldl (fun acc r => insertRec r acc) []
  sorted.foldl (fun t r => if r.kind = .bind then tset t r.ext r else tdel t r.ext) []

/-- Is an extent LIVE on flash, moving or being revoked there? -/
def flashLive (d : Nat) (p : Nat × Extent) : Bool :=
  inFlashWindow p.1 && driveOf p.1 = d && p.2.state ≠ .free && p.2.state ≠ .lost

/-- The highest SEQ among the valid records of a journal zone. -/
def lastSeq (zone : List (List Byte)) : Nat := ((validRecords zone).map fun r => leAt r 40 8).foldl max 0

/-- The rate and the width at which the root port trains its link (R324): the highest rate that the drive supports from 16.0 to 64.0
GT/s, and ×4, ×2 or ×1. -/
def linkRate (info : DriveInfo) : Nat := (info.rates.filter fun r => r ≤ 3).foldl max 0
def linkWidth (info : DriveInfo) : Nat := if 4 ≤ info.lanes then 4 else min info.lanes 2

/-- The Asynchronous Event Requests of a drive that serves (R326). -/
def eventRequests (y : Drive) : List NvmeCmd :=
  (List.range 4).map fun i => { cid := (y.nextCid + i) % 65536, queue := 0, use := .asyncEvent, retried := false }

/-- The drive as its bring-up and its journal show it: the active journal zone is the one with the last record. -/
def driveShown (info : DriveInfo) (st : DriveState) (recs : Table JRec) (y : Drive) : Drive :=
  let zone (u : Nat × Nat × Bool) : Nat × Zone :=
    (u.1, { wp := u.2.1, live := (recs.filter fun p => p.2.zone = u.1).map (·.1), finished := u.2.2 })
  let last (z : Nat) : Nat := lastSeq (info.journal.getD z [])
  { y with
    state := st, fresh := false, rate := linkRate info, width := linkWidth info, percent := min info.percent 255, zcap := info.zcap
    zsize := info.zsize, nzones := info.nzones, zones := info.used.foldl (fun t u => tset t (zone u).1 (zone u).2) []
    journal := [info.journal.getD 0 [], info.journal.getD 1 []], active := if last 0 < last 1 then 1 else 0
    jseq := max (last 0) (last 1) + 1, cmds := eventRequests y, held := [], nextCid := (y.nextCid + 4) % 65536 }

/-- The requirement that a drive fails first, if any (R324, R325): 0 for a device that is no lone NVMe endpoint, else the row of the
table of R325. -/
def failedItem (info : DriveInfo) : Option Nat :=
  let meets : List Bool :=
    [info.alone, 2 ≤ info.version && info.zns, info.zoned, info.lbaBytes = 4096 && info.metadata = 0 && !info.protect,
     extentLbas ≤ info.zcap && info.zcapMax = info.zcap, 3 ≤ info.nzones, (info.transfer.map fun n => decide (65536 ≤ n)).getD true,
     (info.actives.map fun n => decide (9 ≤ n)).getD true, 8 ≤ info.queues && 1024 ≤ info.entries]
  (List.range 9).find? fun i => !meets.getD i true

/-- The queue pairs are deleted when a drive is stopped (R326), the submission queues first. -/
def deleteQueues : List NvmeHeld :=
  [false, true].flatMap fun c => (List.range 8).map fun i => { use := .deleteQueue c (i + 1), retried := false }

/-- The admin commands of a drive's start (R326), and Report Zones. -/
def startCommands : List NvmeHeld :=
  ([.identify 0x01 0, .identify 0x00 0, .identify 0x05 2, .identify 0x06 2, .setFeature 0x07, .getFeature 0x07, .setFeature 0x0B] ++
    ([true, false].flatMap fun c => (List.range 8).map fun i => NvmeUse.createQueue c (i + 1)) ++
    [.getLog 0x02, .reportZones] : List NvmeUse).map fun u => { use := u, retried := false }

/-- A drive is brought up (R324, R326). -/
def startDrive (y : Drive) : Drive := { y with state := .starting, cmds := [], held := startCommands }

/-- The lines that a drive holds. -/
def driveContents (d : Nat) (info : DriveInfo) (s : Part) : Part :=
  (info.contents.filter fun c => inFlashWindow (c.1 / linesPerExtent) && driveOf (c.1 / linesPerExtent) = d).foldl
    (fun s c => storeFlash c.1 c.2.1 c.2.2 none s) s

/-- A drive's journal is replayed (R344, R345). Its records are kept for the bound extents. After a cold boot or a hot insertion where no
extent of the root port is LIVE, REPLAY_DONE is queued. A drive that returns serves again every LIVE extent whose OBJECT matches its record, and DRIVE_UP is
queued; the record of a LIVE extent that does not match is not kept. -/
def replayDrive (d : Nat) (info : DriveInfo) (s : Part) : Part :=
  let recs := (replayJournal info.journal).filter fun p => inFlashWindow p.1 && driveOf p.1 = d
  let back : Bool := !(drive d s).fresh || s.pool.extents.any (flashLive d)
  let keep (p : Nat × JRec) : Bool :=
    let x := extentAt p.1 s
    x.state = .free || x.state = .lost || x.object = p.2.object
  let s := driveContents d info (onDrive d (driveShown info .ready recs) s)
  let s := onFlash (fun b =>
    { b with bound := (recs.filter keep).foldl (fun t p => tset t p.1 p.2) (b.bound.filter fun p => driveOf p.1 ≠ d) }) s
  let s := if back then flashEvent 4 0 d 0 0 (note 13 0 none .driveUp [d] s) else flashEvent 6 0 d 0 recs.length s
  stageWaiting (resetDeadZones d s)

/-- DRIVE_READY: a drive's bring-up ends (R325, R344, R345). A link that no rate or width of R324 fits does not train, and the drive
stays as it is. -/
def driveReady (d : Nat) (info : DriveInfo) (s : Part) : Part :=
  let y := drive d s
  if !y.present || y.perst || (y.state ≠ .starting && y.state ≠ .down) then s
  else if linkRate info = 0 || linkWidth info = 0 then s
  else
    match failedItem info with
    | some k =>
      note 13 1 none .driveRejected [d, k] (onDrive d (fun y =>
        { y with state := .rejected, rate := linkRate info, width := linkWidth info, cmds := [], held := deleteQueues }) s)
    | none =>
    let headers := info.journal.filterMap headerOf
    if headers.isEmpty then onDrive d (driveShown info .unenrolled []) s
    else if headers.any fun h => h ≠ (myPart s, d) then onDrive d (driveShown info .foreign []) s
    else replayDrive d info s

/-- Is a root port enabled by the record (R480)? -/
def rootPortOn (d : Nat) (s : Part) : Bool := isTray s && bitAt s.flt.ports d && decide (d < 8)

/-- NPn_PRSNT_N goes low (R553). -/
def driveInserted (d : Nat) (s : Part) : Part :=
  if d < 8 then onDrive d (fun y => { y with present := true }) s else s

/-- NPn_PERST_N is released and the drive is brought up (R324, R553). -/
def perstRelease (d : Nat) (s : Part) : Part :=
  let y := drive d s
  if !rootPortOn d s || !y.present || !y.perst || s.cur.power ≠ .coreOn || s.cur.phase < 6 then s
  else onDrive d (fun y => { startDrive y with perst := false, fresh := true }) s

/-- NPn_PRSNT_N goes high (R553): a surprise removal. -/
def driveRemoved (d : Nat) (s : Part) : Part :=
  if 8 ≤ d then s
  else
    let s := onDrive d (fun y => { y with present := false, perst := true }) (driveDown d s)
    onFlash (fun b => { b with npDown := b.npDown.filter fun k => k ≠ d }) s

/-- NP_REFCLK is lost: every drive goes DOWN (R550). -/
def npClockLost (s : Part) : Part :=
  let up := (List.range 8).filter fun d => (drive d s).state ≠ .absent && (drive d s).state ≠ .down
  let s := up.foldl (fun s d => driveDown d s) s
  onFlash (fun b => { b with npClock := false, npDown := (b.npDown ++ up).eraseDups }) s

/-- NP_REFCLK returns: the drives that its loss took DOWN are brought up again (R550). -/
def npClockBack (s : Part) : Part :=
  let s := s.flt.npDown.foldl (fun s d =>
    if (drive d s).state = .down && (drive d s).present && !(drive d s).perst then onDrive d startDrive s
    else s) s
  onFlash (fun b => { b with npClock := true, npDown := [] }) s

/-! ### NVMe completions -/

/-- A direct read completes (R333): every request that waits for the block is answered. -/
def directDone (block status : Nat) (s : Part) : Part :=
  let waits := tget s.flt.direct block []
  let e := block / 65536
  let s := onFlash (fun b => { b with direct := tdel b.direct block }) s
  let s := if status ≠ 0 then count 13 (driveOf e) 64 1 s else s
  waits.foldl (fun s m =>
    match tget? s.flt.bound e with
    | none => refuseCause m stTimeout 2 s
    | some b =>
      if status ≠ 0 then refuse m stPoison s
      else
        let line := lineOf m.addr.toNat
        let (st, bytes, s) := readBound e b (e * linesPerExtent + line) line m.srcPort.toNat s
        respond m st 0 bytes s) s

/-- The 4 KiB blocks of a 64 KiB read that failed: those that the drive could not read are a free choice. -/
def badBlocks (s : Part) : List Nat × Part :=
  let (n, s) := drawFree s
  ((List.range 16).filter fun k => Config.freeAt n k, s)

/-- An NVMe command completes with a status, 0 for success (R327, R336, R344). -/
def nvmeCompletes (d cid status : Nat) (s : Part) : Part :=
  match (drive d s).cmds.find? fun c => c.cid = cid with
  | none => s
  | some c =>
    let s := if isRead c.use then sampleTime 13 d 0 s else s
    match c.use with
    | .stage page _ =>
      if status = 0 then pageStaged page [] s
      else
        let (bad, s) := badBlocks s
        pageStaged page bad s
    | .direct block => directDone block status (nvmeDone d cid s)
    | .moveRead n k =>
      let s := nvmeDone d cid s
      if status = 0 then onMove n (fun m => { m with next := k + 1 }) s
      else
        let (bad, s) := badBlocks s
        count 13 d 64 bad.length (onMove n (fun m => { m with next := k + 1, bad := m.bad ++ bad.map fun b => k * 16 + b }) s)
    | .moveWrite n k =>
      if status = 0 then onMove n (fun m => { m with next := k + 1 }) (nvmeDone d cid s)
      else writeFails n (nvmeDone d cid s)
    | .moveFlush n =>
      if status = 0 then onMove n (fun m => { m with next := moveBlocks + 1 }) (nvmeDone d cid s)
      else writeFails n (nvmeDone d cid s)
    | .journal z => if status = 0 then nvmeDone d cid s else firstAgain (.journal z) (nvmeDone d cid s)
    | .flush => if status = 0 then resetDeadZones d (nvmeDone d cid s) else firstAgain .flush (nvmeDone d cid s)
    | .asyncEvent => nvme d .asyncEvent false (nvmeDone d cid s)
    | .close _ | .finish _ | .resetAll | .reportZones | .identify _ _ | .getLog _ | .setFeature _ | .getFeature _
    | .createQueue _ _ | .deleteQueue _ _ | .void => nvmeDone d cid s
    | .voidWrite _ => resetDeadZones d (nvmeDone d cid s)
    | .reset z =>
      if status = 0 then zoneIsReset d z s
      else if z < 2 then firstAgain (.reset z) (nvmeDone d cid s)
      else resetDeadZones d (nvmeDone d cid s)
    | .abort old => abortDone old (nvmeDone d cid s)
where
  /-- A write error (R341): the zone is finished, the move has failed. -/
  writeFails (n : Nat) (s : Part) : Part :=
    match moveNum n s with
    | none => s
    | some m =>
      let s := onZone m.drive m.zone (fun z => { z with finished := true }) s
      stopMove n (some stUnsupported) (nvme m.drive (.finish m.zone) false s)
  /-- A command of the journal that failed goes to the drive again, before those held behind it (DESIGN CHOICE, log entry 87). -/
  firstAgain (use : NvmeUse) (s : Part) : Part :=
    onDrive d (fun y => { y with held := { use := use, retried := false } :: y.held }) s
  /-- A command has been aborted (R327, R344): a read is retried once, then fails with TIMEOUT. -/
  abortDone (old : Nat) (s : Part) : Part :=
    match (drive d s).cmds.find? fun c => c.cid = old with
    | none => s
    | some c =>
      let s := nvmeDone d old s
      match c.use with
      | .stage page room =>
        if !c.retried then nvme d (.stage page room) true s
        else
          let waits := tget s.flt.reading page []
          let s := onFlash (fun b =>
            { b with reading := tdel b.reading page, wanted := b.wanted.filter fun p => p.1 ≠ page }) s
          stageWaiting (waits.foldl (fun s m => refuseCause m stTimeout 1 s) s)
      | .direct block =>
        if !c.retried then nvme d (.direct block) true s
        else
          let waits := tget s.flt.direct block []
          waits.foldl (fun s m => refuseCause m stTimeout 1 s) (onFlash (fun b => { b with direct := tdel b.direct block }) s)
      | .moveRead n k => if !c.retried then nvme d (.moveRead n k) true s else stopMove n (some stTimeout) s
      | .moveWrite n _ | .moveFlush n => writeFails n s
      | .journal _ | .flush => firstAgain c.use s
      | .reset z => if z < 2 then firstAgain c.use s else resetDeadZones d s
      | .voidWrite _ => resetDeadZones d s
      | .close _ | .finish _ | .resetAll | .reportZones | .identify _ _ | .getLog _ | .setFeature _ | .getFeature _
      | .createQueue _ _ | .deleteQueue _ _ | .asyncEvent | .abort _ | .void => s

/-- An NVMe command is not complete after NVME_TIMEOUT: it is aborted (R327). An Abort has a row of its own, and an Asynchronous Event
Request waits for its event as long as it takes (PRESUMED, log entry 45). -/
def nvmeTimesOut (d cid : Nat) (s : Part) : Part :=
  let exempt (c : NvmeCmd) : Bool := match c.use with | .abort _ | .asyncEvent => true | _ => false
  let aborting : Bool := NvmeUse.abort cid ∈ usesOf (drive d s)
  match (drive d s).cmds.find? fun c => c.cid = cid with
  | none => s
  | some c => if exempt c || aborting then s else nvme d (.abort cid) false (count 13 d 65 1 s)

/-- An Abort is not answered within a further NVME_TIMEOUT: the controller is reset and the drive goes DOWN (R327). -/
def nvmeAbortTimesOut (d cid : Nat) (s : Part) : Part :=
  let named (c : NvmeCmd) : Bool := match c.use with | .abort old => old = cid || c.cid = cid | _ => false
  if (drive d s).cmds.any named then driveDown d s else s

/-! ### FLT_CMD -/

/-- ADD_ROOM (R335). -/
def addRoom (view e : Nat) (s : Part) : Part :=
  if interleavedExtents s ≤ e || isReserved e s || (extentAt e s).state ≠ .free || inUse e s then fltEnd view 3 s
  else if 1024 ≤ s.flt.room.length then fltEnd view 5 s
  else stageWaiting (fltEnd view 0 (onFlash (fun b => { b with room := b.room ++ [e] }) s))

/-- REMOVE_ROOM (R335): the command keeps BUSY until REMOVE_ROOM_DONE. -/
def removeRoom (view e : Nat) (s : Part) : Part :=
  if !inRoom e s then fltEnd view 3 s
  else evictRoom e (onFlash (fun b => { b with removing := b.removing ++ [e], run := some (.removeRoom view e) }) s)

/-- Slots of an edition region (R91). -/
def editionSlots : Nat := 16

/-- ADOPT (R345). -/
def adopt (view e epoch : Nat) (s : Part) : Part :=
  match tget? s.flt.bound e with
  | none => fltEnd view 8 s
  | some b =>
    let x := extentAt e s
    let r := editionOf b.object s
    let k := (r.map fun r => slotAt r b.slot).getD SlotRec.blank
    let edition := extClassOf b.cls = .edition
    if (x.state ≠ .free && !(isKept e s && x.state = .live)) || isMoveDest e s then fltEnd view 2 s
    else if edition && r.isNone && 4096 ≤ s.regions.editions.length then fltEnd view 5 s
    else if edition && k.state ≠ .free && k.serial.toNat ≠ b.serial then fltEnd view 2 s
    else
      let y : Extent :=
        { object := b.object, epoch := BitVec.ofNat 16 epoch, twinPart := b.twinPart, twinValid := b.twinValid, gallery := b.gallery,
          state := .live, cls := extClassOf b.cls, opset := b.opset, place := .flash, detail := 0, ordinal := b.ordinal }
      let slot : SlotRec := { k with serial := BitVec.ofNat 32 b.serial, state := .current, base := b.slot }
      let s :=
        if !edition then s
        else
          let s := if r.isSome then s else onRegions (fun q =>
            { q with editions := q.editions ++
              [{ object := b.object, slots := List.replicate editionSlots SlotRec.blank, writerPart := 0, writerPort := 0,
                 nextSerial := 1, maps := [] }] }) s
          onEdition b.object (fun r => { r with slots := lset r.slots b.slot slot }) s
      let s := changeExtent e (fun _ => y) s
      let kept (p : Nat × Staged) : Bool := p.1 / 4096 = e && p.2.kept
      fltEnd view 0 (onFlash (fun f => { f with staged := f.staged.filter fun p => !kept p }) s)

/-- DISCARD (R345). -/
def discard (view e : Nat) (s : Part) : Part :=
  let x := extentAt e s
  if !inFlashWindow e then fltEnd view 3 s
  else if (x.state ≠ .free && x.state ≠ .live && x.state ≠ .lost) || isMoveDest e s then fltEnd view 2 s
  else if x.state ≠ .live && !hasRecord e s then fltEnd view 8 s
  else
    let s := unbindExtent e s
    let s := if x.state = .live then dropWaiting e stLost (changeExtent e (fun x => { x with state := .lost }) s) else s
    checkRoom (fltEnd view 0 (dropStaged e s))

/-- ENROLL (R332): every zone is reset, and the command keeps BUSY until ENROLL_DONE. A demotion that is still writing to the drive stops
as by ABORT (DESIGN CHOICE, log entry 47). -/
def enroll (view d : Nat) (s : Part) : Part :=
  let y := drive d s
  let bound : Bool := s.flt.bound.any fun p => driveOf p.1 = d
  if y.state ≠ .unenrolled && y.state ≠ .foreign && !(y.state = .ready && !bound) then fltEnd view 2 s
  else
    let s := (s.flt.moves.filter fun m => m.demote && m.drive = d).foldl (fun s m => stopMove m.num (some stOK) s) s
    nvme d .resetAll false (onFlash (fun b => { b with run := some (.enroll view d) }) s)

/-- ENROLL_DONE: the last zone is reset, and the journal begins with a HEADER (R332, R347). -/
def enrollDone (s : Part) : Part :=
  match s.flt.run with
  | some (.enroll view d) =>
    let s := onDrive d (fun y =>
      { voidUses (fun u => u ≠ .asyncEvent) y with
        state := .ready, zones := [], journal := [[headerBytes d (myPart s) 0], []], active := 0, jseq := 1 }) s
    let s := journalWrites d 0 1 (count 13 d 2 (drive d s).nzones (note 13 0 none .enrolled [d] s))
    let s := onFlash (fun b => { b with run := none, bound := b.bound.filter fun p => driveOf p.1 ≠ d }) s
    fltEnd view 0 s
  | _ => s

/-- ABORT (R341). -/
def moveAbort (view n : Nat) (s : Part) : Part :=
  match moveNum n s with
  | none => fltEnd view 2 s
  | some _ => fltEnd view 0 (stopMove n (some stOK) s)

/-- Perform a command of FLT_CMD (R346). The spine role refuses every one (R324). -/
def fltPerform (view cmd : Nat) (s : Part) : Part :=
  let op := field cmd 3 0
  let e := field cmd 25 8
  let dest := field cmd 43 26
  let zone := field cmd 59 44
  let arg := s.flt.cmdArg.getD view 0
  if !isTray s then fltEnd view 6 s
  else
    match op with
    | 1 => let r := demoteResult e dest zone s; if r ≠ 0 then fltEnd view r s else startMove view true (bitAt cmd 4) e dest zone s
    | 2 => let r := promoteResult e dest s; if r ≠ 0 then fltEnd view r s else startMove view false (bitAt cmd 4) e dest 0 s
    | 3 => moveAbort view (field arg 21 16) s
    | 4 => addRoom view e s
    | 5 => removeRoom view e s
    | 6 => adopt view e (field arg 15 0) s
    | 7 => discard view e s
    | 8 => enroll view (zone % 8) s
    | _ => fltEnd view 2 s

/-- A write of FLT_CMD. -/
def writeFltCmd (view cmd : Nat) (s : Part) : Part :=
  writeSeq 13 (·.flt.seq) (fun q => onFlash fun b => { b with seq := q }) fltPerform view cmd s

/-- What a fast reset leaves of a drive's commands: the bring-up of one that is STARTING begins again; a drive that is up has its
Asynchronous Event Requests; and what had still to be written of the journal goes to the drive again (DESIGN CHOICE, log entry 87). -/
def resetDrive (y : Drive) : Drive :=
  match y.state with
  | .starting => startDrive y
  | .absent | .down | .rejected => { y with cmds := [], held := [] }
  | .ready | .warn | .unenrolled | .foreign =>
    { y with
      cmds := eventRequests y, nextCid := (y.nextCid + 4) % 65536
      held := ((usesOf y).filter isOrdered).map fun u => { use := u, retried := false } }

/-- What a fast reset leaves of the flash tier (R337, R341, R417, R532): the anteroom is empty, moves have stopped without an
event, and no NVMe command is outstanding. -/
def resetFlash (s : Part) : Part :=
  let s := s.flt.moves.foldl (fun s m => stopMove m.num none s) s
  let s := onFlash (fun b =>
    { b with
      drives := b.drives.map resetDrive
      staged := [], clock := 0, reading := [], wanted := [], direct := [], removing := [], run := none, lowSent := false,
      cmdArg := [0, 0, 0, 0], seq := CmdSeq.reset, events := EventQueue.empty }) s
  (List.range 8).foldl (fun s d => resetDeadZones d s) s

end Sys2Proof.Machine
end

