-- ==== Sys2Proof/Machine/RegionCmds.lean ====
section
/-!
DEFINITION. Commands on owned regions and editions: POL_REGION_CMD (R82 to R107), leases (R99, R100, R103), the class state that
the issuing part writes (R104), and the event of a starved spare pool (R95).
-/

namespace Sys2Proof.Machine

/-! ### The sequence -/

/-- A command of POL_REGION_CMD ends for its view, with SLOT and VALUE at their places (R107). -/
def regEnd (view result slot value : Nat) (s : Part) : Part :=
  onRegions (fun r => { r with seq := seqEnd view result (slot * 2 ^ 8 + value * 2 ^ 32) r.seq }) s

/-- Extents of a region on this part that stand in DRAM. -/
def dramExtents (object : BitVec 64) (s : Part) : List Nat :=
  ((extentsOf object s).filter fun p => p.2.place ≠ .flash && p.2.place ≠ .loan).map (·.1)

/-- The object entry of an object that this part issued, with its index. -/
def objectEntry (object : BitVec 64) (s : Part) : Option (Nat × ObjectEntry) :=
  if isIssuer object s then s.pool.objects.find? fun p => p.2.id = object else none

/-- CLASS of an object entry (R27). -/
def objectClass (o : ObjectEntry) : ExtClass := extClassOf (field o.attr 4 3)

/-- Does R106 refuse a command that needs a class with NO_SUCH_REGION or WRONG_CLASS? A region without an extent here is known to
its issuing part alone, by its object entry: DEDUCED. DESIGN CHOICE, log 80: a null OBJECT is looked up like any other, so that a command
acts on LIVE entries that carry it. -/
def regionRefusal (object : BitVec 64) (cls : ExtClass) (s : Part) : Nat :=
  let xs := extentsOf object s
  if xs.any fun p => p.2.cls ≠ cls then 5
  else if !xs.isEmpty then 0
  else
    match (if cls = .edition then objectEntry object s else none) with
    | none => 4
    | some (_, o) => if objectClass o = .edition then 0 else 5

/-! ### Class state (R104) -/

/-- The slot of a region in a state, if one is. -/
def slotIn (r : EditionRegion) (st : SlotState) : Option Nat :=
  (List.range r.slots.length).find? fun k => (slotAt r k).state = st

/-- Bytes 0x20 to 0x3F of an edition region's object entry (R104). `next` is NEXT_SERIAL, `leases` the leases on the region. DESIGN
CHOICE, log 80: once a slot has been CURRENT, CURRENT_SERIAL keeps its last value while none is, as after DROP. -/
def classState (r : EditionRegion) (next leases : Nat) (old : List Byte) : List Byte :=
  let cur := match slotIn r .current with
    | some k => (slotAt r k).serial.toNat
    | none => leAt old 0 4
  let live := (List.range r.slots.length).foldl (fun n k => n + bitOf ((slotAt r k).state ≠ .free) * 2 ^ k) 0
  let draft := slotIn r .draft
  leBytes 4 cur ++ leBytes 4 next ++ leBytes 2 live ++
    leBytes 2 ((slotIn r .current).getD 0 + draft.getD 0 * 2 ^ 4 + bitOf draft.isSome * 2 ^ 8) ++
    leBytes 4 (r.writerPart + r.writerPort * 2 ^ 12) ++ leBytes 4 leases ++ sliceBytes old 20 12

/-- NEXT_SERIAL of a region on its issuing part (R90): 1 where nothing has been drafted. -/
def nextSerial (object : BitVec 64) (s : Part) : Nat :=
  let n := match objectEntry object s with
    | some (_, o) => leAt o.classState 4 4
    | none => ((editionOf object s).map (·.nextSerial.toNat)).getD 1
  if n = 0 then 1 else n

/-- The issuing part writes the class state of a region (R104). -/
def syncClass (object : BitVec 64) (next : Nat) (s : Part) : Part :=
  let blank : EditionRegion :=
    { object := object, slots := [], writerPart := 0, writerPort := 0, nextSerial := 1, maps := [] }
  let r := (editionOf object s).getD blank
  let s := if isIssuer object s then onEdition object (fun r => { r with nextSerial := BitVec.ofNat 32 next }) s else s
  match objectEntry object s with
  | none => s
  | some (i, o) =>
    let n := (s.regions.leases.filter fun l => l.object = object).length
    onPool (fun p => { p with objects := tset p.objects i { o with classState := classState r next n o.classState } }) s

/-- The same, with NEXT_SERIAL as it stands. -/
def syncRegion (object : BitVec 64) (s : Part) : Part := syncClass object (nextSerial object s) s

/-! ### Slots -/

/-- Change a slot of a region. -/
def onSlot (object : BitVec 64) (k : Nat) (f : SlotRec → SlotRec) (s : Part) : Part :=
  onEdition object (fun r => { r with slots := lset r.slots k (f (slotAt r k)) }) s

/-- Drop the map entries of a slot. -/
def dropSlotMaps (object : BitVec 64) (k : Nat) (s : Part) : Part :=
  onEdition object (fun r => { r with maps := r.maps.filter fun p => p.1 / 4096 % 16 ≠ k }) s

/-- Add pages to a region's spare pool, which is created if it has none. -/
def addPages (object : BitVec 64) (pages exts : List Nat) (s : Part) : Part :=
  let has : Bool := s.regions.spares.any fun p => p.object = object
  let s := if has then s else onRegions (fun r => { r with spares := r.spares ++ [{ object := object, pages := [], exts := [] }] }) s
  onSpare object (fun p => { p with pages := p.pages ++ pages, exts := p.exts ++ exts }) s

/-- End a lease (R100, R101): READERS falls, and a RETIRED slot that reaches 0 is ready to be reclaimed. -/
def endLease (l : Lease) (s : Part) : Part :=
  let s := onRegions (fun r => { r with leases := r.leases.erase l }) s
  match editionOf l.object s with
  | none => s
  | some r =>
    let k := slotAt r l.slot
    let s := onSlot l.object l.slot (fun k => { k with readers := k.readers - 1 }) s
    let s := if k.state = .retired && k.readers ≤ 1 then regionEvent 1 l.slot l.object.toNat s else s
    syncRegion l.object s

/-- The leases on a slot end without an event: its edition has been published or aborted (R99). -/
def dropLeases (object : BitVec 64) (k : Nat) (s : Part) : Part :=
  onSlot object k (fun r => { r with readers := 0 })
    (onRegions (fun r => { r with leases := r.leases.filter fun l => !(l.object = object && l.slot = k) }) s)

/-- Expiry of a lease that is taken or renewed now (R100), in µs of the Curator timer. -/
def leaseExpiry (s : Part) : Nat := s.cur.timer + s.regions.leaseTime * 1000000

/-- Take a lease. -/
def takeLease (part port : Nat) (object : BitVec 64) (k : Nat) (s : Part) : Part :=
  let l : Lease := { part := part, port := port, object := object, slot := k, expiry := leaseExpiry s }
  onSlot object k (fun r => { r with readers := r.readers + 1 }) (onRegions (fun r => { r with leases := r.leases ++ [l] }) s)

/-! ### Ownership (R85) -/

/-- Requests to local extents that were admitted and are not yet answered, each with its extent: stores whose twin has not
answered, requests out at a lender, and reads that wait for a drive. -/
def admittedReqs (s : Part) : List (Nat × Msg) :=
  s.flr.throughs.filterMap (fun w => w.answer.map fun a => (w.line / linesPerExtent, a)) ++
  s.pool.lenderReqs.map (fun r => (r.ext, r.req)) ++
  s.flt.reading.flatMap (fun p => p.2.map fun m => (p.1 / 4096, m)) ++
  s.flt.direct.flatMap (fun p => p.2.map fun m => (p.1 / 65536, m))

/-- Those to a region (R85). -/
def regionReqs (object : BitVec 64) (s : Part) : List Msg :=
  ((admittedReqs s).filter fun p => (extentAt p.1 s).object = object).map (·.2)

/-- An ownership command keeps BUSY until REGION_DRAIN_END; its outcome stands ready. -/
def ownerWaits (view : Nat) (object : BitVec 64) (value : Nat) (s : Part) : Part :=
  onRegions (fun r =>
    { r with
      seq := seqReport view 0 (value * 2 ^ 32) r.seq
      wait := some (.drain view object (regionReqs object s)) }) s

/-- LAST_FENCE and FENCE_VALID as VALUE holds them (R107). -/
def fenceValue (f : Option (BitVec 24)) : Nat :=
  match f with
  | some n => n.toNat + 2 ^ 31
  | none => 0

/-- ACQUIRE (R84, R85). -/
def acquire (view : Nat) (object : BitVec 64) (part port : Nat) (s : Part) : Part :=
  let new : OwnerEntry := { object := object, part := part, port := port, owned := true, lastFence := none }
  match ownerOf object s with
  | none =>
    if 16384 ≤ s.regions.owners.length then regEnd view 3 0 0 s
    else ownerWaits view object 0 (onRegions (fun r => { r with owners := r.owners ++ [new] }) s)
  | some o =>
    if o.owned then regEnd view 2 0 0 s
    else
      let put (q : OwnerEntry) : OwnerEntry := if q.object = object then new else q
      ownerWaits view object (fenceValue o.lastFence) (onRegions (fun r => { r with owners := r.owners.map put }) s)

/-- RELEASE (R85). -/
def release (view : Nat) (object : BitVec 64) (part port : Nat) (s : Part) : Part :=
  match ownerOf object s with
  | none => regEnd view 2 0 0 s
  | some o =>
    if o.owned && !(o.part = part && o.port = port) then regEnd view 2 0 0 s
    else
      let s := onRegions (fun r => { r with owners := r.owners.filter fun q => q.object ≠ object }) s
      ownerWaits view object 0 (chuReleased object s)

/-- ORPHAN (R85). -/
def orphan (view : Nat) (object : BitVec 64) (s : Part) : Part :=
  match ownerOf object s with
  | none => regEnd view 2 0 0 s
  | some o =>
    if !o.owned then regEnd view 2 0 0 s
    else
      let put (q : OwnerEntry) : OwnerEntry := if q.object = object then { q with owned := false } else q
      ownerWaits view object 0 (chuReleased object (onRegions (fun r => { r with owners := r.owners.map put }) s))

/-- Is one of the requests admitted before an ownership command still not answered (R85)? -/
def regionBusy (before : List Msg) (s : Part) : Bool :=
  let out := (admittedReqs s).map (·.2)
  before.any fun m => m ∈ out

/-! ### Editions -/

/-- The page map of a new draft (R94): its BASE's, with every PRIVATE bit clear. -/
def draftMaps (k base : Nat) (maps : Table MapEntry) : Table MapEntry :=
  let fresh := maps.filter fun p => p.1 / 4096 % 16 ≠ k
  let copy (p : Nat × MapEntry) : Option (Nat × MapEntry) :=
    if base ≠ k && p.1 / 4096 % 16 = base then some (mapKey (p.1 / 65536) k (p.1 % 4096), { p.2 with priv := false }) else none
  (maps.filterMap copy).foldl (fun t p => tset t p.1 p.2) fresh

/-- A region's first draft uses the region's own places (R94): the pages of them that an aborted first draft gave to the spare
pool leave it again. DESIGN CHOICE, log 80. -/
def takeBackPages (object : BitVec 64) (s : Part) : Part :=
  let exts := dramExtents object s
  let n := (sparePages object s).length
  sparesLeft object n (onSpare object (fun p => { p with pages := p.pages.filter fun q => q / 4096 ∉ exts }) s)

/-- Open a draft in a slot (R97, R102). -/
def draftOpens (view : Nat) (object : BitVec 64) (k serial part port : Nat) (r : EditionRegion) (s : Part) : Part :=
  let base := (slotIn r .current).getD k
  let s := if base = k then takeBackPages object s else s
  let slot : SlotRec := { serial := BitVec.ofNat 32 serial, state := .draft, base := base, readers := 0 }
  let r' : EditionRegion :=
    { r with slots := lset r.slots k slot, writerPart := part, writerPort := port, maps := draftMaps k base r.maps }
  let s := if (editionOf object s).isSome then onEdition object (fun _ => r') s
    else onRegions (fun q => { q with editions := q.editions ++ [r'] }) s
  let s :=
    if isIssuer object s then
      syncClass object (if serial = 0xFFFFFFFF then 1 else serial + 1) (takeLease part port object k s)
    else s
  regEnd view 0 k serial s

/-- OPEN_DRAFT (R96 to R98, R341). A region with an extent in the loan window is not drafted, as one with a flash-home extent is
not: R96 drafts in DRAM-home extents alone (DEDUCED, log 80). DESIGN CHOICE, log 80: TABLE_FULL where the edition region table
(R91) or, on the issuing part, the lease table (R99) is full; on another home part BAD_STATE for ARG = 0 (R97), and for the named
slot that is itself DRAFT before REFUSED_BUSY (R98). -/
def openDraft (view : Nat) (object : BitVec 64) (slot part port arg : Nat) (s : Part) : Part :=
  let xs := extentsOf object s
  let moving : Bool := s.flt.moves.any fun m => m.demote && xs.any fun p => p.1 = m.src
  let blank : EditionRegion :=
    { object := object, slots := List.replicate editionSlots SlotRec.blank, writerPart := 0, writerPort := 0, nextSerial := 1,
      maps := [] }
  let old := editionOf object s
  let r := old.getD blank
  if moving || xs.any fun p => p.2.place = .flash || p.2.place = .loan then regEnd view 2 0 0 s
  else if old.isNone && 4096 ≤ s.regions.editions.length then regEnd view 3 0 0 s
  else if isIssuer object s then
    if (slotIn r .draft).isSome then regEnd view 1 0 0 s
    else
      match slotIn r .free with
      | none => regEnd view 6 0 0 s
      | some k =>
        if 65536 ≤ s.regions.leases.length then regEnd view 3 0 0 s
        else draftOpens view object k (nextSerial object s) part port r s
  else if (slotAt r slot).state ≠ .free || arg = 0 then regEnd view 2 0 0 s
  else if (slotIn r .draft).isSome then regEnd view 1 0 0 s
  else draftOpens view object slot arg part port r s

/-- PUBLISH (R97, R101, R102): the draft becomes CURRENT, the old CURRENT slot RETIRED. DESIGN CHOICE, log 80: the
writer's lease on its draft ends here, so that the new CURRENT slot has no reader yet. -/
def publish (view : Nat) (object : BitVec 64) (k : Nat) (r : EditionRegion) (s : Part) : Part :=
  if (slotAt r k).state ≠ .draft then regEnd view 2 0 0 s
  else
    let s := dropLeases object k s
    let s := match slotIn r .current with
      | none => s
      | some o =>
        let s := onSlot object o (fun q => { q with state := .retired }) s
        if isIssuer object s && (slotAt r o).readers = 0 then regionEvent 1 o object.toNat s else s
    regEnd view 0 0 0 (syncRegion object (onSlot object k (fun q => { q with state := .current }) s))

/-- The pages of a slot's map that are PRIVATE (R93), over extents. -/
def privatePages (r : EditionRegion) (k : Nat) (exts : List Nat) : List Nat :=
  exts.flatMap fun e => (List.range 4096).filterMap fun p =>
    let q := mapAt r e k p
    if q.priv then some q.page else none

/-- ABORT_DRAFT (R99): the draft's private pages return to the spare pool, a first draft's own places among them (R94). -/
def abortDraft (view : Nat) (object : BitVec 64) (k : Nat) (r : EditionRegion) (s : Part) : Part :=
  if (slotAt r k).state ≠ .draft then regEnd view 2 0 0 s
  else
    let s := addPages object (privatePages r k (dramExtents object s)) [] s
    let s := dropSlotMaps object k (dropLeases object k s)
    regEnd view 0 0 0 (syncRegion object (onSlot object k (fun _ => SlotRec.blank) s))

/-- OPEN_READ (R100). -/
def openRead (view : Nat) (object : BitVec 64) (part port : Nat) (s : Part) : Part :=
  match (editionOf object s).bind fun r => (slotIn r .current).map fun k => (k, slotAt r k) with
  | none => regEnd view 2 0 0 s
  | some (k, q) =>
    if 65536 ≤ s.regions.leases.length then regEnd view 3 0 0 s
    else regEnd view 0 k q.serial.toNat (syncRegion object (takeLease part port object k s))

/-- CLOSE_READ (R100): it ends the agent's lease on the named slot, a writer's lease on its draft (R99) like any other. DESIGN CHOICE,
log 80: without such a lease, BAD_STATE. -/
def closeRead (view : Nat) (object : BitVec 64) (k part port : Nat) (s : Part) : Part :=
  match s.regions.leases.find? fun l => l.object = object && l.slot = k && l.part = part && l.port = port with
  | none => regEnd view 2 0 0 s
  | some l => regEnd view 0 0 0 (endLease l s)

/-- RENEW (R99, R100). It ignores OBJECT (R106), so that it is written to an issuing part where the part has issued any object at all:
DEDUCED, log 80. One that has issued none refuses it with WRONG_CLASS. -/
def renew (view part port : Nat) (s : Part) : Part :=
  if s.pool.objects.isEmpty then regEnd view 5 0 0 s
  else
    let at_ := leaseExpiry s
    let go (l : Lease) : Lease := if l.part = part && l.port = port then { l with expiry := at_ } else l
    regEnd view 0 0 0 (onRegions (fun r => { r with leases := r.leases.map go }) s)

/-- The pages that a slot's map names, over the region's extents in DRAM. -/
def slotPages (r : EditionRegion) (k : Nat) (exts : List Nat) : List Nat :=
  exts.flatMap fun e => (List.range 4096).map fun p => (mapAt r e k p).page

/-- Perform a RECLAIM (R101). -/
def reclaimNow (view : Nat) (object : BitVec 64) (k : Nat) (r : EditionRegion) (s : Part) : Part :=
  let exts := dramExtents object s
  let others := (List.range r.slots.length).filter fun j => j ≠ k && (slotAt r j).state ≠ .free
  let kept := others.flatMap fun j => slotPages r j exts
  let back := (slotPages r k exts).eraseDups.filter fun p => p ∉ kept
  let s := dropSlotMaps object k (addPages object back [] s)
  regEnd view 0 0 0 (syncRegion object (onSlot object k (fun _ => SlotRec.blank) s))

/-- Does a tier move carry the edition of a slot (R341)? -/
def slotMoving (object : BitVec 64) (k : Nat) (s : Part) : Bool :=
  s.flt.moves.any fun m => m.slot = k && (extentAt m.src s).object = object && (extentAt m.src s).cls = .edition

/-- RECLAIM (R101, R341): one of a slot that a move carries is performed after the move ends. -/
def reclaim (view : Nat) (object : BitVec 64) (k : Nat) (r : EditionRegion) (s : Part) : Part :=
  let q := slotAt r k
  if q.state ≠ .retired || (isIssuer object s && q.readers ≠ 0) then regEnd view 2 0 0 s
  else if slotMoving object k s then onRegions (fun b => { b with wait := some (.reclaim view object k) }) s
  else reclaimNow view object k r s

/-- ADD_SPARE (R95). -/
def addSpare (view : Nat) (object : BitVec 64) (e : Nat) (s : Part) : Part :=
  if !isDramHome e s || isReserved e s || (extentAt e s).state ≠ .free || inUse e s then regEnd view 2 0 0 s
  else regEnd view 0 0 0 (addPages object ((List.range 4096).map fun i => e * 4096 + i) [e] s)

/-- DROP (R102): the region table entry is removed. DESIGN CHOICE, log 80: its spare pool goes with it, so that the pool's extents serve
other uses again. -/
def drop (view : Nat) (object : BitVec 64) (k : Nat) (r : EditionRegion) (s : Part) : Part :=
  let q := slotAt r k
  let rest : Bool := (List.range r.slots.length).any fun j => j ≠ k && (slotAt r j).state ≠ .free
  if q.state ≠ .current || q.readers ≠ 0 || rest || (ownerOf object s).isSome ||
      s.regions.leases.any (fun l => l.object = object) then regEnd view 2 0 0 s
  else
    let gone : EditionRegion := { r with slots := List.replicate editionSlots SlotRec.blank }
    let s := syncRegion object (onEdition object (fun _ => gone) s)
    regEnd view 0 0 0 (onRegions (fun b =>
      { b with editions := b.editions.filter fun e => e.object ≠ object, spares := b.spares.filter fun p => p.object ≠ object }) s)

/-- Perform a command of POL_REGION_CMD (R106). DESIGN CHOICE, log 80: PUBLISH, ABORT_DRAFT, CLOSE_READ, RECLAIM and DROP of a region
without an entry in the edition region table are refused with NO_SUCH_REGION. -/
def regPerform (view cmd : Nat) (s : Part) : Part :=
  let op := field cmd 3 0
  let k := field cmd 7 4
  let part := field cmd 19 8
  let port := field cmd 28 20
  let arg := field cmd 63 32
  let object := s.regions.obj.getD view 0
  if op = 0 || 12 < op then regEnd view 2 0 0 s
  else if op = 9 then renew view part port s
  else if (op = 7 || op = 8) && !isIssuer object s then regEnd view 5 0 0 s
  else
    let bad := regionRefusal object (if op ≤ 3 then .owned else .edition) s
    if bad ≠ 0 then regEnd view bad 0 0 s
    else
      match op with
      | 1 => acquire view object part port s
      | 2 => release view object part port s
      | 3 => orphan view object s
      | 4 => openDraft view object k part port arg s
      | 7 => openRead view object part port s
      | 11 => addSpare view object (field arg 17 0) s
      | _ =>
        match editionOf object s with
        | none => regEnd view 4 0 0 s
        | some r =>
          match op with
          | 5 => publish view object k r s
          | 6 => abortDraft view object k r s
          | 8 => closeRead view object k part port s
          | 10 => reclaim view object k r s
          | _ => drop view object k r s

/-- Go on to the commands that wait behind one that has ended. -/
def runRegions (s : Part) : Part :=
  runSeq (·.regions.seq) (fun q => onRegions fun b => { b with seq := q }) regPerform 8 s

/-- A write of POL_REGION_CMD. -/
def writeRegionCmd (view cmd : Nat) (s : Part) : Part :=
  writeSeq 5 (·.regions.seq) (fun q => onRegions fun b => { b with seq := q }) regPerform view cmd s

/-- REGION_DRAIN_END (R85): the requests admitted before an ownership command have completed, and BUSY clears. -/
def regionDrainEnd (view : Nat) (s : Part) : Part :=
  match s.regions.wait with
  | some (.drain v _ before) =>
    if v ≠ view || regionBusy before s then s
    else
      let q := s.regions.seq
      runRegions (onRegions (fun b => { b with wait := none, seq := seqEnd v 0 (q.value.getD v 0) q }) s)
  | _ => s

/-- A RECLAIM whose move has ended is performed (R341). -/
def pumpReclaim (s : Part) : Option Part :=
  match s.regions.wait with
  | some (.reclaim view object k) =>
    if slotMoving object k s then none
    else
      let s := onRegions (fun b => { b with wait := none }) s
      some (runRegions (match editionOf object s with
        | none => regEnd view 4 0 0 s
        | some r => reclaim view object k r s))
  | _ => none

/-- Regions whose next store waits for a page of an empty spare pool (R95). -/
def starvedRegions (s : Part) : List (BitVec 64) :=
  let wants (m : Msg) : Bool :=
    isMemory m && isStore m.op.toNat && accessStatus (asRequester m) s = stOK && needsCopy m s &&
    (sparePages (extentAt (extOf m.addr.toNat) s).object s).isEmpty
  let next := s.links.reseq.filterMap fun p => p.2.held.find? fun m => isNext p.2 m && wants m
  (next.map fun m => (extentAt (extOf m.addr.toNat) s).object).eraseDups

/-- SPARE_EMPTY is queued when a write is held for want of a page (R95). -/
def checkStarved (s : Part) : Part :=
  let now := starvedRegions s
  let new := now.filter fun o => o ∉ s.regions.starved
  if now = s.regions.starved then s
  else new.foldl (fun s o => regionEvent 4 0 o.toNat s) (onRegions (fun r => { r with starved := now }) s)

/-- Is a slot of a region a draft? -/
def isDraft (object : BitVec 64) (k : Nat) (s : Part) : Bool :=
  ((editionOf object s).map fun r => (slotAt r k).state) = some .draft

/-- A lease has expired (R99, R100): it ends, and that of a draft's writer queues DRAFT_EXPIRED. -/
def leaseExpires (l : Lease) (s : Part) : Part :=
  endLease l (if isDraft l.object l.slot s then regionEvent 2 l.slot l.object.toNat s else s)

/-- LEASE_SWEEP (R99, R100). -/
def leaseSweep (s : Part) : Part :=
  if running s then (s.regions.leases.filter fun l => l.expiry ≤ s.cur.timer).foldl (fun s l => leaseExpires l s) s else s

/-- After a fast reset every lease lasts for at least one LEASE_TIME more (R103). -/
def extendLeases (s : Part) : Part :=
  let at_ := leaseExpiry s
  onRegions (fun r => { r with leases := r.leases.map fun l => { l with expiry := max l.expiry at_ } }) s

end Sys2Proof.Machine
end

