-- ==== Sys2Proof/Machine/CatCmds.lean ====
section
/-!
DEFINITION. Commands on catalogue regions: CAT_CMD (R112, R113, R135, R137 to R142), the end of directory walks, snoops that
are never answered (R136), and the scan after a fast reset (R137).
-/

namespace Sys2Proof.Machine

/-- A command of CAT_CMD ends for its view, with PROGRESS (R142). -/
def catEnd (view result progress : Nat) (s : Part) : Part :=
  onCatalogue (fun c => { c with seq := seqEnd view result (progress * 2 ^ 32) c.seq }) s

/-- Catalogue extents of a region that are not FREE, by extent number. -/
def catExtents (object : BitVec 64) (s : Part) : List Nat :=
  ((extentsOf object s).filter fun p => p.2.cls = .catalogue).map (·.1)

/-- Is an extent of the region LIVE (R112, R140)? -/
def catRegionLive (object : BitVec 64) (s : Part) : Bool :=
  (extentsOf object s).any fun p => p.2.cls = .catalogue && p.2.state = .live

/-- Catalogue extents of a group's regions on this part. -/
def groupExtents (group : Nat) (s : Part) : List Nat :=
  (s.cat.regions.filter fun r => r.group = group).flatMap fun r => catExtents r.object s

/-- Lines of the group's regions that have a directory entry. -/
def groupLines (group : Nat) (s : Part) : List (Nat × DirEntry) :=
  let es := groupExtents group s
  (dirList s).filter fun p => p.1 / linesPerExtent ∈ es

/-- Put the part's own work on each of some lines. -/
def catWork (item : CatItem) (lines : List Nat) (s : Part) : Part := lines.foldl (fun s l => catEnqueue l item s) s

/-- A walk begins: the command keeps BUSY and the sequence until CATALOGUE_WALK_END. -/
def beginWalk (w : Walk) (item : CatItem) (lines : List Nat) (s : Part) : Part :=
  let s := onCatalogue (fun c => { c with walks := c.walks ++ [w], seq := seqReport w.view 0 0 c.seq }) s
  catWork item lines s

/-- SET_REGION (R112, R138, R140). PRED_MODE 3 is no value of R112. -/
def setRegion (view cmd : Nat) (object : BitVec 64) (s : Part) : Part :=
  let group := field cmd 16 8
  let mode : Option PredMode := match field cmd 48 47 with
    | 0 => some .adaptive
    | 1 => some .home
    | 2 => some .near
    | _ => none
  match mode with
  | none => catEnd view 2 0 s
  | some mode =>
    let new : CatRegion :=
      { object := object, group := group, revert := bitAt cmd 51, predMode := mode, predInit := field cmd 50 49,
        nearest := bitAt cmd 52 }
    match catRegionOf object s with
    | none =>
      if 512 ≤ s.cat.regions.length then catEnd view 3 0 s
      else catEnd view 0 0 (onCatalogue (fun c => { c with regions := c.regions ++ [new] }) s)
    | some old =>
      if old.group ≠ group && catRegionLive object s then catEnd view 2 0 s
      else
        let put (r : CatRegion) : CatRegion := if r.object = object then new else r
        catEnd view 0 0 (onCatalogue (fun c => { c with regions := c.regions.map put }) s)

/-- CLEAR_REGION (R112). -/
def clearRegion (view : Nat) (object : BitVec 64) (s : Part) : Part :=
  if (catRegionOf object s).isNone then catEnd view 4 0 s
  else if catRegionLive object s then catEnd view 2 0 s
  else catEnd view 0 0 (onCatalogue (fun c => { c with regions := c.regions.filter fun r => r.object ≠ object }) s)

/-- SET_MEMBER (R113, R140). -/
def setMember (view cmd : Nat) (s : Part) : Part :=
  let group := field cmd 16 8
  let n := field cmd 24 17
  let new : CatMember := { part := field cmd 36 25, port := field cmd 45 37, nearAt := bitAt cmd 46, state := .active }
  if s.cat.groupSize ≤ n then catEnd view 5 0 s
  else if (catMember group n s).isSome then catEnd view 2 0 s
  else catEnd view 0 0 (onCatalogue (fun c => { c with members := tset c.members (group * 256 + n) new }) s)

/-- Lines whose open transaction will make the member a holder (R126, R137). -/
def grantLines (group n : Nat) (s : Part) : List Nat :=
  (s.cat.txns.filter fun p => p.2.group = group && p.2.member = some n && p.2.needsAck).map (·.1)

/-- REMOVE_MEMBER (R137). A LOST member stays LOST to its end, so that its snoops count as answered (R135): DEDUCED. -/
def removeMember (view group n : Nat) (s : Part) : Part :=
  match catMember group n s with
  | none => catEnd view 2 0 s
  | some m =>
    let s := if m.state = .lost then s
      else onCatalogue (fun c => { c with members := tset c.members (group * 256 + n) { m with state := .removing } }) s
    let named := ((groupLines group s).filter fun p => removeTouches n p.2).map (·.1)
    let lines := named ++ (grantLines group n s).filter fun l => l ∉ named
    beginWalk { kind := .remove, group := group, member := n, ext := 0, view := view } (.drop (some n)) lines s

/-- Snoops of open transactions that a member has not answered. -/
def memberSnoops (group n : Nat) (s : Part) : List (Nat × Nat) :=
  s.cat.txns.flatMap fun p => if p.2.group = group then (p.2.snoops.filter fun w => w.member = n).map fun w => (p.1, w.tag) else []

/-- A snoop of a line is treated as never answered. -/
def loseSnoop (line tag : Nat) (s : Part) : Part :=
  match (tget? s.cat.txns line).bind fun t => (t.snoops.find? fun w => w.tag = tag).map fun w => (t, w) with
  | some (t, w) => snoopLost line t w s
  | none => s

/-- HOST_LOST (R135): the member is LOST at once, transactions that wait for its answer or its CMP_ACK are resolved, and the walk
begins. -/
def hostLost (view group n : Nat) (s : Part) : Part :=
  match catMember group n s with
  | none => catEnd view 2 0 s
  | some m =>
    if m.state = .lost then catEnd view 2 0 s
    else
      let s := onCatalogue (fun c => { c with members := tset c.members (group * 256 + n) { m with state := .lost } }) s
      let s := (memberSnoops group n s).foldl (fun s p => loseSnoop p.1 p.2 s) s
      let acks := s.cat.txns.filter fun p => p.2.group = group && p.2.member = some n && p.2.awaitAck
      let s := acks.foldl (fun s p => closeTxn p.1 s) s
      let lines := ((groupLines group s).filter fun p => n ∈ ptrsOf p.2).map (·.1)
      beginWalk { kind := .hostLost, group := group, member := n, ext := 0, view := view } .fix lines s

/-- PURGE_EXTENT (R111, R141). -/
def purgeExtent (view e : Nat) (s : Part) : Part :=
  let x := extentAt e s
  if x.cls ≠ .catalogue || x.state = .free || x.state = .lost then catEnd view 2 0 s
  else
    let lines := ((dirList s).filter fun p => p.1 / linesPerExtent = e && dirHolds p.2).map (·.1)
    beginWalk { kind := .purge, group := 0, member := 0, ext := e, view := view } (.drop none) lines s

/-- Perform a command of CAT_CMD (R140). The spine role refuses every one (R534). -/
def catPerform (view cmd : Nat) (s : Part) : Part :=
  let object := s.cat.obj.getD view 0
  let group := field cmd 16 8
  let n := field cmd 24 17
  if !isTray s then catEnd view 2 0 s
  else
    match field cmd 3 0 with
    | 1 => setRegion view cmd object s
    | 2 => clearRegion view object s
    | 3 => setMember view cmd s
    | 4 => removeMember view group n s
    | 5 => hostLost view group n s
    | 6 => purgeExtent view (s.cat.cmdExt.getD view 0 % 2 ^ 18) s
    | _ => catEnd view 2 0 s

/-- Does a SET_MEMBER name a member whose removal walks (R137)? -/
def memberWalks (cmd : Nat) (s : Part) : Bool :=
  field cmd 3 0 = 3 && s.cat.walks.any fun w => w.kind = .remove && w.group = field cmd 16 8 && w.member = field cmd 24 17

/-- A write of CAT_CMD. A SET_MEMBER for a member whose removal walks is refused at once, from whichever view (R137, R527). -/
def writeCatCmd (view cmd : Nat) (s : Part) : Part :=
  let q := s.cat.seq
  if view < 4 && blockReady 6 s && !(q.busy.getD view false) && memberWalks cmd s then
    onCatalogue (fun c => { c with seq := { seqEnd view 1 0 q with running := q.running } }) s
  else writeSeq 6 (·.cat.seq) (fun q => onCatalogue fun c => { c with seq := q }) catPerform view cmd s

/-- Lines on which the part's own work of a walk is still waiting or open. -/
def walkLines (w : Walk) (s : Part) : List Nat :=
  let mine (line : Nat) (i : CatItem) : Bool :=
    match w.kind, i with
    | .hostLost, .fix => true
    | .remove, .drop (some n) => n = w.member
    | .purge, .drop none => line / linesPerExtent = w.ext
    | _, _ => false
  (s.cat.waiting.filter fun p => p.2.any (mine p.1)).map (·.1) ++ (s.cat.txns.filter fun p => mine p.1 p.2.item).map (·.1)

/-- Is the part's own work of a walk still waiting or open? -/
def walkBusy (w : Walk) (s : Part) : Bool := !(walkLines w s).isEmpty

/-- Extents that a walk goes over (R135, R137, R141). -/
def walkExtents (w : Walk) (s : Part) : List Nat :=
  match w.kind with
  | .purge => [w.ext]
  | _ => groupExtents w.group s

/-- PROGRESS of a walk that runs for a view (R142): the extents on which nothing of it is left to do. -/
def walkProgress (view : Nat) (s : Part) : Nat :=
  match s.cat.walks.find? fun w => w.view = view with
  | none => 0
  | some w =>
    let left := (walkLines w s).map (· / linesPerExtent)
    ((walkExtents w s).filter fun e => e ∉ left).length

/-- CATALOGUE_WALK_END: the running walk has been over every line (R135, R137, R141). -/
def catWalkEnd (s : Part) : Part :=
  match s.cat.walks with
  | [] => s
  | w :: rest =>
    if walkBusy w s then s
    else
      let walked := (walkExtents w s).length
      let s := onCatalogue (fun c =>
        { c with
          walks := rest
          members := if w.kind = .remove then tdel c.members (w.group * 256 + w.member) else c.members }) s
      let s := if w.kind = .hostLost then catEvent 3 w.group w.member 0 s else s
      runSeq (·.cat.seq) (fun q => onCatalogue fun c => { c with seq := q }) catPerform 8 (catEnd w.view 0 walked s)

/-- SNOOP_TIMEOUT: a member has not answered within half the completion timeout (R136). -/
def snoopTimeout (line n : Nat) (s : Part) : Part :=
  match (tget? s.cat.txns line).bind fun t => (t.snoops.find? fun w => w.member = n).map fun w => (t, w) with
  | some (t, w) => snoopLost line t w (catEvent 1 t.group n (catAddr line s) s)
  | none => s

/-- Lines whose transactions a fast reset cut off: SNP_INV goes to every active member, and the entry becomes I (R137). -/
def scanDirectory (s : Part) : Part :=
  let lines := ((dirList s).filter fun p => p.2.busy).map (·.1)
  catWork .scan lines s

end Sys2Proof.Machine
end

