-- ==== Sys2Proof/Machine/Condition.lean ====
section
/-!
DEFINITION. Fills (R308, R309, R321), the condition survey (R313 to R316, R322), the flip mask's registers (R317, R318, R323),
refresh, retraining and the loss of a subchannel (R299, R300).
-/

namespace Sys2Proof.Machine

/-! ### Fills -/

/-- A fill command ends or reports for its view: RESULT, and EXTENTS_DONE at its place (R321). -/
def fillEndCmd (view result fields : Nat) (s : Part) : Part :=
  onDram (fun d => { d with fillSeq := seqEnd view result fields d.fillSeq }) s

/-- Fields of MEM_FILL_CMD (R321). -/
def fcPoison (cmd : Nat) : Bool := bitAt cmd 2
def fcExt (cmd : Nat) : Nat := field cmd 21 4
def fcCount (cmd : Nat) : Nat := field cmd 45 32

/-- The lines that a fill names, by local line number: the first, and how many (R308). -/
def fillLinesOf (cmd lines : Nat) : Nat × Nat :=
  if field lines 53 32 = 0 then (fcExt cmd * linesPerExtent, fcCount cmd * linesPerExtent)
  else (fcExt cmd * linesPerExtent + field lines 20 0, field lines 53 32)

/-- The whole pages of a range of lines: first line and lines. -/
def wholePages (first lines : Nat) : Nat × Nat :=
  let a := ceilDiv first linesPerPage * linesPerPage
  let b := (first + lines) / linesPerPage * linesPerPage
  (a, b - a)

/-- The lines of a range that lie in pages covered only in part. -/
def partLines (first lines : Nat) : List Nat :=
  let (a, n) := wholePages first lines
  if n = 0 then (List.range lines).map fun i => first + i
  else
    ((List.range (a - first)).map fun i => first + i) ++
    (List.range (first + lines - (a + n))).map fun i => a + n + i

/-- Does a line's page keep a tag that a partial fill cannot write under (R308)? -/
def partPageBad (line : Nat) (s : Part) : Bool :=
  let x := extentAt (line / linesPerExtent) s
  match epochClass (pageTag (line / linesPerPage) s).epoch (gallery x.gallery s) with
  | .bound | .other => true
  | _ => false

/-- RESULT of the checks on the extents of a fill (R308). -/
def fillCheck (cmd lines : Nat) (s : Part) : Nat :=
  let (first, n) := fillLinesOf cmd lines
  let exts := (List.range (fcCount cmd)).map fun i => fcExt cmd + i
  let badState (e : Nat) : Bool :=
    let x := extentAt e s
    isCopyDest e s || !(x.state = .free || (x.state = .live && (x.cls = .owned || x.cls = .catalogue)))
  let shared (p : Nat × DirEntry) : Bool :=
    first ≤ p.1 && p.1 < first + n && (extentAt (p.1 / linesPerExtent) s).state = .live && dirHolds p.2
  if fcCount cmd = 0 || (field lines 53 32 ≠ 0 && fcCount cmd ≠ 1) ||
      (field lines 53 32 ≠ 0 && linesPerExtent < field lines 20 0 + field lines 53 32) then 3
  else if exts.any (fun e => !isDramHome e s || isReserved e s) then 3
  else if exts.any badState then 2
  else if (dirList s).any shared then 2
  else if (partLines first n).any (fun l => partPageBad l s) then 2
  else 0

/-- Has the running fill written a line? -/
def isEarly (r : FillRun) (line : Nat) : Bool := r.early.any fun n => Config.freeAt n (line / linesPerPage)

/-- The 64-bit word that a fill repeats (R308, R310). -/
def fillWord (r : FillRun) : Nat := if r.poison then ofLe (errorValue 8) else r.pattern

/-- A line's bytes after a fill. -/
def fillBytes (r : FillRun) : List Byte := (List.replicate 16 (leBytes 8 (fillWord r))).flatten

/-- Write one line of a page covered in part, poisoned or not, as a write of R395 would: on an UNKEYED page as it is. -/
def fillOne (r : FillRun) (s : Part) (line : Nat) : Part :=
  let x := extentAt (line / linesPerExtent) s
  if (pageTag (line / linesPerPage) s).epoch = 0xFFFF then storeLine line (fillBytes r) r.poison none s
  else (writeLine x line (line % linesPerExtent) (fillBytes r) r.poison s).getD s

/-- The armed flip falls on a line of a channel among the filled ones, if there is one: which is a free value (R317). -/
def fillFlip (r : FillRun) (written : Nat → Bool) (s : Part) : Part :=
  let c := s.dram.flipCtrl.toNat
  if !bitAt c 25 then s
  else
    let (n, s) := drawFree s
    let at_ := (Config.freeWord n).toNat
    let (first, lines) := wholePages r.firstLine r.lines
    let ok (line : Nat) : Bool := written line && (channelOf (line * 128) s).1 = field c 24 20
    match ((List.range lines).map fun i => first + (i + at_) % lines).find? ok with
    | some line => storeLine line (fillBytes r) r.poison none s
    | none => s

/-- The lines of mirrored extents that a fill has just written go to the twin from the memory service (R309). -/
def fillThroughs (r : FillRun) (written : Nat → Bool) (s : Part) : Part :=
  let exts := (List.range (r.lines / linesPerExtent + 1)).map fun i => r.firstLine / linesPerExtent + i
  exts.foldl (fun s e =>
    if (twinOf (e * linesPerExtent) s).isNone then s
    else
      ((List.range linesPerExtent).map fun i => e * linesPerExtent + i).foldl (fun s line =>
        if r.firstLine ≤ line && line < r.firstLine + r.lines && written line then
          mirrorLine 0x116 line (fillBytes r) r.poison (isBound line s) .fill s
        else s) s) s

/-- What follows from the lines that a fill has just written: tags of whole pages UNKEYED (R395), POISON directory entries I
(R308), the flip mask, and the twin. -/
def fillFollows (r : FillRun) (written : Nat → Bool) (s : Part) : Part :=
  let inside (line : Nat) : Bool := r.firstLine ≤ line && line < r.firstLine + r.lines && written line
  let (first, lines) := wholePages r.firstLine r.lines
  let whole (page : Nat) : Bool := first ≤ page * linesPerPage && page * linesPerPage < first + lines &&
    written (page * linesPerPage)
  let s := onGalleries (fun b => { b with tags := b.tags.filter fun p => !whole p.1 }) s
  let cleared (p : Nat × BitVec 64) : Nat × BitVec 64 :=
    if inside p.1 && (dirOfWord p.2).dstate = .poison then (p.1, dirWord (withPtrs .i [] (dirOfWord p.2))) else p
  let s := onCatalogue (fun b => { b with dir := b.dir.map cleared }) s
  let s := (partLines r.firstLine r.lines).foldl (fun s l => if written l then fillOne r s l else s) s
  fillThroughs r written (fillFlip r written s)

/-- The range of whole pages of a fill, as it is recorded. -/
def fillRange (r : FillRun) : FillRange :=
  let (first, lines) := wholePages r.firstLine r.lines
  { first := first, lines := lines, pattern := fillWord r, poison := r.poison, pick := r.early }

/-- EXTENTS_DONE (R309): extents every line of which has been written. -/
def extentsDone (r : FillRun) : Nat :=
  if r.lines % linesPerExtent ≠ 0 then 0
  else
    ((List.range (r.lines / linesPerExtent)).filter fun i =>
      (List.range pagesPerExtent).all fun p => isEarly r (r.firstLine + i * linesPerExtent + p * linesPerPage)).length

/-- Are write-throughs of another agent unacknowledged in the range (R422)? -/
def fillWaits (first lines : Nat) (s : Part) : Bool :=
  s.flr.throughs.any fun w => w.agent ≠ 0x116 && first ≤ w.line && w.line < first + lines

/-- The class of a fill, and the energy of all its lines (R309, R453). -/
def fillClass (background : Bool) : Nat := if background then 15 else 5
def fillCost (lines : Nat) : Nat := lines * lineCost

/-- The class of a running fill gives it energy for lines (R454). -/
def pumpFill (s : Part) : Option Part :=
  match s.dram.fill with
  | none => none
  | some r =>
    let e := givable (fillClass r.background) (fillCost r.lines - r.paid) s
    if e = 0 then none
    else some (onDram (fun d => { d with fill := some { r with paid := r.paid + e } }) (spend (fillClass r.background) e s))

/-- Start a fill that has passed every check: the pages that it writes before anything else happens are a free choice, and
none where a write-through must be waited for or the class does not hold their energy. -/
def fillBegins (view cmd lines pattern : Nat) (s : Part) : Part :=
  let (first, n) := fillLinesOf cmd lines
  let waits := fillWaits first n s || !canSpend (fillClass (bitAt cmd 3)) (fillCost n) s
  let (k, s) := drawFree s
  let r : FillRun :=
    { view := view, poison := fcPoison cmd, background := bitAt cmd 3, firstLine := first, lines := n, pattern := pattern,
      early := if waits then none else some k, paid := 0 }
  let s := onDram (fun d =>
    { d with
      fill := some r
      fillSeq := seqLeave (seqReport view (d.fillSeq.result.getD view 0) (extentsDone r * 2 ^ 32) d.fillSeq) }) s
  if waits then s else fillFollows r (isEarly r) (onMemory (fillLines (fillRange r)) s)

/-- Perform a command of MEM_FILL_CMD (R321). -/
def fillPerform (view cmd : Nat) (s : Part) : Part :=
  if !isTray s then fillEndCmd view 4 0 s
  else if field cmd 1 0 ≠ 1 then fillEndCmd view 2 0 s
  else if s.dram.fill.isSome then fillEndCmd view 1 0 s
  else
    let lines := s.dram.fillLines.getD view 0
    let r := fillCheck cmd lines s
    if r ≠ 0 then fillEndCmd view r 0 s else fillBegins view cmd lines (s.dram.fillPattern.getD view 0) s

/-- FILL_END: the running fill, whose class has given it their energy, writes the rest of its lines (R309, R454). -/
def fillEnds (s : Part) : Part :=
  match s.dram.fill with
  | none => s
  | some r =>
    if fillWaits r.firstLine r.lines s || r.paid < fillCost r.lines then s
    else
      let f := fillRange r
      let s := onMemory (if r.early.isNone then fillLines f else fillRest f) s
      let s := fillFollows r (fun line => !isEarly r line) s
      let done := r.lines / linesPerExtent
      fillEndCmd r.view 0 (done * 2 ^ 32) (onDram (fun d => { d with fill := none }) s)

/-- ABORT of the running fill, whichever view started it (R309, R321). -/
def fillAborts (s : Part) : Part :=
  match s.dram.fill with
  | none => s
  | some r => fillEndCmd r.view 5 (extentsDone r * 2 ^ 32) (onDram (fun d => { d with fill := none }) s)

/-- A write of MEM_FILL_CMD. ABORT acts on the running fill also from the view that started it and is BUSY with it: DEDUCED. -/
def writeFillCmd (view cmd : Nat) (s : Part) : Part :=
  if field cmd 1 0 = 2 && s.dram.fill.isSome && blockReady 11 s && view < 4 && isTray s then
    let own := (s.dram.fill.map (·.view)) = some view
    let s := fillAborts s
    if own then s else fillEndCmd view 0 0 s
  else writeSeq 11 (·.dram.fillSeq) (fun q => onDram fun d => { d with fillSeq := q }) fillPerform view cmd s

/-! ### The survey -/

/-- A survey command ends for its view. -/
def surveyEndCmd (view result : Nat) (s : Part) : Part :=
  onDram (fun d => { d with surveySeq := seqEnd view result 0 d.surveySeq }) s

/-- Add to a 32-bit field of a summary word, saturating (R316): the words, word 5 with SATURATED. -/
def sumAdd (word lo n : Nat) (w : List Nat) : List Nat :=
  let v := field (w.getD word 0) (lo + 31) lo + n
  let w := lset w word (setField (w.getD word 0) (lo + 31) lo (min v 0xFFFFFFFF))
  if v < 0xFFFFFFFF then w else lset w 5 (w.getD 5 0 ||| 2 ^ 49)

/-- Note the lowest address of a finding in word 3 or 4 (R314, R316). -/
def sumFirst (word addr : Nat) (w : List Nat) : List Nat :=
  let old := w.getD word 0
  if bitAt old 63 && field old 57 0 ≤ addr then w else lset w word (addr + 2 ^ 63)

/-- Add to a whole summary word (R316). -/
def sumCount (word : Nat) (w : List Nat) : List Nat := lset w word (w.getD word 0 + 1)

/-- Does a FREE extent hold data that a survey reads (R313)? -/
def holdsData (e : Nat) (s : Part) : Bool :=
  isReserved e s || inSpare e s || inRoom e s || isHeld e s || isCopyDest e s

/-- Survey one line (R313, R314). -/
def surveyLine (r : SurveyRun) (s : Part) (line : Nat) : Part :=
  let e := line / linesPerExtent
  if r.skipFree && (extentAt e s).state = .free && !holdsData e s then
    onDram (fun d => { d with summary := sumCount 6 d.summary }) s
  else
    let (c, s) := readStored line s
    let addr := (lineAddr line s).toNat
    let repaired := r.repair && c.state = .good && c.singles + c.doubles ≠ 0
    let w := sumAdd 1 32 c.doubles (sumAdd 1 0 c.singles (sumCount 0 s.dram.summary))
    let w := if c.doubles = 0 then w else sumFirst 4 addr w
    let w := match c.state with
      | .good => w
      | .poisoned => sumAdd 2 32 1 w
      | .uncorrectable => sumFirst 3 addr (sumAdd 2 0 1 w)
    let w := if repaired then sumAdd 5 0 1 w else w
    let s := onDram (fun d => { d with summary := w }) s
    if repaired then correctLine line c s else s

/-- Survey the lines of the range in the pages that a test picks. -/
def surveyLines (r : SurveyRun) (pick : Nat → Bool) (s : Part) : Part :=
  (((List.range (r.len / 128)).map fun i => r.base / 128 + i).filter fun l => pick (l / linesPerPage)).foldl (surveyLine r) s

/-- The energy of a survey's lines. -/
def surveyCost (len : Nat) : Nat := len / 128 * lineCost

/-- The SURVEY class gives the running survey energy for lines (R454). -/
def pumpSurvey (s : Part) : Option Part :=
  match s.dram.survey with
  | none => none
  | some r =>
    let e := givable 8 (surveyCost r.len - r.paid) s
    if e = 0 then none else some (onDram (fun d => { d with survey := some { r with paid := r.paid + e } }) (spend 8 e s))

/-- Has the survey read the lines of a page before anything else happened? -/
def surveyEarly (early : Option Nat) (page : Nat) : Bool := early.any fun k => Config.freeAt k page

/-- Perform a command of MEM_SURVEY_CMD (R313, R322). The pages read before anything else happens are a free choice, and none where the class
does not hold their energy. -/
def surveyPerform (view cmd : Nat) (s : Part) : Part :=
  let base := s.dram.surveyBase.getD view 0 % 2 ^ 46
  let len := s.dram.surveyLen.getD view 0 % 2 ^ 46
  if !isTray s then surveyEndCmd view 3 s
  else if field cmd 1 0 ≠ 1 then surveyEndCmd view 4 s
  else if s.dram.survey.isSome then surveyEndCmd view 1 s
  else if base % 128 ≠ 0 || len % 128 ≠ 0 || len = 0 || !isDramHome ((base + len - 1) / 2 ^ 28) s then surveyEndCmd view 2 s
  else
    let (k, s) := drawFree s
    let early := if canSpend 8 (surveyCost len) s then some k else none
    let r : SurveyRun :=
      { view := view, base := base, len := len, repair := bitAt cmd 2, skipFree := bitAt cmd 3, early := early, paid := 0 }
    let ident := s.dram.surveyId + 1
    let s := onDram (fun d =>
      { d with
        survey := some r, surveyId := ident, summary := [0, 0, 0, 0, 0, ident.toNat * 2 ^ 32, 0, 0]
        surveySeq := seqLeave d.surveySeq }) s
    surveyLines r (surveyEarly early) s

/-- A survey ends (R314): one daybook event where it found an uncorrectable line. -/
def surveyOver (r : SurveyRun) (s : Part) : Part :=
  let s := surveyEndCmd r.view 0 (onDram (fun d => { d with survey := none }) s)
  if field (s.dram.summary.getD 2 0) 31 0 = 0 then s
  else note 11 2 none .surveyFound [s.dram.surveyId.toNat, field (s.dram.summary.getD 2 0) 31 0] s

/-- SURVEY_END: the rest of the lines are read, once the class has given their energy. -/
def surveyEnds (s : Part) : Part :=
  match s.dram.survey with
  | none => s
  | some r => if r.paid < surveyCost r.len then s else surveyOver r (surveyLines r (fun p => !surveyEarly r.early p) s)

/-- ABORT of the running survey (R315): what it has read stands in the summary, with ABORTED. -/
def surveyAborts (s : Part) : Part :=
  match s.dram.survey with
  | none => s
  | some r => surveyOver r (onDram (fun d => { d with summary := lset d.summary 5 (d.summary.getD 5 0 ||| 2 ^ 48) }) s)

/-- A write of MEM_SURVEY_CMD; ABORT acts also from the view that is BUSY with the survey: DEDUCED. -/
def writeSurveyCmd (view cmd : Nat) (s : Part) : Part :=
  if field cmd 1 0 = 2 && s.dram.survey.isSome && blockReady 11 s && view < 4 && isTray s then
    let own := (s.dram.survey.map (·.view)) = some view
    let s := surveyAborts s
    if own then s else surveyEndCmd view 0 s
  else writeSeq 11 (·.dram.surveySeq) (fun q => onDram fun d => { d with surveySeq := q }) surveyPerform view cmd s

/-- A fast reset ends a fill as ABORT does and a survey with a daybook record; the summary then reads zero (R309, R315). -/
def resetFills (s : Part) : Part :=
  let s := fillAborts s
  let s := match s.dram.survey with
    | none => s
    | some _ => note 11 1 none .surveyReset [s.dram.surveyId.toNat, s.dram.summary.getD 0 0] s
  onDram (fun d =>
    { d with
      survey := none, fill := none, fillSeq := CmdSeq.reset, surveySeq := CmdSeq.reset, summary := List.replicate 8 0
      fillLines := List.replicate 4 0, fillPattern := List.replicate 4 0, surveyBase := List.replicate 4 0
      surveyLen := List.replicate 4 0, flipData := 0, flipCtrl := 0, flipHit := 0 }) s

/-! ### The flip mask -/

/-- A write of MEM_FLIP_CTRL (R317, R318, R323). -/
def writeFlipCtrl (value : Nat) (s : Part) : Part :=
  if s.gals.vitrine then note 11 1 none .vitrineRefused [0x1800C8, value] s
  else if 23 < field value 24 20 then note 11 1 none .outOfRange [0x1800C8, value] s
  else onDram (fun d => { d with flipCtrl := BitVec.ofNat 32 (value % 2 ^ 26) }) s

/-- A read of MEM_FLIP_HIT clears VALID (R323). `clear` says whether the bytes read hold it. -/
def readFlipHit (clear : Bool) (s : Part) : Part :=
  if clear then onDram (fun d => { d with flipHit := d.flipHit &&& 0x7FFFFFFFFFFFFFFF }) s else s

/-! ### The channels -/

/-- Change a channel. -/
def onChannel (n : Nat) (f : Channel → Channel) (s : Part) : Part :=
  match s.dram.channels[n]? with
  | none => s
  | some c => onDram (fun d => { d with channels := lset d.channels n (f c) }) s

/-- Is the channel in service? -/
def channelTrained (n : Nat) (s : Part) : Bool := ((s.dram.channels[n]?).map (·.trained)).getD false

/-- REFRESH_DUE (R287, R300): an all-bank refresh, for which a running channel-unit command yields. -/
def refreshDue (n : Nat) (s : Part) : Part :=
  if !channelTrained n s then s
  else
    let s := count 11 n 2 1 (onChannel n (fun c => { c with refreshes := c.refreshes + 1 }) s)
    chuYields n s

/-- A step of retraining in a turn of the TRAIN class (R300). -/
def retrainNow (n : Nat) (s : Part) : Part := count 11 n 3 1 (spend 9 retrainCost s)

/-- DRAM_RETRAIN_STEP (R300): a step that holds the channel, and fails nothing. It waits while its class does not hold its energy. -/
def retrainStep (n : Nat) (s : Part) : Part :=
  if !channelTrained n s then s
  else if canSpend 9 retrainCost s then retrainNow n s
  else onPower (fun p => { p with due := p.due ++ [.retrain n] }) s

/-- SUBCHANNEL_LOST (R299, R413). -/
def subchannelLost (n : Nat) (s : Part) : Part :=
  if !channelTrained n s || ((s.dram.channels[n]?).map (·.lost)).getD false then s
  else
    let s := onChannel n (fun c => { c with lost := true }) s
    flrEvent 9 0 0 0 (note 11 2 none .subchannelLost [n] s)

end Sys2Proof.Machine
end

