-- ==== Sys2Proof/Machine/FoldCodec.lean ====
section
/-!
DEFINITION. The fold format: tables and canonical codewords (R248 to R250), blocks and their two sections (R242, R244 to
R246), decoding and encoding.
-/

namespace Sys2Proof.Machine

/-- Bytes of a value, exponent bits and mantissa bits of a type (R242). -/
def foldSize (kind : Nat) : Nat := if kind = 0 then 4 else 2
def foldExpBits (kind : Nat) : Nat := if kind = 2 then 5 else 8
def foldMantBits (kind : Nat) : Nat := if kind = 0 then 23 else if kind = 1 then 7 else 10

/-- Raw bits per value in section A (R242). -/
def foldRawBits (kind : Nat) : Nat := 1 + foldMantBits kind

/-- The exponent field, and the section A entry, of a value. -/
def foldExp (kind v : Nat) : Nat := v / 2 ^ foldMantBits kind % 2 ^ foldExpBits kind
def foldSection (kind v : Nat) : Nat :=
  v % 2 ^ foldMantBits kind + v / 2 ^ (foldMantBits kind + foldExpBits kind) % 2 * 2 ^ foldMantBits kind

/-- The value of an exponent field and a section A entry. -/
def foldValue (kind exp entry : Nat) : Nat :=
  entry % 2 ^ foldMantBits kind + exp * 2 ^ foldMantBits kind +
  entry / 2 ^ foldMantBits kind % 2 * 2 ^ (foldMantBits kind + foldExpBits kind)

/-! ### Tables -/

/-- The table of a 64-byte image (R248). -/
def tableOfImage (gen : Nat) (bs : List Byte) : FoldTable :=
  let lens := leAt bs 36 16
  { gen := gen, kind := leAt bs 0 1 % 4,
    syms := (List.range (leAt bs 1 1)).map fun i => (leAt bs (4 + i) 1, field lens (4 * i + 3) (4 * i)),
    escLen := leAt bs 2 1 }

/-- Is every length from 1 to 12, and is the sum of `2 ^ (−length)` one (R250)? -/
def lensComplete (lens : List Nat) : Bool :=
  lens.all (fun l => 1 ≤ l && l ≤ 12) && lens.foldl (fun n l => n + 2 ^ (12 - l)) 0 = 2 ^ 12

/-- No element twice. -/
def noRepeat : List Nat → Bool
  | [] => true
  | x :: xs => x ∉ xs && noRepeat xs

/-- Is a table image valid (R248, R250)? -/
def imageValid (bs : List Byte) : Bool :=
  let count := leAt bs 1 1
  let t := tableOfImage 0 bs
  1 ≤ count && count ≤ 32 && leAt bs 0 1 ≤ 2 && leAt bs 3 1 = 0 && leAt bs 52 12 = 0 &&
  leAt bs (4 + count) (32 - count) = 0 && leAt bs 36 16 / 2 ^ (4 * count) = 0 &&
  lensComplete (t.escLen :: t.syms.map (·.2)) && noRepeat (t.syms.map (·.1)) &&
  (t.kind ≠ 2 || t.syms.all fun p => p.1 < 32)

/-- Does symbol `a` stand before `b` in the canonical order (R249)? Symbols are pairs of sort value and length. -/
def codeBefore (a b : Nat × Nat) : Bool := a.2 < b.2 || (a.2 = b.2 && a.1 < b.1)

/-- A symbol in its place. -/
def insertSym (x : Nat × Nat) : List (Nat × Nat) → List (Nat × Nat)
  | [] => [x]
  | y :: ys => if codeBefore x y then x :: y :: ys else y :: insertSym x ys

/-- Codewords in canonical order (R249): symbol, length, code. -/
def assignCodes : Nat → Nat → List (Nat × Nat) → List (Nat × Nat × Nat)
  | _, _, [] => []
  | code, prev, (s, l) :: rest =>
    let c := code * 2 ^ (l - prev)
    (s, l, c) :: assignCodes (c + 1) l rest

/-- The codebook of a table; the escape has sort value 256 (R249). -/
def codebook (t : FoldTable) : List (Nat × Nat × Nat) :=
  let sorted := (t.syms ++ [(256, t.escLen)]).foldl (fun xs x => insertSym x xs) []
  assignCodes 0 ((sorted.head?.map (·.2)).getD 0) sorted

/-! ### Bits -/

/-- The bits of `k` bits of `n`, most significant first. -/
def bitsMsb : Nat → Nat → List Bool
  | 0, _ => []
  | k + 1, n => n.testBit k :: bitsMsb k n

/-- The bits of bytes, most significant first (R245 section B). -/
def byteBits (bs : List Byte) : List Bool := bs.flatMap fun b => bitsMsb 8 b.toNat

/-- The number that bits spell, most significant first. -/
def ofBitsMsb (bs : List Bool) : Nat := bs.foldl (fun n b => 2 * n + bitOf b) 0

/-- Bits as bytes, most significant first, padded with zeros to `n` bytes. -/
def bytesOfBits : Nat → List Bool → List Byte
  | 0, _ => []
  | n + 1, bs =>
    let h := bs.take 8
    BitVec.ofNat 8 (ofBitsMsb (h ++ List.replicate (8 - h.length) false)) :: bytesOfBits n (bs.drop 8)

/-- The codeword at the head of the bits: its symbol and the bits left. -/
def takeCode (book : List (Nat × Nat × Nat)) (bs : List Bool) : Option (Nat × List Bool) :=
  (book.find? fun w => w.2.1 ≤ bs.length && ofBitsMsb (bs.take w.2.1) = w.2.2).map fun w => (w.1, bs.drop w.2.1)

/-- Exponent fields of `n` values of section B (R245), the escapes met and the bits left; none where the bits run out. -/
def takeExps (kind : Nat) (book : List (Nat × Nat × Nat)) : Nat → List Bool → Option (List Nat × Nat × List Bool)
  | 0, bs => some ([], 0, bs)
  | n + 1, bs =>
    match takeCode book bs with
    | none => none
    | some (s, rest) =>
      let k := foldExpBits kind
      if s = 256 && rest.length < k then none
      else
        let (e, rest) := if s = 256 then (ofBitsMsb (rest.take k), rest.drop k) else (s, rest)
        match takeExps kind book n rest with
        | none => none
        | some (es, n, rest) => some (e :: es, n + bitOf (s = 256), rest)

/-! ### Blocks -/

/-- Bytes of the two sections of a CODED block and of a RAW body (R245). -/
def sectionA (kind values : Nat) : Nat := 8 * ceilDiv (values * foldRawBits kind) 64
def sectionB (codedLen : Nat) : Nat := 8 * ceilDiv codedLen 64
def rawBody (kind values : Nat) : Nat := 8 * ceilDiv (values * 8 * foldSize kind) 64

/-- Bytes of a block's body. -/
def blockBody (kind : Nat) (b : FoldBlock) : Nat :=
  if b.coded then sectionA kind b.values + sectionB b.codedLen else rawBody kind b.values

/-- Are bytes from bit `n` on all zero? -/
def zeroFrom (n : Nat) (bs : List Byte) : Bool := ofLe bs / 2 ^ n = 0

/-- The values of a block's body and the escapes met (R245), or none where its codewords do not end at CODED_LEN or padding is not
zero (R247). -/
def blockValues (kind : Nat) (b : FoldBlock) (body : List Byte) : Option (List Nat × Nat) :=
  if !b.coded then
    if zeroFrom (8 * b.values * foldSize kind) (body.take (rawBody kind b.values)) then
      some ((List.range b.values).map fun i => leAt body (i * foldSize kind) (foldSize kind), 0)
    else none
  else
    match b.table with
    | none => none
    | some t =>
      let a := body.take (sectionA kind b.values)
      let bits := byteBits ((body.drop (sectionA kind b.values)).take (sectionB b.codedLen))
      let w := foldRawBits kind
      match takeExps kind (codebook t) b.values (bits.take b.codedLen) with
      | some (es, escapes, []) =>
        if zeroFrom (b.values * w) a && (bits.drop b.codedLen).all (!·) then
          let n := ofLe a
          some (es.mapIdx fun i e => foldValue kind e (field n (w * i + w - 1) (w * i)), escapes)
        else none
      | _ => none

/-- The error value in a value of a type (R64). -/
def foldError (kind : Nat) : Nat := ofLe (errorValue (foldSize kind))

/-- The block whose header these 8 bytes are (R244), without the table that it names. -/
def blockOfHeader (bs : List Byte) : FoldBlock :=
  let w := leAt bs 0 8
  { coded := w % 4 = 1, slot := field w 7 4, gen := field w 15 8, values := field w 27 16, codedLen := field w 47 28,
    table := none, status := 0, decoded := false }

/-- Can the next block be found from this header (R247)? `left` counts the stream's values not yet decoded. -/
def headerFound (kind left : Nat) (bs : List Byte) : Bool :=
  let w := leAt bs 0 8
  (w % 4 = 1 || w % 4 = 2) && field w 3 2 = kind && field w 27 16 ≠ 0 && (field w 27 16 = 2048 || left ≤ 2048)

/-! ### Encoding (R244 to R246) -/

/-- Bits of one value in section B. -/
def codeBits (kind : Nat) (book : List (Nat × Nat × Nat)) (v : Nat) : List Bool :=
  let e := foldExp kind v
  let word (w : Nat × Nat × Nat) : List Bool := bitsMsb w.2.1 w.2.2
  match book.find? fun w => w.1 = e with
  | some w => word w
  | none => ((book.find? fun w => w.1 = 256).map word).getD [] ++ bitsMsb (foldExpBits kind) e

/-- A block of values, CODED where that is shorter than RAW (R246). -/
def encodeBlock (t : FoldTable) (slot : Nat) (vs : List Nat) : List Byte :=
  let kind := t.kind
  let bits := vs.flatMap (codeBits kind (codebook t))
  let n := vs.length
  let coded := sectionA kind n + sectionB bits.length
  if rawBody kind n ≤ coded then
    leBytes 8 (2 + kind * 4 + n * 2 ^ 16) ++
    sliceBytes (vs.flatMap (leBytes (foldSize kind))) 0 (rawBody kind n)
  else
    let w := foldRawBits kind
    leBytes 8 (1 + kind * 4 + slot * 2 ^ 4 + t.gen * 2 ^ 8 + n * 2 ^ 16 + bits.length * 2 ^ 28) ++
    leBytes (sectionA kind n) (vs.foldr (fun v acc => foldSection kind v + acc * 2 ^ w) 0) ++
    bytesOfBits (sectionB bits.length) bits

/-- The header of a stream (R243). -/
def streamHeader (kind values stored : Nat) : List Byte :=
  leBytes 8 (1 + kind * 2 ^ 16 + values * 2 ^ 24) ++ leBytes 8 (ceilDiv values 2048) ++ leBytes 8 stored ++ leBytes 8 0

end Sys2Proof.Machine
end

