-- ==== Sys2Proof/Machine/Fetching.lean ====
section
/-!
DEFINITION. Line reads of the streaming and the fold services (R214, R257), and the unfolder on a fold stream (R247, R251,
R252).
-/

namespace Sys2Proof.Machine

/-- Issue the read of a line for a service agent of a bay, under a grant. -/
def fetchLine (agent bay gallery epoch handle line : Nat) (s : Part) : Fetch × Part :=
  let m : Msg := { Msg.blank with
    op := 0x01, gallery := BitVec.ofNat 3 gallery, dstPart := BitVec.ofNat 12 (line / 2 ^ 39), dstPort := 0x1FF,
    epoch := BitVec.ofNat 16 epoch, oparg := BitVec.ofNat 64 (handle % 65536 * 2 ^ 48), addr := BitVec.ofNat 58 (line * 128),
    na := true }
  let (tag, s) := issueAt agent bay m s
  ({ tag := tag.toNat, line := line, answer := none, taken := false }, s)

/-- Issue the reads of `n` lines from a line on. -/
def fetchLines (agent bay gallery epoch handle : Nat) : Nat → Nat → Part → List Fetch × Part
  | 0, _, s => ([], s)
  | n + 1, line, s =>
    let (f, s) := fetchLine agent bay gallery epoch handle line s
    let (fs, s) := fetchLines agent bay gallery epoch handle n (line + 1) s
    (f :: fs, s)

/-- Issue the reads of the lines that hold `n` bytes at an address. -/
def fetchRange (agent bay gallery epoch handle addr n : Nat) (s : Part) : List Fetch × Part :=
  fetchLines agent bay gallery epoch handle ((addr + n - 1) / 128 - addr / 128 + 1) (addr / 128) s

/-- Record an answer among reads. -/
def fetchAnswer (tag st : Nat) (bytes : List Byte) (fs : List Fetch) : List Fetch :=
  fs.map fun f => if f.tag = tag && f.answer.isNone then { f with answer := some (st, bytes) } else f

/-- Is a tag among reads that await their answers? -/
def fetchHas (tag : Nat) (fs : List Fetch) : Bool := fs.any fun f => f.tag = tag && f.answer.isNone

/-- Are reads in hand, all answered? -/
def fetchDone (fs : List Fetch) : Bool := !fs.isEmpty && fs.all fun f => f.answer.isSome

/-- Do reads await an answer? -/
def fetchWaits (fs : List Fetch) : Bool := fs.any fun f => f.answer.isNone

/-- Status of an answered read. -/
def fetchSt (f : Fetch) : Nat := (f.answer.map (·.1)).getD stTimeout

/-- Status of reads: one that ends the grant, else the first that failed, else OK. -/
def fetchStatus (fs : List Fetch) : Nat :=
  match fs.find? fun f => fetchSt f = stRevoked || fetchSt f = stRecalled with
  | some f => fetchSt f
  | none => ((fs.find? fun f => fetchSt f ≠ stOK).map fetchSt).getD stOK

/-- Bytes of answered reads, in order. -/
def fetchBytes (fs : List Fetch) : List Byte := fs.flatMap fun f => (f.answer.map (·.2)).getD []

/-- Was a read turned away with RETRY_LATER, so that it is issued again: DESIGN CHOICE? -/
def fetchRetry (fs : List Fetch) : Bool := fs.any fun f => fetchSt f = stRetryLater

/-- Issue again the reads that were turned away. -/
def fetchAgain (agent bay gallery epoch handle : Nat) : List Fetch → Part → List Fetch × Part
  | [], s => ([], s)
  | f :: fs, s =>
    let (f, s) := if fetchSt f = stRetryLater then fetchLine agent bay gallery epoch handle f.line s else (f, s)
    let (fs, s) := fetchAgain agent bay gallery epoch handle fs s
    (f :: fs, s)

/-! ### The unfolder -/

/-- A reader at the start of a fold stream, on an unfolder. -/
def FoldReader.start (unit base gallery epoch handle : Nat) : FoldReader :=
  { unit := unit, turn := .idle, base := base, gallery := gallery, epoch := epoch, handle := handle, head := false, version := 0, kind := 0, total := 0,
    left := 0, line := base / 128, bytes := [], reads := [], block := none, buf := [], broken := none }

/-- The bays of unfolders and folders: eight and two of each bay, DESIGN CHOICE (log entry 84). -/
def unfoldBay (unit : Nat) : Nat := unit / 8
def foldBay (unit : Nat) : Nat := unit / 2

/-- The table that a slot holds under a generation. -/
def slotTable (slot gen : Nat) (s : Part) : Option FoldTable :=
  let x := tget s.cmp.slots slot FoldSlot.blank
  match x.new with
  | some t => if t.gen = gen then some t else x.old.filter fun t => t.gen = gen
  | none => x.old.filter fun t => t.gen = gen

/-- The gallery of a slot. -/
def slotGallery (slot : Nat) (s : Part) : Nat := (tget s.cmp.slots slot FoldSlot.blank).gallery

/-- A block's header takes its reference: the table that it names now, or the status of its values (R247, R251). -/
def withTable (gallery kind : Nat) (b : FoldBlock) (s : Part) : FoldBlock :=
  if !b.coded then b
  else
    match slotTable b.slot b.gen s with
    | none => { b with status := stUnsupported }
    | some t =>
      if slotGallery b.slot s ≠ gallery then { b with status := stGalleryFault }
      else if t.kind ≠ kind then { b with status := stUnsupported }
      else { b with table := some t }

/-- The stream is broken from here on with a status (R247). -/
def breakReader (st : Nat) (r : FoldReader) : FoldReader := { r with broken := some st, turn := .idle, reads := [], bytes := [], block := none }

/-- Ask for more lines, so that `n` bytes are in hand. -/
def readerFetch (agent n : Nat) (r : FoldReader) (s : Part) : FoldReader × Part :=
  let k := max 1 (ceilDiv (n - r.bytes.length) 128)
  let (fs, s) := fetchLines agent (unfoldBay r.unit) r.gallery r.epoch r.handle k r.line s
  ({ r with reads := fs, line := r.line + k }, s)

/-- The header of the stream is in hand (R243). -/
def readerHead (r : FoldReader) : FoldReader :=
  let w := leAt r.bytes 0 8
  { r with head := true, version := w % 65536, kind := field w 17 16, total := w / 2 ^ 24, left := w / 2 ^ 24,
           bytes := r.bytes.drop 32 }

/-- The values and escapes of the block whose body is in hand, or the status of one that cannot be decoded (R245, R247). -/
def decodeBlock (r : FoldReader) (b : FoldBlock) : Except Nat (List Nat × Nat) :=
  if b.status ≠ 0 then .error b.status
  else match blockValues r.kind b (r.bytes.take (blockBody r.kind b)) with
    | some x => .ok x
    | none => .error stUnsupported

/-- Decode the block whose body is in hand, and count it (R245, R247, R273): the turn of the unfolder ends. Values past the stream's VALUES
are no values of the stream. -/
def readerDecode (r : FoldReader) (b : FoldBlock) (s : Part) : FoldReader × Part :=
  let (vs, s) : List (Nat × Nat) × Part :=
    match decodeBlock r b with
    | .ok (vs, escapes) =>
      (vs.map fun v => (v, 0),
        count 10 0 4 (vs.length * foldSize r.kind) (count 10 0 2 escapes (count 10 0 (if b.coded then 0 else 1) 1 s)))
    | .error st => (List.replicate b.values (foldError r.kind, st), count 10 0 64 1 s)
  ({ r with
      turn := .idle, bytes := r.bytes.drop (blockBody r.kind b), left := r.left - b.values, buf := r.buf ++ vs.take r.left,
      block := some { b with decoded := true } }, s)

/-- One step of an unfolder that is to have `need` values; none where it waits, is broken or has them. A block is decoded in a turn of the
unfolder, which serves one stream at a time (R255, R390). -/
def readerStep (agent need : Nat) (r : FoldReader) (s : Part) : Option (FoldReader × Part) :=
  if r.broken.isSome || fetchWaits r.reads then none
  else if fetchDone r.reads then
    if fetchRetry r.reads then
      let (fs, s) := fetchAgain agent (unfoldBay r.unit) r.gallery r.epoch r.handle r.reads s
      some ({ r with reads := fs }, s)
    else if fetchStatus r.reads ≠ stOK then some (breakReader (fetchStatus r.reads) r, s)
    else
      let skip := if r.line = r.base / 128 + r.reads.length && !r.head && r.bytes.isEmpty then r.base % 128 else 0
      some ({ r with bytes := r.bytes ++ (fetchBytes r.reads).drop skip, reads := [] }, s)
  else if !r.head then
    if r.bytes.length < 32 then some (readerFetch agent 32 r s) else some (readerHead r, s)
  else if need ≤ r.buf.length || r.left = 0 then none
  else
    match r.block with
    | some b =>
      if b.decoded then some ({ r with block := none }, s)
      else if r.bytes.length < blockBody r.kind b then some (readerFetch agent (blockBody r.kind b) r s)
      else
        match r.turn with
        | .idle => some ({ r with turn := .waiting }, s)
        | .waiting => none
        | .serving => some (readerDecode r b s)
    | none =>
      if r.bytes.length < 8 then some (readerFetch agent 8 r s)
      else if !headerFound r.kind r.left r.bytes then some (breakReader stUnsupported r, count 10 0 64 1 s)
      else some ({ r with block := some (withTable r.gallery r.kind (blockOfHeader r.bytes) s), bytes := r.bytes.drop 8 }, s)

/-- Take values from an unfolder; the block's reference ends with its last value (R252). -/
def readerTake (n : Nat) (r : FoldReader) : List (Nat × Nat) × FoldReader :=
  let rest := r.buf.drop n
  (r.buf.take n, { r with buf := rest, block := if rest.isEmpty then r.block.filter (fun b => !b.decoded) else r.block })

/-- Values of the stream that have not been taken. -/
def readerRest (r : FoldReader) : Nat := r.left + r.buf.length

/-- Does a reader reference a table (R252)? -/
def readerRefers (slot gen : Nat) (r : FoldReader) : Bool :=
  match r.block with
  | some b => b.coded && b.slot = slot && b.gen = gen
  | none => false

/-- Readers that streams and jobs hold, that of a START which reads its stream's header among them (R257). -/
def allReaders (s : Part) : List FoldReader :=
  (s.str.streams.flatMap fun p => p.2.fold.toList ++ p.2.residual.toList) ++
  s.cmp.jobs.filterMap (fun p => p.2.reader) ++ (s.cmp.check.bind fun c => c.run.reader).toList

/-- Does a reader wait for a turn of an unfolder? -/
def readerWaits (u : Nat) (r : FoldReader) : Bool := r.unit = u && r.turn = .waiting

/-- The reader that has waited for its turn has it. -/
def readerServed (r : FoldReader) : FoldReader := { r with turn := .serving }

/-- Where a reader is held: as the fold or the residual stream of a weight stream, or by a job. -/
inductive ReaderPlace
  | fold (i : Nat) | residual (i : Nat) | job (i : Nat)
  deriving DecidableEq, Repr

/-- The readers that wait for a turn of an unfolder, with their places: those of streams first, in the order of their numbers. -/
def waitingReaders (u : Nat) (s : Part) : List (ReaderPlace × FoldReader) :=
  let at_ (p : ReaderPlace) (r : Option FoldReader) : List (ReaderPlace × FoldReader) := (r.toList.filter (readerWaits u)).map fun r => (p, r)
  (s.str.streams.flatMap fun p => at_ (.fold p.1) p.2.fold ++ at_ (.residual p.1) p.2.residual) ++
  s.cmp.jobs.flatMap fun p => at_ (.job p.1) p.2.reader

/-- Give the reader at a place its turn. -/
def serveReader (p : ReaderPlace) (s : Part) : Part :=
  match p with
  | .fold i => onStreaming (fun b =>
      { b with streams := b.streams.map fun q => if q.1 = i then (i, { q.2 with fold := q.2.fold.map readerServed }) else q }) s
  | .residual i => onStreaming (fun b =>
      { b with streams := b.streams.map fun q => if q.1 = i then (i, { q.2 with residual := q.2.residual.map readerServed }) else q }) s
  | .job i => onCompression (fun b =>
      { b with jobs := b.jobs.map fun q => if q.1 = i then (i, { q.2 with reader := q.2.reader.map readerServed }) else q }) s

/-- The class of a reader's work at a place (R453), and the energy of its turn: that of the block it is to unfold. -/
def readerClass (p : ReaderPlace) (s : Part) : Nat :=
  match p with
  | .job i => ((tget? s.cmp.jobs i).map fun x => jobClass x.desc).getD 5
  | _ => 2
def readerCost (r : FoldReader) : Nat := unfoldCost ((r.block.map (·.values)).getD 0)

/-- The turn of an unfolder that serves no stream, where the class holds its energy, goes to the gallery to which it falls, of those with a block waiting for it (R390, R391);
of one gallery to its first reader. -/
def unfolderTurn (u : Nat) (s : Part) : Option Part :=
  let ws := waitingReaders u s
  if (allReaders s).any fun r => r.unit = u && r.turn = .serving then none
  else
    match nextTurn (turnUnfold u) (ws.map fun p => p.2.gallery) s with
    | none => none
    | some d =>
      ((ws.find? fun p => p.2.gallery = d.gallery).filter fun p => canSpend (readerClass p.1 s) (readerCost p.2) s).map fun p =>
        serveReader p.1 (takeDeal (turnUnfold u) d (spend (readerClass p.1 s) (readerCost p.2) s))

/-- The first unfolder with a turn to give. -/
def unfolderTurns (s : Part) : Option Part :=
  (((allReaders s).filter fun r => r.turn = .waiting).map fun r => r.unit).findSome? fun u => unfolderTurn u s

/-- The unfolder for one more reader: the one with fewest readers, the lowest on a tie. DESIGN CHOICE (log entry 84). -/
def freeUnfolder (s : Part) : Nat :=
  let load (u : Nat) : Nat := ((allReaders s).filter fun r => r.unit = u).length
  ((List.range 64).foldl (fun (b : Nat × Nat) u => if load u < b.2 then (u, load u) else b) (0, load 0)).1

/-- Is a job running a FOLD with this table (R252)? -/
def jobRefers (slot gen : Nat) (j : FoldJob) : Bool :=
  j.state = .running && (j.desc.getD 0 0) % 4 = 1 && field (j.desc.getD 0 0) 7 4 = slot && field (j.desc.getD 0 0) 15 8 = gen

/-- References to a table (R252, R270). -/
def tableRefs (slot gen : Nat) (s : Part) : Nat :=
  ((allReaders s).filter (readerRefers slot gen)).length + (s.cmp.jobs.filter fun p => jobRefers slot gen p.2).length

end Sys2Proof.Machine
end

