-- ==== Sys2Proof/Machine/HostPorts.lean ====
section
/-!
DEFINITION. The host ports: the pool window of function 1 (R489), resets of a port's functions (R437, R490), and the common form of a
window read or atomic that gathers its answers, which the application cores share (R499).
-/

namespace Sys2Proof.Machine

open Sys2Proof

/-- A host port. -/
def host (hp : Nat) (s : Part) : HostPort := s.mgmt.hosts.getD hp HostPort.reset

/-- Change a host port. -/
def onHost (hp : Nat) (f : HostPort → HostPort) (s : Part) : Part :=
  onManagement (fun m => { m with hosts := m.hosts.mapIdx fun i h => if i = hp then f h else h }) s

/-- Agent number of function 1 of a host port (R57). -/
def hostAgent (hp : Nat) : Nat := 0x100 + hp

/-- Gallery of function 1 of a host port (R382). -/
def hostGallery (hp : Nat) (s : Part) : Nat := if hp = 0 then s.gals.hp0 else s.gals.hp1

/-! ### Window entries (R489, R503) -/

/-- BASE, EPOCH, HANDLE and VALID of a window entry (R503). -/
def wnBase (w : Nat) : Nat := field w 29 0
def wnEpoch (w : Nat) : Nat := field w 45 30
def wnHandle (w : Nat) : Nat := field w 61 46
def wnValid (w : Nat) : Bool := bitAt w 63

/-- Pool address of a window offset under an entry (R489). -/
def wnAddr (w offset : Nat) : Nat := wnBase w * 2 ^ 28 + offset % 2 ^ 28

/-- A memory request through a window entry: opcode, address and data, for a gallery. Its agent does not cache, so that a
read carries NA = 1 (R134). -/
def windowMsg (op gallery w addr oparg : Nat) (data : List Byte) : Msg :=
  { Msg.blank with
    op := BitVec.ofNat 8 op, gallery := BitVec.ofNat 3 gallery, dstPart := BitVec.ofNat 12 (addr / 2 ^ 46), dstPort := 0x1FF,
    epoch := BitVec.ofNat 16 (wnEpoch w), addr := BitVec.ofNat 58 addr, na := op = 0x01,
    oparg := BitVec.ofNat 64 (oparg % 2 ^ 48 + wnHandle w * 2 ^ 48), data := data }

/-! ### Reads and atomics that gather answers -/

/-- Keep a window read or atomic until its answers have come. -/
def putWindow (r : WindowReq) (s : Part) : Part := onManagement (fun m => { m with windows := m.windows ++ [r] }) s

/-- Issue RD_LINE for lines `first … first + n - 1` of a read; answers carry their bytes to 128 × place. -/
def windowLines (agent gallery w first : Nat) : Nat → Nat → List (Nat × Nat) → Part → List (Nat × Nat) × Part
  | 0, _, tags, s => (tags, s)
  | n + 1, place, tags, s =>
    let (tag, s) := issueInternal agent (windowMsg 0x01 gallery w ((first + place) * 128) 0 []) s
    windowLines agent gallery w first n (place + 1) (tags ++ [(tag.toNat, place)]) s

/-- Read a range of pool bytes through a window entry, as RD_LINE of each line it touches. -/
def windowRead (agent gallery w addr n : Nat) (s : Part) : Part :=
  let first := addr / 128
  let lines := (addr + n - 1) / 128 + 1 - first
  let (tags, s) := windowLines agent gallery w first lines 0 [] s
  putWindow { agent := agent, tags := tags, bytes := List.replicate (128 * lines) 0, start := addr % 128, length := n, bad := false } s

/-- Write a run of bytes with byte enables: WR_LINE of each whole line, WR_MASKED of other enabled bytes, in address order. -/
def windowStores (agent gallery w : Nat) : Nat → Nat → List (Option Byte) → Part → Part
  | 0, _, _, s => s
  | n + 1, addr, bs, s =>
    let at_ := addr % 128
    let part := bs.take (128 - at_)
    let line := List.replicate at_ none ++ part ++ List.replicate (128 - at_ - part.length) none
    let data := line.map fun b => b.getD 0
    let mask := (line.mapIdx fun i b => if b.isSome then 2 ^ i else 0).sum
    let base := addr - at_
    let s := if mask = 0 then s
      else if mask = 2 ^ 128 - 1 then (issueInternal agent (windowMsg 0x03 gallery w base 0 data) s).2
      else (issueInternal agent (windowMsg 0x04 gallery w base 0 (leBytes 16 mask ++ data)) s).2
    if bs.length ≤ 128 - at_ then s else windowStores agent gallery w n (base + 128) (bs.drop (128 - at_)) s

/-- AT_ADD with FETCH, or AT_CAS, of 4 or 8 bytes (R61, R489). `data` is the operand, or the compare and the swap value. -/
def windowAtomic (agent gallery w : Nat) (cas : Bool) (addr width : Nat) (data : List Byte) (s : Part) : Part :=
  let operand (off : Nat) : List Byte := sliceBytes (sliceBytes data off width) 0 8
  let body := if cas then operand 0 ++ operand width else operand 0
  let oparg := bitOf (width = 8) + 4
  let (tag, s) := issueInternal agent (windowMsg (if cas then 0x0B else 0x08) gallery w addr oparg body) s
  putWindow { agent := agent, tags := [(tag.toNat, 0)], bytes := List.replicate 8 0, start := 0, length := width, bad := false } s

/-- A window read or atomic takes an answer. -/
def windowTake (tag st : Nat) (bytes : List Byte) (r : WindowReq) : WindowReq :=
  match r.tags.find? fun t => t.1 = tag with
  | none => r
  | some t =>
    { r with
      tags := r.tags.filter fun x => x.1 ≠ tag
      bytes := patchBytes r.bytes (128 * t.2) (if st = stOK then bytes else errorValue bytes.length)
      bad := r.bad || st ≠ stOK }

/-- A window read or atomic is complete: the agent has its value, with EP set where a status was not OK (R489). -/
def windowDone (r : WindowReq) (s : Part) : Part :=
  let value := sliceBytes r.bytes r.start r.length
  if r.agent = agCores then onManagement (fun m => { m with coreLast := some value }) s
  else onHost (r.agent - 0x100) (fun h => { h with lastCpl := some (value, r.bad), unsupported := false }) s

/-- An answer to a host function's or uncached core's request. One that no read or atomic waits for answers a store. -/
def windowAnswered (agent tag st : Nat) (bytes : List Byte) (s : Part) : Part :=
  match s.mgmt.windows.find? fun r => r.agent = agent && r.tags.any fun t => t.1 = tag with
  | none => s
  | some r =>
    let r' := windowTake tag st bytes r
    if r'.tags.isEmpty then windowDone r' (onManagement (fun m => { m with windows := m.windows.erase r }) s)
    else onManagement (fun m => { m with windows := m.windows.map fun x => if x = r then r' else x }) s

/-! ### Function 1 (R489) -/

/-- Have the host ports been trained (step 6 of R478)? -/
def hostsUp (s : Part) : Bool := s.cur.power = .coreOn && !s.cur.fastPending && 6 ≤ s.cur.phase

/-- Can a host reach its function 1? -/
def windowOpen (hp : Nat) (s : Part) : Bool := decide (hp < 2) && (host hp s).link && hostsUp s

/-- Is the pool in service to function 1: from the step at which its blocks take commands (R533), and not after a halt (log entry 90)? -/
def poolOpen (s : Part) : Bool := blockReady 5 s

/-- A request that completes as Unsupported Request. -/
def unsupportedRequest (hp : Nat) (s : Part) : Part := onHost hp (fun h => { h with lastCpl := none, unsupported := true }) s

/-- The window entry that an offset of function 1 goes through. -/
def hostEntry (hp offset : Nat) (s : Part) : Nat := (tget (host hp s).win (offset / 2 ^ 28 % 256) 0).toNat

/-- Does function 1 turn a request away: its entry is not valid, the function is being reset, or the pool is not in service (R437, R489)? -/
def hostTurnsAway (hp offset : Nat) (s : Part) : Bool := (host hp s).draining || !wnValid (hostEntry hp offset s) || !poolOpen s

/-- Does a request of `n` bytes stay within 4 KiB, as PCI Express requires? -/
def inFourKib (offset n : Nat) : Bool := offset < 2 ^ 36 && 0 < n && offset % 4096 + n ≤ 4096

/-- POOL_WINDOW_READ (R489). -/
def poolRead (hp offset n : Nat) (s : Part) : Part :=
  if !windowOpen hp s || !inFourKib offset n then s
  else if hostTurnsAway hp offset s then unsupportedRequest hp s
  else
    let w := hostEntry hp offset s
    windowRead (hostAgent hp) (hostGallery hp s) w (wnAddr w offset) n s

/-- POOL_WINDOW_WRITE (R489): a posted write, turned away without effect. -/
def poolWrite (hp offset : Nat) (data : List Byte) (enables : List Bool) (s : Part) : Part :=
  if !windowOpen hp s || !inFourKib offset data.length then s
  else if hostTurnsAway hp offset s then unsupportedRequest hp s
  else
    let w := hostEntry hp offset s
    let bs := data.mapIdx fun i b => if enables.getD i false then some b else none
    windowStores (hostAgent hp) (hostGallery hp s) w 33 (wnAddr w offset) bs s

/-- POOL_WINDOW_ATOMIC (R489): kind 0 FetchAdd, 1 Swap, 2 CAS, the width following from the data. -/
def poolAtomic (hp kind offset : Nat) (data : List Byte) (s : Part) : Part :=
  let width := if kind = 2 then data.length / 2 else data.length
  if !windowOpen hp s || !(width ∈ [4, 8, 16]) || offset % width ≠ 0 || !inFourKib offset width then s
  else if hostTurnsAway hp offset s || kind = 1 || 2 < kind || 8 < width then unsupportedRequest hp s
  else
    let w := hostEntry hp offset s
    windowAtomic (hostAgent hp) (hostGallery hp s) w (kind = 2) (wnAddr w offset) width data s

/-! ### Resets of a host port (R437, R490) -/

/-- Requests of a host function that are still outstanding. -/
def hostOut (hp : Nat) (s : Part) : List Tracked :=
  (s.links.tracked.filter fun p => p.1 / 65536 = hostAgent hp).map (·.2)

/-- Function 1 begins to drain (R437). -/
def functionReset (hp : Nat) (s : Part) : Part :=
  onHost hp (fun h => { h with draining := true, lastCpl := none, unsupported := false }) s

/-- The drain of a function ends once nothing of it is outstanding. -/
def pumpHosts (s : Part) : Option Part :=
  let ended (hp : Nat) : Bool := (host hp s).draining && (hostOut hp s).isEmpty
  if ended 0 then some (onHost 0 (fun h => { h with draining := false }) s)
  else if ended 1 then some (onHost 1 (fun h => { h with draining := false }) s)
  else none

/-- FUNCTION_DRAIN_EXPIRY (R437): what is still outstanding is abandoned, and answers that come later are late (R76). -/
def functionExpires (hp : Nat) (s : Part) : Part :=
  if !(host hp s).draining then s
  else
    let s := count 17 0 4 (hostOut hp s).length s
    let s := (hostOut hp s).foldl (fun s t => untrack (hostAgent hp) t s) s
    let s := onManagement (fun m => { m with windows := m.windows.filter fun r => r.agent ≠ hostAgent hp }) s
    onHost hp (fun h => { h with draining := false }) s

/-- A mailbox channel is emptied (R490): an async step runs on and reports to no channel. -/
def emptyChannel (c : Nat) (s : Part) : Part :=
  onManagement (fun m =>
    { m with
      channels := m.channels.mapIdx fun i x => if i = c then { x with req := [], rsp := [], busy := false, done := false } else x
      async := m.async.map fun a => if a.chan = c then { a with chan := 3 } else a }) s

/-- Function 0 is reset (R490): its mailbox channel is emptied and its SPDM connection discarded. -/
def function0Reset (hp : Nat) (s : Part) : Part :=
  onManagement (fun m => { m with spdm := m.spdm.mapIdx fun i x => if i = hp then Spdm.reset else x }) (emptyChannel hp s)

/-- HOST_PORT_RESET (R437, R490): kind 0 PERST#, 1 hot reset, 2 link-down, 3 Function Level Reset of function 0, 4 of function 1. -/
def hostPortReset (hp kind : Nat) (s : Part) : Part :=
  if 2 ≤ hp || 4 < kind || s.cur.power ≠ .coreOn then s
  else if kind = 3 then function0Reset hp s
  else if kind = 4 then functionReset hp s
  else
    let s := function0Reset hp (functionReset hp s)
    if kind = 0 then onHost hp (fun h => { h with perst := false, link := false, retry := true }) s else s

/-- HOST_REFCLK_LOSS (R550): a link-down of the port. -/
def hostClockLost (hp : Nat) (s : Part) : Part :=
  if 2 ≤ hp then s else onHost hp (fun h => { h with refclk := false, link := false }) (hostPortReset hp 2 s)

/-- PERST_DEASSERT (R553): the port trains, its reference running. -/
def perstDeassert (hp : Nat) (s : Part) : Part :=
  if 2 ≤ hp then s
  else
    let up := hostsUp s
    onHost hp (fun h => { h with perst := true, refclk := true, link := up, retry := !up }) s

/-- The host ports train (step 6 of R478, step 6 of R415). -/
def trainHosts (s : Part) : Part :=
  onManagement (fun m => { m with hosts := m.hosts.map fun h =>
    { h with link := h.perst && h.refclk, retry := !(h.perst && h.refclk) } }) s

end Sys2Proof.Machine
end

