-- ==== Sys2Proof/Machine/Cores.lean ====
section
/-!
DEFINITION. The application cores' accesses to the pool window and their caches (R498 to R500, R504), and their part as a member of
sharing groups (R113, R115, R120, R123). An access lies within one line: a core performs one that crosses lines as several.
-/

namespace Sys2Proof.Machine

open Sys2Proof

/-! ### Cached accesses (R499) -/

/-- A line that the cores hold. -/
def coreLine (line : Nat) (s : Part) : Option CoreLine := tget? s.mgmt.coreCache line

/-- Put a line in the cores' caches. -/
def putCoreLine (line : Nat) (x : CoreLine) (s : Part) : Part :=
  onManagement (fun m => { m with coreCache := tset m.coreCache line x }) s

/-- Take a line out of the cores' caches. -/
def dropCoreLine (line : Nat) (s : Part) : Part := onManagement (fun m => { m with coreCache := tdel m.coreCache line }) s

/-- The value that a core's last load or atomic returned. -/
def coreReturns (bs : List Byte) (s : Part) : Part := onManagement (fun m => { m with coreLast := some bs }) s

/-- Does an access change its line? -/
def coreChanges (k : CoreAccess) : Bool := k = .store || k = .add || k = .cas

/-- Bytes that an access reads or writes: a compare-and-swap carries two operands. -/
def coreWidth (a : CoreMiss) : Nat := if a.kind = .cas then a.data.length / 2 else a.data.length

/-- Is a line's WB_DIRTY under way? -/
def CoreState.writing : CoreState → Bool
  | .writeBack _ => true
  | _ => false

/-- May an access be performed on a held line at once (R115)? -/
def coreHit (a : CoreMiss) (x : CoreLine) : Bool :=
  if !coreChanges a.kind then true
  else !x.state.writing && (!x.catalogue || x.state = .exclusive || x.state = .modified)

/-- The bytes that an access leaves in its line. -/
def coreNew (a : CoreMiss) (old : List Byte) : List Byte :=
  let w := coreWidth a
  match a.kind with
  | .store => a.data
  | .add => leBytes w (ofLe old + ofLe a.data)
  | .cas => if old = a.data.take w then a.data.drop w else old
  | _ => old

/-- Perform an access on a held line. -/
def corePerform (a : CoreMiss) (x : CoreLine) (s : Part) : Part :=
  let old := sliceBytes x.bytes a.offset (coreWidth a)
  if coreChanges a.kind then
    let s := putCoreLine a.line { x with bytes := patchBytes x.bytes a.offset (coreNew a old), state := .modified } s
    if a.kind = .store then s else coreReturns old s
  else if a.data.isEmpty then s
  else coreReturns old s

/-- The message that asks for a core's line, or writes it back. -/
def coreMsg (op : Nat) (a : CoreMiss) (oparg : Nat) (data : List Byte) : Msg :=
  { Msg.blank with
    op := BitVec.ofNat 8 op, gallery := BitVec.ofNat 3 a.gallery, dstPart := BitVec.ofNat 12 (a.line / 2 ^ 39), dstPort := 0x1FF,
    epoch := BitVec.ofNat 16 a.epoch, addr := BitVec.ofNat 58 (a.line * 128),
    oparg := BitVec.ofNat 64 (oparg + a.handle % 65536 * 2 ^ 48), data := data }

/-- The opcode that an access needs (R120): a read of the line, ownership of it, or UPGRADE of a copy. -/
def coreWants (a : CoreMiss) (held : Bool) : Nat :=
  if !a.catalogue then 0x01 else if !coreChanges a.kind then 0x20 else if held then 0x22 else 0x21

/-- Is a request of the cores outstanding for the line (R120)? -/
def coreBusy (line : Nat) (s : Part) : Bool :=
  (s.mgmt.coreMisses.any fun x => x.line = line && x.op ≠ 0) || (coreLine line s).any fun x => x.state.writing

/-- Keep an access that waits. -/
def coreWait (a : CoreMiss) (s : Part) : Part := onManagement (fun m => { m with coreMisses := m.coreMisses ++ [a] }) s

/-- The line of an access as it comes into the caches. -/
def newCoreLine (a : CoreMiss) (st : CoreState) (bytes : List Byte) : CoreLine :=
  { state := st, catalogue := a.catalogue, bytes := bytes, poison := false, gallery := a.gallery, epoch := a.epoch, handle := a.handle }

/-- The write-back of a held line, as an access of the cores. -/
def coreBack (line : Nat) (x : CoreLine) : CoreMiss :=
  { tag := 0, op := 0, line := line, catalogue := x.catalogue, gallery := x.gallery, epoch := x.epoch, handle := x.handle,
    kind := .writeBack, offset := 0, data := [] }

/-- Write back and drop a line (R115, R499): WB_DIRTY from M or O of a catalogue line, WR_LINE of a modified line elsewhere; a line
that an error has taken goes poisoned (R310, R500). It waits behind a request of the cores for the line (R120). -/
def coreWriteBack (line : Nat) (s : Part) : Part :=
  match coreLine line s with
  | none => s
  | some x =>
    let a := coreBack line x
    let arg := 8 * bitOf x.poison
    if x.state.writing then s
    else if x.state ≠ .modified && x.state ≠ .owned then dropCoreLine line s
    else if coreBusy line s then coreWait a s
    else if x.catalogue then
      let (tag, s) := issueInternal agCores (coreMsg 0x23 a arg x.bytes) s
      coreWait { a with tag := tag.toNat, op := 0x23 } (putCoreLine line { x with state := .writeBack (x.state = .owned) } s)
    else (issueInternal agCores (coreMsg 0x03 a arg x.bytes) (dropCoreLine line s)).2

/-- Perform an access, or ask for what it needs. -/
def coreTry (a : CoreMiss) (s : Part) : Part :=
  let held := coreLine a.line s
  if a.kind = .writeBack then coreWriteBack a.line s
  else match held.filter (coreHit a) with
  | some x => corePerform a x s
  | none =>
    if coreBusy a.line s then coreWait { a with tag := 0, op := 0 } s
    else if !a.catalogue && a.kind = .store && a.data.length = 128 then
      putCoreLine a.line (newCoreLine a .modified a.data) s
    else
      let op := coreWants a held.isSome
      let (tag, s) := issueInternal agCores (coreMsg op a 0 []) s
      coreWait { a with tag := tag.toNat, op := op } s

/-- The accesses that wait for a line are tried again, oldest first. -/
def coreRetry (line : Nat) (s : Part) : Part :=
  let again := s.mgmt.coreMisses.filter fun x => x.line = line && x.op = 0
  let s := onManagement (fun m => { m with coreMisses := m.coreMisses.filter fun x => !(x.line = line && x.op = 0) }) s
  again.foldl (fun s a => coreTry a s) s

/-! ### Answers -/

/-- CMP_ACK for a request of the cores (R118, R120). -/
def coreAck (m : Msg) (s : Part) : Part :=
  emit (sized { Msg.blank with
    op := 0x32, vc := vcLike .rsp m, gallery := m.gallery, srcPart := BitVec.ofNat 12 (myPart s), srcPort := 0x102, dstPart := m.dstPart,
    dstPort := 0x1FF, tag := m.tag }) s

/-- The state that an answer grants (R117, R126, R127). -/
def coreGrant (op : Nat) : CoreState :=
  if op = 0x39 then .exclusive else if op = 0x3A || op = 0x3B then .modified else .shared

/-- An access ends without its line: a load or atomic returns the error value (R64). -/
def coreFails (a : CoreMiss) (s : Part) : Part :=
  if a.data.isEmpty || a.kind = .store then s else coreReturns (errorValue (coreWidth a)) s

/-- The answer to a WB_DIRTY: the line is gone. After RETRY_LATER nothing has been performed (R122), so the line stays dirty and is still
to be written back (R115). -/
def coreWritten (line status : Nat) (s : Part) : Part :=
  match coreLine line s with
  | none => s
  | some x =>
    match x.state with
    | .writeBack copies =>
      if status = stRetryLater then putCoreLine line { x with state := if copies then .owned else .modified } s else dropCoreLine line s
    | _ => s

/-- The answer to a request that an access sent: `req` is that request. -/
def coreLineAnswered (a : CoreMiss) (req ans : Msg) (s : Part) : Part :=
  let s := onManagement (fun m => { m with coreMisses := m.coreMisses.erase a }) s
  let op := ans.op.toNat
  let s :=
    if a.op = 0x23 then coreWritten a.line ans.status.toNat s
    else if ans.status.toNat ≠ stOK then coreFails a s
    else if op = 0x31 then
      match coreLine a.line s with
      | some x => corePerform a { x with state := .modified } (coreAck req s)
      | none => coreFails a (coreAck req s)
    else
      let s := if a.catalogue && a.op ≠ 0x01 then coreAck req s else s
      corePerform a (newCoreLine a (coreGrant op) ans.data) (putCoreLine a.line (newCoreLine a (coreGrant op) ans.data) s)
  coreRetry a.line s

/-- A near atomic's data (R133): the cores perform the atomic on the line, which they then hold in M. -/
def coreNearAtomic (req ans : Msg) (s : Part) : Part :=
  if ans.status.toNat ≠ stOK then windowAnswered agCores req.tag.toNat ans.status.toNat (errorValue 8) s
  else
    let (new, old) := updatedLine req ans.data
    let line := req.addr.toNat / 128
    let x : CoreLine := { state := .modified, catalogue := true, bytes := new, poison := false, gallery := req.gallery.toNat, epoch := req.epoch.toNat,
                          handle := field req.oparg.toNat 63 48 }
    windowAnswered agCores req.tag.toNat stOK old (coreAck req (putCoreLine line x s))

/-- An answer to a request of the cores. -/
def coreAnswered (req ans : Msg) (s : Part) : Part :=
  match s.mgmt.coreMisses.find? fun a => a.op ≠ 0 && a.tag = req.tag.toNat with
  | some a => coreLineAnswered a req ans s
  | none =>
    if ans.op.toNat = 0x3B then coreNearAtomic req ans s
    else windowAnswered agCores req.tag.toNat ans.status.toNat ans.data s

/-! ### Snoops (R123) -/

/-- SNP_RSP to the home, with the state after and FWD (R118). -/
def snoopRsp (m : Msg) (after : Nat) (fwd : Bool) (s : Part) : Part :=
  emit (sized { Msg.blank with
    op := 0x30, vc := vcLike .rsp m, gallery := m.gallery, srcPart := BitVec.ofNat 12 (myPart s), srcPort := 0x102, dstPart := m.srcPart,
    dstPort := m.srcPort, tag := m.tag, aux := BitVec.ofNat 24 (after + bitOf fwd * 4) }) s

/-- Forward the line to the requester that the snoop names (R117). -/
def snoopForward (m : Msg) (op : Nat) (bytes : List Byte) (s : Part) : Part :=
  let w := m.oparg.toNat
  emit (sized { Msg.blank with
    op := BitVec.ofNat 8 op, vc := vcLike .dat m, gallery := m.gallery, srcPart := BitVec.ofNat 12 (myPart s), srcPort := 0x102,
    dstPart := BitVec.ofNat 12 (field w 27 16), dstPort := BitVec.ofNat 9 (field w 36 28), tag := BitVec.ofNat 16 w, data := bytes }) s

/-- SNP_DATA to the home, which answers the snoop itself (R123). -/
def snoopData (m : Msg) (bytes : List Byte) (s : Part) : Part :=
  emit (sized { Msg.blank with
    op := 0x3C, vc := vcLike .dat m, gallery := m.gallery, srcPart := BitVec.ofNat 12 (myPart s), srcPort := 0x102, dstPart := m.srcPart,
    dstPort := m.srcPort, tag := m.tag, data := bytes }) s

/-- A snoop of the cores (R119, R123). -/
def coreSnooped (m : Msg) (s : Part) : Part :=
  let line := m.addr.toNat / 128
  match (coreLine line s).filter (·.catalogue) with
  | none => snoopRsp m 0 false s
  | some x =>
    let dirty := x.state = .modified || x.state = .owned || x.state.writing
    match m.op.toNat with
    | 0x28 =>
      let s := snoopRsp m (if dirty then 2 else 1) true (snoopForward m 0x38 x.bytes s)
      let after : CoreState := match x.state with
        | .modified => .owned
        | .exclusive => .shared
        | .writeBack _ => .writeBack true
        | st => st
      putCoreLine line { x with state := after } s
    | 0x29 => if dirty then snoopData m x.bytes (dropCoreLine line s) else snoopRsp m 0 false (dropCoreLine line s)
    | 0x2A => snoopRsp m 0 true (snoopForward m 0x3A x.bytes (dropCoreLine line s))
    | _ => snoopRsp m (if dirty then 2 else 1) true (snoopForward m 0x81 x.bytes s)

/-! ### CORE_POOL_ACCESS (R499) -/

/-- Words 0 and 1 of APC_WIN_n (R504). -/
def apcWord (n word : Nat) (s : Part) : Nat := (tget s.mgmt.apcWin (2 * n + word) 0).toNat

/-- Is the extent of a pool address a catalogue extent (R499)? -/
def coreCatalogue (addr : Nat) (s : Part) : Bool :=
  if addr / 2 ^ 46 = homePart s then (extentAt (extOf addr) s).cls = .catalogue else Config.remoteCatalogue (addr / 2 ^ 28)

/-- A FENCE of the cores over every stream (R73). -/
def coreFence (s : Part) : Part :=
  let t := freshTag agCores s
  let s := onLinks (fun l => { l with nextTag := tset l.nextTag agCores ((t.toNat + 1) % 65536) }) s
  let me := BitVec.ofNat 12 (myPart s)
  acceptFence agCores true (sized { Msg.blank with op := 0x10, srcPart := me, srcPort := 0x102, dstPart := me, dstPort := 0x1FF, tag := t }) s

/-- An access under a window entry with CACHE = 0: a line request each. -/
def coreUncached (kind : CoreAccess) (gallery w addr : Nat) (data : List Byte) (s : Part) : Part :=
  match kind with
  | .load => windowRead agCores gallery w addr data.length s
  | .store => windowStores agCores gallery w 2 addr (data.map some) s
  | .add => windowAtomic agCores gallery w false addr data.length data s
  | .cas => windowAtomic agCores gallery w true addr (data.length / 2) data s
  | .writeBack | .fence => s

/-- The bytes that an access touches: their number for a load, store or add, half of the operands for a compare-and-swap. -/
def accessWidth (kind : CoreAccess) (data : List Byte) : Nat := if kind = .cas then data.length / 2 else data.length

/-- May a core make the access: within a line, and an atomic of 4 or 8 aligned bytes? -/
def accessOk (kind : CoreAccess) (offset : Nat) (data : List Byte) : Bool :=
  let w := accessWidth kind data
  kind = .writeBack || kind = .fence ||
  (0 < w && offset % 128 + w ≤ 128 && (kind = .load || kind = .store || ((w = 4 || w = 8) && offset % w = 0)))

/-- Do the cores run: they have been released (R478 step 9, R415 step 7), and the pool's blocks are in service (R533)? -/
def coresRun (s : Part) : Bool := s.mgmt.coresOn && blockReady 18 s

/-- An access to the pool window at an offset of it (R498, R499). -/
def coreWindow (kind : CoreAccess) (offset : Nat) (data : List Byte) (s : Part) : Part :=
  let n := offset / 2 ^ 28 % 4096
  let w := apcWord n 0 s
  let w1 := apcWord n 1 s
  if !wnValid w then onManagement (fun m => { m with coreLast := none }) s
  else
    let addr := wnAddr w offset
    if !bitAt w1 3 then coreUncached kind (field w1 2 0) w addr data s
    else if kind = .writeBack then coreWriteBack (addr / 128) s
    else
      coreTry { tag := 0, op := 0, line := addr / 128, catalogue := coreCatalogue addr s, gallery := field w1 2 0,
                epoch := wnEpoch w, handle := wnHandle w, kind := kind, offset := addr % 128, data := data } s

/-! ### The rest of the physical map (R498) -/

/-- An access to the working region, by its offset there (R21, R498): the cores' private memory, which their caches keep coherent. A line
that is poisoned or uncorrectable gives the error value (R310). -/
def coreRegion (kind : CoreAccess) (offset : Nat) (data : List Byte) (s : Part) : Part :=
  if kind = .writeBack then s
  else
    let phys := workingFirst s * linesPerExtent + offset / 128
    let (r, s) := demandRead phys s
    let old := if r.state = .good then readUnder (partCipher phys s) r.bytes r.cipher else errorValue 128
    let a : CoreMiss :=
      { tag := 0, op := 0, line := phys, catalogue := false, gallery := 0, epoch := 0, handle := 0, kind := kind, offset := offset % 128,
        data := data }
    let was := sliceBytes old a.offset (coreWidth a)
    let s := if kind = .store then s else coreReturns was s
    if !coreChanges kind then s
    else if r.state ≠ .good && !(kind = .store && data.length = 128) then s
    else storeLine phys (patchBytes old a.offset (coreNew a was)) false (partCipher phys s) s

/-- An access to the interrupt controller, whose registers the spec leaves to the RISC-V Advanced Interrupt Architecture: a load returns a
free value, and nothing else is known of it (log entry 91). -/
def coreInterrupts (kind : CoreAccess) (data : List Byte) (s : Part) : Part :=
  if kind = .store || kind = .writeBack then s
  else
    let (n, s) := drawFree s
    coreReturns (leBytes (accessWidth kind data) (Config.freeWord n).toNat) s

/-! ### Cache errors (R500, R504) -/

/-- The line of a dirty error is written poisoned: through its home, or in the working region (R310, R500). Until CAT_CMP the cores
answer snoops for it by the WB pending row of R123, with the error value (log 81). -/
def corePoison (line : Nat) (x : Option CoreLine) (s : Part) : Part :=
  match x with
  | none =>
    if isTray s && line < 256 * linesPerExtent then
      let phys := workingFirst s * linesPerExtent + line
      storeLine phys (errorValue 128) true (partCipher phys s) s
    else s
  | some x => coreWriteBack line (putCoreLine line { x with bytes := errorValue 128, poison := true } s)

/-- CORE_CACHE_UE: an uncorrectable error in L2 of a core (units 1 to 16) or L3 (unit 17), in a pool line that the caches hold or
otherwise in a line of the working region. A clean line is fetched again. -/
def coreCacheUe (unit line : Nat) (dirty : Bool) (s : Part) : Part :=
  if !s.mgmt.coresOn || unit = 0 || 17 < unit then s
  else
    let s := onManagement (fun m =>
      { m with apcError := BitVec.ofNat 64 (line * 128 % 2 ^ 58 + bitOf dirty * 2 ^ 58 + unit * 2 ^ 59) }) s
    let s := raiseCore 63 (count 18 0 64 1 s)
    match coreLine line s with
    | none => if dirty then corePoison line none s else s
    | some x =>
      if dirty then corePoison line (some x) s
      else
        coreTry { tag := 0, op := 0, line := line, catalogue := x.catalogue, gallery := x.gallery, epoch := x.epoch, handle := x.handle,
                  kind := .load, offset := 0, data := [] } (dropCoreLine line s)

/-- APC_HW_ERROR_READ: a whole read returns the latched error and clears it (R504, R525). -/
def readHwError (view : Nat) (s : Part) : Part :=
  returnRead view s.mgmt.apcError.toNat (onManagement (fun m => { m with apcError := 0 }) s)

/-- A fast reset or part loss: the cores' state is lost (R417). -/
def resetCores (s : Part) : Part :=
  onManagement (fun m =>
    { m with
      coreCache := [], coreMisses := [], windows := [], apcError := 0, coreIrq := [], coreLast := none, coresOn := false }) s

end Sys2Proof.Machine
end

