-- ==== Sys2Proof/Machine/Crossbar.lean ====
section
/-!
DEFINITION. The switch core after admission: the matcher and the crossbar (R352, R354, R355), the egress scheduler (R361, R362),
shapers and policers (R363, R364, R367), and the flush of a port (R371).
-/

namespace Sys2Proof.Machine

/-! ### Virtual output queues -/

/-- Crossbar output of a logical port. -/
def outputOf (port : Nat) : Nat := port / 2

/-- The heads of the virtual output queues: the oldest message of each input and egress queue (R355). -/
def voqHeads : List Queued → List Queued
  | [] => []
  | q :: qs => q :: (voqHeads qs).filter fun r => !(r.input = q.input && r.port = q.port && r.queue = q.queue)

/-- Cells that an egress queue holds: of whole messages, and those that have crossed of messages under way. -/
def egressCells (port queue : Nat) (s : Part) : Nat :=
  (tget s.sw.queues (32 * port + queue) []).foldl (fun n q => n + cellsOf q.msg) 0 +
  (s.sw.voq.filter fun q => q.port = port && q.queue = queue).foldl (fun n q => n + (cellsOf q.msg - q.left)) 0

/-- May the virtual output queue of this head send a cell (R354): has the egress queue room, and may the FABRIC class, or expedited traffic,
take the cell's energy (R454)? -/
def voqOpen (q : Queued) (s : Part) : Bool :=
  egressCells q.port q.queue s < (queueCfg q.port q.queue s).maxCells && mayTake 0 (expedited q.msg) cellCost s

/-- The order of classes in R54: RSP, DAT, SNP, REQ. -/
def classRank (m : Msg) : Nat :=
  match vcClass m.vc.toNat with
  | .rsp => 0 | .dat => 1 | .snp => 2 | .req => 3

/-- Distance from a pointer to an index, round a ring of 128. -/
def ringDist (ptr i : Nat) : Nat := (i + 128 - ptr % 128) % 128

/-- The element that a measure makes least, the first of equals. -/
def leastBy {α : Type} (f : α → Nat) : List α → Option α
  | [] => none
  | x :: xs =>
    match leastBy f xs with
    | none => some x
    | some y => if f y < f x then some y else some x

/-- The request that an output grants: the class that comes first, then the first input at or after its pointer. -/
def grantOf (reqs : List Queued) (out : Nat) (s : Part) : Option (Nat × Nat) :=
  let ptr := tget s.sw.grantPtr out 0
  (leastBy (fun q => classRank q.msg * 128 + ringDist ptr q.input) (reqs.filter fun q => outputOf q.port = out)).map
    fun q => (q.input, out)

/-- The grant that an input accepts: the first output at or after its pointer. -/
def acceptOf (grants : List (Nat × Nat)) (input : Nat) (s : Part) : Option (Nat × Nat) :=
  leastBy (fun p => ringDist (tget s.sw.acceptPtr input 0) p.2) (grants.filter fun p => p.1 = input)

/-- One iteration of a matching (R354): the pairs so far, with those that it adds; the first moves the pointers. -/
def matchStep (first : Bool) (pairs : List (Nat × Nat)) (s : Part) : List (Nat × Nat) × Part :=
  let idle (q : Queued) : Bool := !(pairs.any fun p => p.1 = q.input || p.2 = outputOf q.port)
  let reqs := (voqHeads s.sw.voq).filter fun q => voqOpen q s && idle q
  let outs := (reqs.map fun q => outputOf q.port).eraseDups
  let grants := outs.filterMap fun o => grantOf reqs o s
  let ins := (grants.map (·.1)).eraseDups
  let new := ins.filterMap fun i => acceptOf grants i s
  let move (w : Switch) (p : Nat × Nat) : Switch :=
    { w with grantPtr := tset w.grantPtr p.2 ((p.1 + 1) % 128), acceptPtr := tset w.acceptPtr p.1 ((p.2 + 1) % 128) }
  (pairs ++ new, if first then onSwitch (fun w => new.foldl move w) s else s)

/-- The place of an egress queue among those of its crossbar output. -/
def queuePlace (q : Queued) : Nat := q.port % 2 * 32 + q.queue

/-- The configuration of a logical port (R376). -/
def portCfg (p : Nat) (s : Part) : PortCfg := tget s.sw.portCfg p PortCfg.reset

/-- Counted length of a message at a port (R365). -/
def countedLength (p : Nat) (m : Msg) (s : Part) : Nat := wireBytes m + (portCfg p s).overhead

/-- The class time of a port. -/
def classTime (port cls : Nat) (s : Part) : ClassTime := tget s.sw.times (4 * port + cls) { v := 0, run := 0 }

/-- The finish tag of a head message (R362). -/
def tagOf (q : Queued) (s : Part) : BitVec 48 :=
  match q.tag with
  | some t => t
  | none =>
    let start := if q.wakes then (classTime q.port (clsNum (vcClass q.msg.vc.toNat)) s).v
      else tget s.sw.fPrev (32 * q.port + q.queue) 0
    start + BitVec.ofNat 48 (ceilDiv (countedLength q.port q.msg s * 65536) (queueCfg q.port q.queue s).weight)

/-- Give the heads of a port's queues their tags, which they keep (R362). -/
def tagHeads (port : Nat) (s : Part) : Part :=
  let tag (qs : List Queued) : List Queued :=
    match qs with
    | [] => []
    | q :: rest => { q with tag := some (tagOf q s) } :: rest
  onSwitch (fun w => { w with queues := w.queues.map fun p => if p.1 / 32 = port then (p.1, tag p.2) else p }) s

/-- The first element of a list that a test picks is changed. -/
def modFirst {α : Type} (test : α → Bool) (f : α → α) : List α → List α
  | [] => []
  | x :: xs => if test x then f x :: xs else x :: modFirst test f xs

/-- Put a message whose cells have all crossed into its egress queue (R355), which counts it (R513) and whose depth is then sampled (R510); one that finds it empty
starts from V (R362). -/
def intoQueue (q : Queued) (s : Part) : Part :=
  let key := 32 * q.port + q.queue
  let q := { q with wakes := (tget s.sw.queues key []).isEmpty }
  let s := onSwitch (fun w => { w with queues := tset w.queues key (tget w.queues key [] ++ [q]) }) s
  let s := count 4 key 0 1 (count 4 key 1 (wireBytes q.msg) s)
  tagHeads q.port (sample 4 key 0 (egressCells q.port q.queue s) s)

/-- A matched input sends one cell to its output (R354): from its queues for that output in turn. -/
def sendCell (pair : Nat × Nat) (s : Part) : Part :=
  let key := 128 * pair.1 + pair.2
  let ptr := tget s.sw.rrPtr key 0
  let heads := (voqHeads s.sw.voq).filter fun q => q.input = pair.1 && outputOf q.port = pair.2 && voqOpen q s
  match leastBy (fun q => (queuePlace q + 64 - ptr % 64) % 64) heads with
  | none => s
  | some q =>
    let s := takes 0 (expedited q.msg) cellCost s
    let s := onSwitch (fun w => { w with rrPtr := tset w.rrPtr key ((queuePlace q + 1) % 64) }) s
    let same (r : Queued) : Bool := r = q
    if q.left ≤ 1 then intoQueue { q with left := 0 } (onSwitch (fun w => { w with voq := w.voq.erase q }) s)
    else onSwitch (fun w => { w with voq := modFirst same (fun r => { r with left := r.left - 1 }) w.voq }) s

/-- A whole matching of two iterations, and its cells. -/
def wholeMatching (s : Part) : Part :=
  let (pairs, s) := matchStep true [] s
  let (pairs, s) := matchStep false pairs s
  pairs.foldl (fun s p => sendCell p s) (count 2 0 0 1 s)

/-- The matcher in one cell time (R354): two cell times hold three matchings of two iterations. -/
def matchCell (s : Part) : Part :=
  if s.sw.oddCell then
    let (pairs, s) := matchStep false s.sw.halfMatch s
    let s := onSwitch (fun w => { w with oddCell := false, halfMatch := [] }) s
    wholeMatching (pairs.foldl (fun s p => sendCell p s) (count 2 0 0 1 s))
  else
    let s := wholeMatching s
    let (pairs, s) := matchStep true [] s
    onSwitch (fun w => { w with oddCell := true, halfMatch := pairs }) s

/-! ### Shapers and policers -/

/-- A bucket of 1/1,024 bytes after one cell time at a rate in MB/s (R363). -/
def refillTo (rate burst : Nat) (t : Int) : Int := min (t + (rate * 1024 / 400 : Nat)) (burst * 1024 : Nat)

/-- A shaper after one cell time, which opens a new one. -/
def refillShaper (x : Shaper) : Shaper :=
  let t := refillTo x.rate x.burst x.tokens
  { x with tokens := t, opening := t, used := [] }

/-- May a port start a message under a shaper (R363)? Starts of several ports in one cell time all see what it held as the cell time
began, so that each of them can take it below zero once. -/
def shaperAllows (port : Nat) (x : Shaper) : Bool := decide (0 ≤ x.tokens) || (decide (0 ≤ x.opening) && port ∉ x.used)

/-- A shaper after a start of a port, of a counted length (R363). -/
def shaperPays (port length : Nat) (x : Shaper) : Shaper :=
  { x with tokens := x.tokens - (length * 1024 : Nat), used := if port ∈ x.used then x.used else x.used ++ [port] }

/-- A policer after one cell time: single rate fills the committed bucket first, then the excess bucket (RFC 2697); two rate fills
each at its own rate (RFC 2698). -/
def refillPolicer (x : Policer) : Policer :=
  let add := x.cir * 1024 / 400
  if x.twoRate then
    { x with tokC := min (x.tokC + add) (x.cbs * 1024), tokE := min (x.tokE + x.pir * 1024 / 400) (x.ebs * 1024) }
  else
    let c := min (x.tokC + add) (x.cbs * 1024)
    { x with tokC := c, tokE := min (x.tokE + (add - (c - x.tokC))) (x.ebs * 1024) }

/-- What a cell time adds to every bucket (R363, R367). -/
def refillBuckets (s : Part) : Part :=
  onSwitch (fun w => { w with shapers := tmap w.shapers refillShaper, policers := tmap w.policers refillPolicer }) s

/-- Colour a message of a counted length (R367): the policer is colour-blind. -/
def colourBy (x : Policer) (length : Nat) : Colour × Policer :=
  let n := length * 1024
  if x.twoRate then
    if x.tokE < n then (.red, x)
    else if x.tokC < n then (.yellow, { x with tokE := x.tokE - n })
    else (.green, { x with tokC := x.tokC - n, tokE := x.tokE - n })
  else if n ≤ x.tokC then (.green, { x with tokC := x.tokC - n })
  else if n ≤ x.tokE then (.yellow, { x with tokE := x.tokE - n })
  else (.red, x)

/-! ### The egress scheduler -/

/-- The shaper of a queue, if it has one. -/
def queueShaper (port queue : Nat) (s : Part) : Option (Nat × Shaper) :=
  let c := queueCfg port queue s
  if c.shaperEn then some (c.shaper, tget s.sw.shapers c.shaper Shaper.reset) else none

/-- Is the head of a queue eligible (R361)? -/
def eligible (q : Queued) (s : Part) : Bool :=
  creditsOf q.msg ≤ (lport q.port s).txCredits.getD q.msg.vc.toNat 0 &&
  match queueShaper q.port q.queue s with
  | none => true
  | some (_, x) => shaperAllows q.port x

/-- The head that a port's transmitter starts (R361): class, then priority, then the smallest tag, then the lowest queue. -/
def chooseHead (port : Nat) (s : Part) : Option Queued :=
  let heads := (s.sw.queues.filter fun p => p.1 / 32 = port).filterMap fun p => p.2.head?
  let able := heads.filter fun q => eligible q s
  match leastBy (fun q => classRank q.msg) able with
  | none => none
  | some f =>
    let same := able.filter fun q => classRank q.msg = classRank f.msg
    let t := classTime port (clsNum (vcClass f.msg.vc.toNat)) s
    let fast := same.filter fun q => expedited q.msg
    let slow := same.filter fun q => !expedited q.msg
    let pick := if fast.isEmpty || (3 ≤ t.run && !slow.isEmpty) then slow else fast
    leastBy (fun q => ((tagOf q s - t.v + BitVec.ofNat 48 (2 ^ 47)).toNat) * 32 + q.queue) pick

/-- A use of the cells of a multicast message ends; the last one frees them (R359). -/
def dropShared (k : Nat) (s : Part) : Part :=
  onSwitch (fun w =>
    match tget? w.multi k with
    | some (n, sp, c) => { w with multi := if n ≤ 1 then tdel w.multi k else tset w.multi k (n - 1, sp, c) }
    | none => w) s

/-- A copy of a multicast message has left or been flushed (R359). -/
def copyGone (q : Queued) (s : Part) : Part :=
  match q.shared with
  | none => s
  | some k => dropShared k s

/-- Is it an answer that ends the tracking of a request (R60, R76, R116)? -/
def endsTracking (m : Msg) : Bool :=
  m.op.toNat ∈ [0x31, 0x38, 0x39, 0x3A, 0x3B, 0x62, 0x71, 0x75, 0x80, 0x81, 0x82, 0x83]

/-- The key of the request that a queued message answers, for an endpoint of this part. -/
def answersKey (m : Msg) (s : Part) : Option Nat :=
  if endsTracking m && answersTo m.dstPart.toNat s && m.dstPort.toNat < 256 then some (trackKey m.dstPort.toNat m.tag.toNat) else none

/-- An endpoint's answer has left the part. -/
def answerLeft (m : Msg) (s : Part) : Part :=
  match answersKey m s with
  | some k => onLinks (fun l => { l with answered := tdel l.answered k }) s
  | none => s

/-- The state once a head has started (R361 to R363): virtual time, expedited run, credits and tokens. -/
def headStarts (q : Queued) (s : Part) : Part :=
  let cls := clsNum (vcClass q.msg.vc.toNat)
  let t := classTime q.port cls s
  let tag := tagOf q s
  let slow : Bool := (s.sw.queues.filter fun p => p.1 / 32 = q.port).any fun p =>
    match p.2.head? with
    | some h => !expedited h.msg && classRank h.msg = classRank q.msg && eligible h s
    | none => false
  let run := if expedited q.msg && slow then t.run + 1 else 0
  let key := 32 * q.port + q.queue
  let rest := (tget s.sw.queues key []).drop 1
  let s := match queueShaper q.port q.queue s with
    | none => s
    | some (n, x) =>
      onSwitch (fun w => { w with shapers := tset w.shapers n (shaperPays q.port (countedLength q.port q.msg s) x) }) s
  let s := onSwitch (fun w =>
    { w with
      times := tset w.times (4 * q.port + cls) { v := tag, run := run }
      fPrev := tset w.fPrev key tag
      queues := if rest.isEmpty then tdel w.queues key else tset w.queues key rest }) s
  let vc := q.msg.vc.toNat
  let s := onPort q.port (fun x => { x with txCredits := lset x.txCredits vc (x.txCredits.getD vc 0 - creditsOf q.msg) }) s
  let s := if q.copy then s else answerLeft q.msg s
  tagHeads q.port (copyGone q s)

/-- Mirror a message that leaves a port, unless it has been copied to the session (R369). -/
def mirrorOut (q : Queued) (s : Part) : Part :=
  let c := portCfg q.port s
  if c.mirrorOut && !q.copy && c.session ∉ q.seen then mirrorTo c.session q.msg (outputOf q.port) s else s

/-! ### A port that goes down -/

/-- An endpoint's answer is flushed: its request is unanswered, and will complete with TIMEOUT and CAUSE 2 (R371). -/
def answerFlushed (m : Msg) (s : Part) : Part :=
  match (answersKey m s).bind fun k => (tget? s.links.answered k).map fun t => (k, t) with
  | some (k, t) =>
    onLinks (fun l =>
      { l with
        answered := tdel l.answered k
        tracked := if thas l.tracked k then l.tracked else tset l.tracked k { t with pathDown := true } }) s
  | none => s

/-- What becomes of a message that is flushed (R371): a request of this part's own sources learns that its port went down, and so does
the request that a flushed answer was for. -/
def flushed (q : Queued) (s : Part) : Part :=
  let s := copyGone q s
  if q.copy then s
  else if longHeader (msgClass q.msg) && q.msg.srcPart.toNat = myPart s then
    markPathDown q.msg.srcPort.toNat q.msg.tag.toNat s
  else answerFlushed q.msg s

/-- Flush every message queued for egress on a port (R371). -/
def flushPort (port : Nat) (s : Part) : Part :=
  let gone := s.sw.voq.filter (fun q => q.port = port) ++ (s.sw.queues.filter fun p => p.1 / 32 = port).flatMap (·.2)
  let s := onSwitch (fun w =>
    { w with
      voq := w.voq.filter fun q => q.port ≠ port
      queues := w.queues.filter fun p => p.1 / 32 ≠ port }) s
  gone.foldl (fun s q => flushed q (count 4 (32 * port + q.queue) 68 1 s)) s

/-- A port enters ACTIVE: its virtual times and tags are zero (R362). -/
def zeroTimes (port : Nat) (s : Part) : Part :=
  let zero : List Queued → List Queued
    | [] => []
    | q :: qs => { q with tag := some 0 } :: qs
  onSwitch (fun w =>
    { w with
      queues := w.queues.map fun p => if p.1 / 32 = port then (p.1, zero p.2) else p
      times := w.times.map fun p => if p.1 / 4 = port then (p.1, { p.2 with v := 0 }) else p
      fPrev := w.fPrev.filter fun p => p.1 / 32 ≠ port }) s

end Sys2Proof.Machine
end

