-- ==== Sys2Proof/Machine/Multicast.lean ====
section
/-!
DEFINITION. Multicast groups and members (R160, R161), the copies of a message, their replication at egress (R162, R359), and the
cell time.
-/

namespace Sys2Proof.Machine

/-! ### Multicast groups (R160, R161) -/

def groupWord (n : Nat) (s : Part) : Nat := (tget s.clv.groups n 0).toNat
def groupValid (n : Nat) (s : Part) : Bool := bitAt (groupWord n s) 29
def groupGallery (n : Nat) (s : Part) : Nat := field (groupWord n s) 28 26
def groupFirst (n : Nat) (s : Part) : Nat := field (groupWord n s) 15 0
def groupCount (n : Nat) (s : Part) : Nat := field (groupWord n s) 25 16
def memberWord (m : Nat) (s : Part) : Nat := (tget s.clv.members m 0).toNat

/-! ### Copies (R159, R161, R162) -/

/-- The copy for a member, with the port it leaves by; none in the first place for a member that is skipped or refused. -/
def resultCopy (m : Msg) (word gen : Nat) (s : Part) : Option Msg :=
  let kind := field word 22 21
  let tag := field word 39 24
  if !bitAt word 23 then none
  else if kind = 0 then
    if 255 < field word 8 0 || tget s.gals.ports (field word 8 0) 0 ≠ m.gallery.toNat then none
    else some { m with dstPart := BitVec.ofNat 12 (myPart s), dstPort := BitVec.ofNat 9 (field word 8 0), tag := BitVec.ofNat 16 tag }
  else if kind = 1 then
    some { m with dstPart := BitVec.ofNat 12 (field word 20 9), dstPort := 0x110,
                  tag := BitVec.ofNat 16 (tag % 4096 + gen % 16 * 4096) }
  else if kind = 2 then
    some { m with dstPart := BitVec.ofNat 12 (field word 20 9), dstPort := BitVec.ofNat 9 (field word 8 0),
                  tag := BitVec.ofNat 16 tag }
  else none

/-- Is a member a LOCAL_PORT of another gallery (R162)? -/
def crossesGallery (m : Msg) (word : Nat) (s : Part) : Bool :=
  bitAt word 23 && field word 22 21 = 0 &&
  (255 < field word 8 0 || tget s.gals.ports (field word 8 0) 0 ≠ m.gallery.toNat)

/-- Egress port of a copy; none where it stays in the part or cannot leave. -/
def copyPort (m : Msg) (s : Part) : Option Nat :=
  if answersTo m.dstPart.toNat s then
    if m.dstPort.toNat < 256 && galleryActive (tget s.gals.ports m.dstPort.toNat 0) s then localPort m.dstPort.toNat s else none
  else routePort 0 m s

/-- May a group be used (R160)? -/
def groupUsable (n : Nat) (s : Part) : Bool := groupValid n s && decide (n < s.mgmt.record.mcgCount)

/-- The member entries of a multicast message as they stand (R162). -/
def memberWords (x : Multicast) (s : Part) : List Nat :=
  if !groupUsable x.group s then []
  else
    let n := groupCount x.group s
    let which := match x.members with
      | some ms => ms.filter fun i => i < n
      | none => List.range n
    which.map fun i => memberWord (groupFirst x.group s + i) s

/-- Send one copy (R371): it shares the cells of the message, or stays in the part. -/
def sendCopy (n : Nat) (space : Space) (bay : Nat) (m : Msg) (s : Part) : Part :=
  let s := count 7 0 2 1 s
  if answersTo m.dstPart.toNat s && 256 ≤ m.dstPort.toNat then pushInbox m s
  else
    match copyPort m s with
    | none => cannotLeave m s
    | some p =>
      if !portUp p s || !peerTakes p m s then countDiscard p (cannotLeave m s)
      else if analysisPort p s then count 4 (32 * p) 67 1 s
      else
        let more (v : Nat × Space × Nat) : Nat × Space × Nat := (v.1 + 1, v.2)
        enqueue m p (Entry.own bay).input space false (some n) []
          (onSwitch (fun w => { w with multi := tmod w.multi n (0, space, cellsOf m) more }) s)

/-- Does a copy stay in the part, for an agent of it? -/
def copyStays (m : Msg) (s : Part) : Bool := answersTo m.dstPart.toNat s && 256 ≤ m.dstPort.toNat

/-- The port to which a copy crosses; none for one that stays in the part or cannot leave (R371). -/
def copyCrosses (m : Msg) (s : Part) : Option Nat :=
  if copyStays m s then none
  else (copyPort m s).filter fun p => portUp p s && peerTakes p m s && !analysisPort p s

/-- The copies of a multicast message under the group and member entries that stand now (R162). -/
def copiesOf (x : Multicast) (s : Part) : List Msg := (memberWords x s).filterMap fun w => resultCopy x.msg w x.gen s

/-- Copies to ports of another gallery are discarded and counted, and the first of each group is recorded (R162). -/
def countCrossing (x : Multicast) (words : List Nat) (s : Part) : Part :=
  let crossing := (words.filter fun w => crossesGallery x.msg w s).length
  if crossing = 0 then s
  else
    let s := count 7 0 67 crossing s
    if x.group ∈ s.clv.crossed then s
    else note 7 2 (some x.msg.gallery.toNat) (.other 1) [x.group] (onCollectives (fun b => { b with crossed := b.crossed ++ [x.group] }) s)

/-- The space of a multicast message with cells (R356, R359). -/
def multiSpace (n : Nat) (s : Part) : Space := ((tget? s.sw.multi n).map (·.2.1)).getD .engine

/-- A multicast message is replicated now (R162): it holds its cells itself no more. -/
def replicated (x : Multicast) (n : Nat) (go : Part → Part) (s : Part) : Part :=
  let words := memberWords x s
  let s := countCrossing x words (onSwitch (fun w => { w with mcast := w.mcast.erase x }) s)
  let s := if groupUsable x.group s then s else count 7 0 67 1 s
  dropShared n (go s)

/-- Replicate a multicast message (R162): its copies share its cells. -/
def replicateNow (x : Multicast) (n : Nat) (s : Part) : Part :=
  let copies := copiesOf x s
  let space := multiSpace n s
  replicated x n (fun s => copies.foldl (fun s c => sendCopy n space x.bay c s) s) s

/-- Replicate the multicast messages no copy of which has to cross, or a copy of which stays in the part, each bay in its order (R162);
the answer lists the others that come first in their bays, with their numbers. -/
def replicateReady : List Multicast → List Nat → Part → List (Multicast × Nat) × Part
  | [], _, s => ([], s)
  | x :: xs, held, s =>
    if x.bay ∈ held then replicateReady xs held s
    else
      match x.number with
      | none => replicateReady xs (x.bay :: held) s
      | some n =>
        let copies := copiesOf x s
        if (copies.any fun c => copyStays c s) || !(copies.any fun c => (copyCrosses c s).isSome) then
          replicateReady xs held (replicateNow x n s)
        else
          let (ws, s) := replicateReady xs (x.bay :: held) s
          ((x, n) :: ws, s)

/-- The copies of a multicast message that would cross, as they stand in their virtual output queues. -/
def crossingCopies (x : Multicast) (n : Nat) (s : Part) : List Queued :=
  (copiesOf x s).filterMap fun c => (copyCrosses c s).map fun p =>
    queuedAs c p (Entry.own x.bay).input (multiSpace n s) false (some n) [] s

/-- After a cell time in which a multicast message stood in the virtual output queues by its copies: once a cell of one has crossed, the
message has been replicated (R162); else the copies go, to be made anew under the entries of the next cell time. -/
def settleCopies (x : Multicast) (n : Nat) (copies : List Queued) (s : Part) : Part :=
  if (s.sw.voq.filter fun q => q ∈ copies).length < copies.length then
    let others := (copiesOf x s).filter fun c => (copyCrosses c s).isNone
    let space := multiSpace n s
    let more (v : Nat × Space × Nat) : Nat × Space × Nat := (v.1 + copies.length, v.2)
    replicated x n (fun s =>
      others.foldl (fun s c => sendCopy n space x.bay c s)
        (count 7 0 2 copies.length (onSwitch (fun w => { w with multi := tmod w.multi n (0, space, cellsOf x.msg) more }) s))) s
  else onSwitch (fun w => { w with voq := w.voq.filter fun q => q.shared ≠ some n }) s

/-- The cell time of the crossbar (R162, R354): a multicast message contends by its copies, ahead of the messages of its input (DESIGN
CHOICE, log 82). -/
def multicastCell (s : Part) : Part :=
  let (ws, s) := replicateReady s.sw.mcast [] s
  let trial := ws.map fun (x, n) => (x, n, crossingCopies x n s)
  let s := matchCell (onSwitch (fun w => { w with voq := trial.flatMap (·.2.2) ++ w.voq }) s)
  trial.foldl (fun s (x, n, qs) => settleCopies x n qs s) s

/-- Hand a message to the switch core to be replicated to members of a group (R162). -/
def replicate (m : Msg) (group gen : Nat) (members : Option (List Nat)) (bay : Nat) (s : Part) : Part :=
  onSwitch (fun w =>
    { w with mcast := w.mcast ++ [{ msg := m, group := group, gen := gen, members := members, bay := bay, number := none }] }) s

/-- The oldest multicast message without cells takes them, where its partition has room (R357, R359). -/
def pumpMulticast (s : Part) : Option Part :=
  match s.sw.mcast.find? fun x => x.number.isNone with
  | none => none
  | some x =>
    (admitSpace x.msg .green false 0 s).map fun sp =>
      let n := s.sw.nextMulti
      let named (y : Multicast) : Multicast := { y with number := some n }
      count 2 (x.msg.gallery.toNat + 1) (spaceIndex sp) (cellsOf x.msg) (onSwitch (fun w =>
        { w with
          mcast := modFirst (fun y => y.number.isNone) named w.mcast
          multi := tset w.multi n (1, sp, cellsOf x.msg)
          nextMulti := n + 1 }) s)

/-- CELL_TIME (R162, R354, R363, R367). -/
def cellTime (s : Part) : Part :=
  multicastCell (refillBuckets s)

end Sys2Proof.Machine
end

