-- ==== Sys2Proof/Machine/ReduceMath.lean ====
section
/-!
DEFINITION. The formats of contributions and results (R148, R149) and the arithmetic of the reduce engines (R163 to R168,
R561).
-/

namespace Sys2Proof.Machine

/-- Elements of a full chunk (R148). -/
def chunkElems (fmt : Nat) : Nat :=
  match fmt with
  | 0 | 9 => 64
  | 1 | 2 => 128
  | 3 | 4 => 224
  | 5 | 6 => 320
  | 7 => 480
  | _ => 256

/-- Is it a float format: codes 0 to 7 (R163)? -/
def isFloatFmt (fmt : Nat) : Bool := decide (fmt ≤ 7)

/-- `n` rounded up to a multiple of 4 (R148). -/
def pad4 (n : Nat) : Nat := ceilDiv n 4 * 4

/-- Bytes of the scale bytes of a chunk of `n` MX elements, padded (R149). -/
def scaleBytes (n : Nat) : Nat := pad4 (ceilDiv n 32)

/-- Data bytes of a chunk of `n` elements, padded to a multiple of 4 (R148, R149). -/
def chunkBytes (fmt n : Nat) : Nat :=
  match fmt with
  | 0 | 9 => 4 * n
  | 1 | 2 => pad4 (2 * n)
  | 8 => pad4 n
  | _ => scaleBytes n + ceilDiv n 32 * 4 * (mxFmt fmt).bits

/-- Element `i` of a chunk of `n` elements as FP32 or INT32, with the mark of a conversion out of range (R164, R168). -/
def chunkElement (fmt n : Nat) (data : List Byte) (i : Nat) : Nat × Bool :=
  match fmt with
  | 0 | 9 => (leAt data (4 * i) 4, false)
  | 1 => ((encodeF fp32 (decodeF bf16 (leAt data (2 * i) 2))).1, false)
  | 2 => ((encodeF fp32 (decodeF fp16 (leAt data (2 * i) 2))).1, false)
  | 8 => (unsign 32 (signed 8 (leAt data i 1)), false)
  | _ =>
    let w := (mxFmt fmt).bits
    let block := leAt data (scaleBytes n + i / 32 * 4 * w) (4 * w)
    mxToFp32 fmt (leAt data (i / 32) 1) (field block (i % 32 * w + w - 1) (i % 32 * w))

/-- The elements of a contribution (R149, R164, R168). -/
def chunkValues (fmt n : Nat) (data : List Byte) : List (Nat × Bool) := (List.range n).map (chunkElement fmt n data)

/-- An integer as INT32 with saturation (R168). -/
def satInt (w : Nat) (z : Int) : Nat × Bool :=
  let hi : Int := 2 ^ (w - 1) - 1
  let lo : Int := -(2 ^ (w - 1))
  if hi < z then (unsign w hi, true) else if z < lo then (unsign w lo, true) else (unsign w z, false)

/-- One element of a contribution combined into the accumulator (R165, R168): operation codes of R154. -/
def combineElement (fmt op : Nat) (a b : Nat × Bool) : Nat × Bool :=
  let (v, sat) : Nat × Bool :=
    if isFloatFmt fmt then
      if op = 1 then (minFp32 a.1 b.1, false)
      else if op = 2 then (maxFp32 a.1 b.1, false)
      else addFp32 a.1 b.1
    else
      if op = 0 then satInt 32 (signed 32 a.1 + signed 32 b.1)
      else if op = 1 then (if signed 32 b.1 < signed 32 a.1 then b.1 else a.1, false)
      else if op = 2 then (if signed 32 a.1 < signed 32 b.1 then b.1 else a.1, false)
      else if op = 4 then (a.1 &&& b.1, false)
      else if op = 5 then (a.1 ||| b.1, false)
      else (a.1 ^^^ b.1, false)
  (v, sat || a.2 || b.2)

/-- The bits of `xs`, `w` bits each, least significant first, as bytes. -/
def packBits (w : Nat) (xs : List Nat) (bytes : Nat) : List Byte :=
  leBytes bytes (xs.foldr (fun x acc => x % 2 ^ w + acc * 2 ^ w) 0)

/-- The blocks of an MX output (R166): scale bytes, element bytes, and whether a block lost range. -/
def mxBlocks (fmt : Nat) : Nat → List Nat → List Byte × List Byte × Bool
  | 0, _ => ([], [], false)
  | k + 1, xs =>
    let here := xs.take 32
    let vs := (here ++ List.replicate (32 - here.length) 0).map (decodeF fp32)
    let (scale, elems, sat) := mxBlock fmt vs
    let (ss, es, sat') := mxBlocks fmt k (xs.drop 32)
    (BitVec.ofNat 8 scale :: ss, packBits (mxFmt fmt).bits elems (4 * (mxFmt fmt).bits) ++ es, sat || sat')

/-- The data of a result chunk from its accumulator values, and whether the output rounding lost range (R166, R168, R561). -/
def encodeChunk (fmt : Nat) (xs : List Nat) : List Byte × Bool :=
  let n := xs.length
  let pad (bs : List Byte) : List Byte := sliceBytes bs 0 (chunkBytes fmt n)
  match fmt with
  | 0 => (xs.flatMap fun x => leBytes 4 (encodeF fp32 (decodeF fp32 x)).1, false)
  | 9 => (xs.flatMap (leBytes 4), false)
  | 1 =>
    let ys := xs.map fun x => encodeF bf16 (decodeF fp32 x)
    (pad (ys.flatMap fun y => leBytes 2 y.1), ys.any (·.2))
  | 2 =>
    let ys := xs.map fun x => encodeF fp16 (decodeF fp32 x)
    (pad (ys.flatMap fun y => leBytes 2 y.1), ys.any (·.2))
  | 8 =>
    let ys := xs.map fun x => satInt 8 (signed 32 x)
    (pad (ys.flatMap fun y => leBytes 1 y.1), ys.any (·.2))
  | _ =>
    let (ss, es, sat) := mxBlocks fmt (ceilDiv n 32) xs
    (sliceBytes ss 0 (scaleBytes n) ++ es, sat)

end Sys2Proof.Machine
end

