-- ==== Sys2Proof/Machine/Collectives.lean ====
section
/-!
DEFINITION. Reduction contexts (chapter 05): the descriptor, the checks of a contribution, results,
chaining, the window, timeouts and the commands.
-/

namespace Sys2Proof.Machine

/-! ### The descriptor (R154) -/

def ctxKind (d : List Nat) : Nat := descField d 0 2 0
def ctxOp (d : List Nat) : Nat := descField d 0 5 3
def ctxIn (d : List Nat) : Nat := descField d 0 9 6
def ctxOut (d : List Nat) : Nat := descField d 0 13 10
def ctxPartial (d : List Nat) : Bool := descField d 0 14 14 = 1
def ctxRepeat (d : List Nat) : Bool := descField d 0 15 15 = 1
def ctxChild (d : List Nat) : Bool := descField d 0 16 16 = 1
def ctxGallery (d : List Nat) : Nat := descField d 0 19 17
def ctxBay (d : List Nat) : Nat := descField d 0 23 20
def ctxGen (d : List Nat) : Nat := descField d 0 31 24
def ctxShards (d : List Nat) : Nat := descField d 0 44 32
def ctxChunks (d : List Nat) : Nat := descField d 1 19 0
def ctxWindow (d : List Nat) : Nat := descField d 1 35 20
def ctxLast (d : List Nat) : Nat := descField d 1 44 36
def ctxTimer (d : List Nat) : Nat := descField d 2 19 0
def ctxGroup (d : List Nat) : Nat := descField d 2 32 20
def ctxSeg (d : List Nat) : Nat := descField d 2 52 33
def ctxParentPart (d : List Nat) : Nat := descField d 3 11 0
def ctxParentCtx (d : List Nat) : Nat := descField d 3 23 12
def ctxUpShard (d : List Nat) : Nat := descField d 3 43 32
def ctxUpReplica (d : List Nat) : Nat := descField d 3 47 44

/-- Is the kind a reduction: ALL_REDUCE or REDUCE_SCATTER? -/
def ctxReduces (d : List Nat) : Bool := decide (ctxKind d ≤ 1)

/-- Elements in the vector. -/
def ctxElems (d : List Nat) : Nat := (ctxChunks d - 1) * chunkElems (ctxIn d) + ctxLast d

/-- Result chunks (R155). -/
def ctxResults (d : List Nat) : Nat := ceilDiv (ctxElems d) (chunkElems (ctxOut d))

/-- Are the reserved fields zero and every field in its range (R154, R155)? -/
def ctxFieldsOk (d : List Nat) : Bool :=
  ctxKind d ≤ 3 && ctxOp d ≤ 6 && ctxIn d ≤ 9 && ctxOut d ≤ 9 && ctxBay d ≤ 9 &&
  descField d 0 63 45 = 0 && descField d 1 63 45 = 0 && descField d 2 63 53 = 0 && descField d 3 31 24 = 0 &&
  descField d 3 63 48 = 0 && (d.drop 4).all (· = 0) &&
  1 ≤ ctxShards d && ctxShards d ≤ 4096 && 1 ≤ ctxChunks d && 1 ≤ ctxWindow d &&
  1 ≤ ctxLast d && ctxLast d ≤ chunkElems (ctxIn d) && 10 ≤ ctxTimer d && ctxTimer d ≤ 1000000

/-- Is the pair of input format and operation, and of input and output format, permitted (R155, R163)? -/
def ctxFormatsOk (d : List Nat) : Bool :=
  if ctxReduces d then
    isFloatFmt (ctxIn d) = isFloatFmt (ctxOut d) &&
    (if isFloatFmt (ctxIn d) then decide (ctxOp d ≤ 3) else ctxOp d ≠ 3)
  else ctxOp d = 0 && ctxOut d = ctxIn d

/-- Is the descriptor one that OPEN takes (R155)? A REDUCE_SCATTER with SEG_CHUNKS 0 names no segment: DEDUCED. -/
def ctxValid (d : List Nat) : Bool :=
  ctxFieldsOk d && ctxFormatsOk d && (ctxKind d ≠ 3 || ctxShards d = 1) &&
  (ctxKind d ≠ 1 || (1 ≤ ctxSeg d && ctxSeg d * chunkElems (ctxIn d) % chunkElems (ctxOut d) = 0)) &&
  !(ctxOp d = 3 && ctxChild d) && decide (ctxResults d ≤ 1048576)

/-- May a context use its group (R155)? -/
def ctxGroupOk (d : List Nat) (s : Part) : Bool :=
  (ctxChild d && ctxKind d = 1) ||
  (ctxGroup d < s.mgmt.record.mcgCount && groupValid (ctxGroup d) s && groupGallery (ctxGroup d) s = ctxGallery d &&
    (ctxKind d ≠ 1 || ceilDiv (ctxChunks d) (ctxSeg d) ≤ groupCount (ctxGroup d) s))

/-! ### Scratch and engines (R145, R146, R156, R175) -/

/-- Is a reduce engine in service? -/
def engineIn (e : Nat) (s : Part) : Bool := s.flr.reEnable.getD e true && e ∉ s.flr.quarantined

/-- Has a bay no reduce engine left (R175)? -/
def bayOut (b : Nat) (s : Part) : Bool := (List.range 8).all fun i => !engineIn (8 * b + i) s

/-- The engine that adds chunk `c` of a context that holds these bays (R145): within one bay by c, under SPREAD in bay c mod 8 by ⌊c ÷ 8⌋,
or the next engine of the bay in service; none where the bay has none left. -/
def chunkEngine (bays : List Nat) (c : Nat) (s : Part) : Option Nat :=
  let (b, i) := match bays with
    | [b] => (b, c)
    | _ => (c % 8, c / 8)
  ((List.range 8).map fun k => 8 * b + (i + k) % 8).find? fun e => engineIn e s

/-- Reduction scratch of a bay that is not allocated, in KiB (R181). -/
def freeKib (b : Nat) (s : Part) : Nat :=
  s.clv.share * 1024 -
    s.clv.contexts.foldl (fun n c => (c.2.alloc.filter fun a => a.1 = b).foldl (fun k a => k + a.2) n) 0

/-- KiB that a number of window slots takes in a bay (R156). -/
def slotsKib (d : List Nat) (slots : Nat) : Nat :=
  let slot := if ctxReduces d then 4 * chunkElems (ctxIn d) + 8 * ceilDiv (ctxShards d) 64 + 16 else 16
  ceilDiv (slots * slot) 4096 * 4

/-- The bay with most free scratch; the lowest on a tie: DESIGN CHOICE (R154). -/
def roomiestBay (s : Part) : Nat :=
  (List.range 8).foldl (fun b i => if freeKib b s < freeKib i s then i else b) 0

/-- The bays that a descriptor takes and the KiB in each (R154, R156). -/
def ctxAlloc (d : List Nat) (s : Part) : List (Nat × Nat) :=
  if ctxBay d = 8 then (List.range 8).map fun b => (b, slotsKib d (ceilDiv (ctxWindow d) 8))
  else [(if ctxBay d = 9 then roomiestBay s else ctxBay d, slotsKib d (ctxWindow d))]

/-- Can every bay take its allocation (R156, R175)? -/
def allocOk (a : List (Nat × Nat)) (s : Part) : Bool := a.all fun p => p.2 ≤ freeKib p.1 s && !bayOut p.1 s

/-! ### Contexts -/

/-- A context that has just been opened, at a generation. -/
def freshContext (d : List Nat) (gen : Nat) (alloc : List (Nat × Nat)) : Context :=
  { desc := d, state := .opened, gen := gen, base := 0, absent := [], chunks := [], retired := [], done := [], units := [],
    headLimit := none, alloc := alloc }

/-- The bay whose engine adds a chunk of a context (R145). -/
def chunkBay (x : Context) (c : Nat) (s : Part) : Nat :=
  match chunkEngine (x.alloc.map (·.1)) c s with
  | some e => e / 8
  | none => (x.alloc.map (·.1)).headD 0

/-- The context of that number, if it is not FREE. -/
def ctxAt (c : Nat) (s : Part) : Option Context := tget? s.clv.contexts c

/-- Store a context. -/
def putCtx (c : Nat) (x : Context) (s : Part) : Part := onCollectives (fun b => { b with contexts := tset b.contexts c x }) s

/-- Free a context and its scratch. -/
def freeCtx (c : Nat) (s : Part) : Part := onCollectives (fun b => { b with contexts := tdel b.contexts c }) s

/-- A context event (R180). -/
def ctxEvent (kind c gen : Nat) (s : Part) : Part := pushEvent .clv (kind * 2 + c * 16 + gen * 65536) 0 s

/-- A chunk with nothing counted. -/
def Chunk.start : Chunk := { accum := [], raw := [], counted := [], complete := false, short := false, poison := false }

/-- Elements of an input chunk. -/
def elemsIn (d : List Nat) (chunk : Nat) : Nat := if chunk + 1 = ctxChunks d then ctxLast d else chunkElems (ctxIn d)

/-- Is a chunk complete (R158, R173)? -/
def chunkComplete (x : Context) (k : Chunk) : Bool :=
  let n := ctxShards x.desc
  if ctxKind x.desc = 2 then !k.counted.isEmpty || x.absent.length = n
  else if ctxKind x.desc = 3 then 0 ∈ k.counted || 0 ∈ x.absent
  else k.counted.length + (x.absent.filter fun a => a ∉ k.counted).length = n

/-- The chunk marked complete, if it is, and short of an absent shard, if one is missing (R173). -/
def closeChunk (x : Context) (k : Chunk) : Chunk :=
  if k.complete || !chunkComplete x k then k
  else { k with complete := true, short := x.absent.any fun a => a ∉ k.counted }

/-! ### Output units -/

/-- Elements of the unit that a context sends on (R157, R159): a result chunk, or a child's up-contribution. DESIGN CHOICE, log 82: the
units of a child that reduces are cut over the whole vector, so that one can lie in two chunks where E_in is no multiple of 64; it
waits until both are complete. -/
def unitElems (d : List Nat) : Nat :=
  if !ctxChild d then chunkElems (ctxOut d) else if ctxReduces d then 64 else chunkElems (ctxIn d)

/-- Elements of the unit whose completion retires chunks (R157): the result chunk, or a scatter child's contribution. -/
def retireElems (d : List Nat) : Nat := if ctxChild d && ctxKind d = 1 then 64 else chunkElems (ctxOut d)

/-- Input chunks that unit `k` of `eu` elements overlaps: first and last. -/
def unitInputs (d : List Nat) (eu k : Nat) : Nat × Nat :=
  let e := chunkElems (ctxIn d)
  (k * eu / e, (min ((k + 1) * eu) (ctxElems d) - 1) / e)

/-- Units of `eu` elements that input chunk `c` overlaps: first and last. -/
def chunkUnits (d : List Nat) (eu c : Nat) : Nat × Nat :=
  let e := chunkElems (ctxIn d)
  (c * e / eu, (min ((c + 1) * e) (ctxElems d) - 1) / eu)

/-- The numbers from `a` to `b`. -/
def fromTo (a b : Nat) : List Nat := (List.range (b + 1 - a)).map (a + ·)

/-- The chunks that a unit overlaps. -/
def inputsOf (x : Context) (eu k : Nat) : List Nat := let (a, b) := unitInputs x.desc eu k; fromTo a b

/-- Has every chunk that a unit overlaps been completed and not retired? -/
def unitReady (x : Context) (k : Nat) : Bool :=
  (inputsOf x (unitElems x.desc) k).all fun c => ((tget? x.chunks c).map (·.complete)) = some true

/-- Has a unit been sent on? A child's units are the up-contributions, which `done` does not count unless it scatters. -/
def unitSent (x : Context) (k : Nat) : Bool :=
  (k ∈ x.done && (!ctxChild x.desc || ctxKind x.desc = 1)) ||
  (ctxChild x.desc && ((tget? x.units k).map fun u => u.answered || u.tag.isSome) = some true)

/-- May a unit go up now under the parent's headroom (R151, R159)? -/
def unitPaced (x : Context) (k : Nat) : Bool :=
  !ctxChild x.desc || match x.headLimit with
    | some h => k ≤ h || thas x.units k
    | none => true

/-- The first unit to be sent on that passes a test. -/
def firstUnit (test : Nat → Bool) (x : Context) : Option Nat :=
  (x.chunks.filter fun p => p.2.complete).findSome? fun p =>
    let (a, b) := chunkUnits x.desc (unitElems x.desc) p.1
    (fromTo a b).find? fun k => !unitSent x k && test k && unitReady x k

/-- The next unit to send on. -/
def nextUnit (x : Context) : Option Nat := firstUnit (unitPaced x) x

/-- Accumulator value of element `e` of the vector: AVG divides by the shards counted in the chunk (R165). -/
def elementValue (x : Context) (e : Nat) : Nat × Bool :=
  let n := chunkElems (ctxIn x.desc)
  let k := tget x.chunks (e / n) Chunk.start
  let v := k.accum.getD (e % n) (0, false)
  if ctxOp x.desc = 3 && isFloatFmt (ctxIn x.desc) then
    ((encodeF fp32 (divNatF (decodeF fp32 v.1) (max 1 k.counted.length))).1, v.2)
  else v

/-- Element range of a unit. -/
def unitRange (x : Context) (eu k : Nat) : List Nat := fromTo (k * eu) (min ((k + 1) * eu) (ctxElems x.desc) - 1)

/-- Does a condition hold of a chunk that a unit overlaps? -/
def unitAny (x : Context) (eu k : Nat) (f : Chunk → Bool) : Bool :=
  (inputsOf x eu k).any fun c => f (tget x.chunks c Chunk.start)

/-- Status of a unit (R173, R175): POISON after a scratch error, TIMEOUT with no counted shard. -/
def unitStatus (x : Context) (eu k : Nat) : Nat :=
  if unitAny x eu k (·.poison) then stPoison
  else if unitAny x eu k (fun c => c.counted.isEmpty) then stTimeout else stOK

/-- Format of what a unit carries. -/
def unitFmt (d : List Nat) : Nat :=
  if !ctxChild d then ctxOut d else if !ctxReduces d then ctxIn d else if isFloatFmt (ctxIn d) then 0 else 9

/-- Has an input or a sum among elements lost range (R561)? A contribution copied whole carries its SAT_UP as the mark of its chunk. -/
def rangeLost (x : Context) (range : List Nat) : Bool :=
  if ctxReduces x.desc then range.any fun e => (elementValue x e).2
  else range.any fun e => (tget x.chunks (e / chunkElems (ctxIn x.desc)) Chunk.start).accum.any (·.2)

/-- Would the results of an input chunk set SAT (R561)? Output blocks do not cross chunks. -/
def chunkLost (x : Context) (c : Nat) : Bool :=
  let range := unitRange x (chunkElems (ctxIn x.desc)) c
  rangeLost x range || (ctxReduces x.desc && (encodeChunk (ctxOut x.desc) (range.map fun e => (elementValue x e).1)).2)

/-- Data of a unit, and its SAT or SAT_UP (R159, R166, R561): a child marks each up-contribution of a chunk whose own results would have
set SAT. DESIGN CHOICE, log 82: a CONTRIB has no STATUS, so that a child's unit with no counted shard, or with a poisoned accumulator,
goes up as an ordinary contribution of the error value. -/
def unitData (x : Context) (eu k : Nat) : List Byte × Bool :=
  let fmt := unitFmt x.desc
  let range := unitRange x eu k
  let up := ctxChild x.desc && (inputsOf x eu k).any (chunkLost x)
  if unitStatus x eu k ≠ stOK then (errorValue (chunkBytes fmt range.length), up || rangeLost x range)
  else if !ctxReduces x.desc then ((tget x.chunks (unitInputs x.desc eu k).1 Chunk.start).raw, up || rangeLost x range)
  else
    let (data, sat) := encodeChunk fmt (range.map fun e => (elementValue x e).1)
    (data, sat || up || rangeLost x range)

/-! ### Results (R152, R157, R158) -/

/-- Replicate a result of a context (R158): to all members of its group, or to the member of its segment. It enters the switch core from
the bay of the engine that added the last chunk of it (R145, R352). -/
def deliver (x : Context) (k : Nat) (m : Msg) (s : Part) : Part :=
  let segment := k * chunkElems (ctxOut x.desc) / (ctxSeg x.desc * chunkElems (ctxIn x.desc))
  replicate m (ctxGroup x.desc) x.gen (if ctxKind x.desc = 1 then some [segment] else none)
    (chunkBay x (unitInputs x.desc (chunkElems (ctxOut x.desc)) k).2 s) s

/-- A RESULT of this part (R152). -/
def resultMsg (x : Context) (k status : Nat) (short sat : Bool) (data : List Byte) (s : Part) : Msg :=
  sized { Msg.blank with
    op := 0x41, vc := 6, gallery := BitVec.ofNat 3 (ctxGallery x.desc), srcPart := BitVec.ofNat 12 (myPart s), srcPort := 0x110,
    status := BitVec.ofNat 4 status, data := data,
    aux := BitVec.ofNat 24 (k + bitOf short * 2 ^ 20 + bitOf sat * 2 ^ 21 + bitOf (k + 1 = ctxResults x.desc) * 2 ^ 22) }

/-- Result chunk `k` with STATUS TIMEOUT and the error value (R152, R172): PARTIAL where a chunk that it overlaps has completed short of
an absent shard (R173), SAT where what has been added of it lost range (R561). -/
def timeoutResult (x : Context) (k : Nat) (s : Part) : Part :=
  let eu := chunkElems (ctxOut x.desc)
  let range := unitRange x eu k
  deliver x k (resultMsg x k stTimeout (unitAny x eu k (·.short)) (rangeLost x range)
    (errorValue (chunkBytes (ctxOut x.desc) range.length)) s) s

/-- Result chunks of a context that its members have not been sent (R172). A REDUCE_SCATTER child has none (R159). -/
def unsentResults (x : Context) : List Nat :=
  if ctxChild x.desc && ctxKind x.desc = 1 then []
  else
    let eu := chunkElems (ctxOut x.desc)
    (fromTo (x.base * chunkElems (ctxIn x.desc) / eu) (ctxResults x.desc - 1)).filter fun k => k ∉ x.done &&
      (inputsOf x eu k).any fun c => x.base ≤ c && c ∉ x.retired

/-! ### Progress -/

/-- The lowest chunk that can be retired (R157). -/
def nextRetire (x : Context) : Option Nat :=
  let eu := retireElems x.desc
  (x.chunks.find? fun p =>
    let (a, b) := chunkUnits x.desc eu p.1
    (fromTo a b).all fun k => k ∈ x.done).map (·.1)

/-- The base moved past retired chunks. -/
def moveBase : Nat → Nat → List Nat → Nat
  | 0, base, _ => base
  | n + 1, base, retired => if base ∈ retired then moveBase n (base + 1) retired else base

/-- The context with a chunk retired (R157). -/
def retireChunk (x : Context) (c : Nat) : Context :=
  let retired := c :: x.retired
  let base := moveBase retired.length x.base retired
  let eu := retireElems x.desc
  { x with
    chunks := tdel x.chunks c
    retired := retired.filter fun k => base ≤ k
    base := base
    done := x.done.filter fun k => base ≤ (unitInputs x.desc eu k).2
    units := x.units.filter fun u => base ≤ (unitInputs x.desc (unitElems x.desc) u.1).2 }

/-- With every shard absent, the next chunk of the window that completes without a contribution (R173). -/
def nextEmpty (x : Context) : Option Nat :=
  if x.absent.length < ctxShards x.desc then none
  else
    (fromTo x.base (min (ctxChunks x.desc) (x.base + ctxWindow x.desc) - 1)).find? fun c =>
      x.base ≤ c && c < ctxChunks x.desc && !thas x.chunks c && c ∉ x.retired

/-- Every chunk has retired (R170, R174): DONE, FREE from CLOSING, or OPEN at the next generation. -/
def finishCtx (c : Nat) (x : Context) (s : Part) : Part :=
  let s := ctxEvent (if x.absent.isEmpty then 1 else 2) c x.gen s
  if x.state = .closing then freeCtx c s
  else if ctxRepeat x.desc then putCtx c (freshContext x.desc ((x.gen + 1) % 256) x.alloc) s
  else putCtx c { x with state := .done } s

/-- Send a unit up to the parent (R159). -/
def sendUp (c k : Nat) (x : Context) (s : Part) : Part :=
  let d := x.desc
  let (data, sat) := unitData x (unitElems d) k
  let m : Msg := { Msg.blank with
    op := 0x40, gallery := BitVec.ofNat 3 (ctxGallery d), dstPart := BitVec.ofNat 12 (ctxParentPart d), dstPort := 0x110,
    oparg := BitVec.ofNat 64 (ctxParentCtx d + k * 2 ^ 12 + ctxUpShard d * 2 ^ 32 + ctxUpReplica d * 2 ^ 44 + x.gen * 2 ^ 48 +
      bitOf sat * 2 ^ 56), data := data }
  let (tag, s) := issueAt 0x110 (chunkBay x (unitInputs d (unitElems d) k).1 s) m s
  putCtx c { x with units := tset x.units k { tag := some tag.toNat, answered := false } } s

/-- Send a unit on: a result to the group, or up to the parent (R157, R159). -/
def sendUnit (c k : Nat) (x : Context) (s : Part) : Part :=
  if ctxChild x.desc then sendUp c k x s
  else
    let eu := unitElems x.desc
    let (data, sat) := unitData x eu k
    let short := unitAny x eu k (·.short)
    let st := unitStatus x eu k
    let s := if st = stOK then s else count 7 c 69 1 s
    let s := if short then count 7 c 70 1 s else s
    deliver x k (resultMsg x k st short sat data s) (putCtx c { x with done := k :: x.done } s)

/-- Let a context go on until it waits: units sent on, chunks retired, the end reached. -/
def advanceCtx : Nat → Nat → Part → Part
  | 0, _, s => s
  | n + 1, c, s =>
    match ctxAt c s with
    | none => s
    | some x =>
      if x.state ≠ .running && x.state ≠ .closing then s
      else if ctxChunks x.desc ≤ x.base then finishCtx c x s
      else
        match nextUnit x with
        | some k => advanceCtx n c (sendUnit c k x s)
        | none =>
          match nextRetire x with
          | some k => advanceCtx n c (putCtx c (retireChunk x k) s)
          | none =>
            match nextEmpty x with
            | some k => advanceCtx n c (putCtx c { x with chunks := tset x.chunks k (closeChunk x Chunk.start) } s)
            | none => s

/-- Steps that bound one advance of a context: each result, retirement and empty chunk once. -/
def ctxSteps (x : Context) : Nat := ctxResults x.desc + 12 * ctxChunks x.desc + 8

/-- Let a context go on. -/
def goCtx (c : Nat) (s : Part) : Part :=
  match ctxAt c s with
  | none => s
  | some x => advanceCtx (ctxSteps x) c s

/-- The context's first progress makes it RUNNING (R174). -/
def started (x : Context) : Context := if x.state = .opened then { x with state := .running } else x

/-! ### Contributions -/

/-- HEADROOM (R151). -/
def headroom (x : Context) (chunk : Nat) : Nat := min 65535 (x.base + ctxWindow x.desc - 1 - chunk)

/-- Answer a contribution OK or RETRY_LATER (R150, R151), from the bay of its chunk. -/
def answerContrib (m : Msg) (bay status outcome head : Nat) (s : Part) : Part :=
  emitAt bay (mkResponse m 0x80 0 status (outcome + head * 4) [] false) s

/-- Add the data of a contribution (R164, R165, R168, R169): the first sets the accumulator. -/
def addContrib (x : Context) (m : Msg) (chunk shard : Nat) (k : Chunk) : Chunk :=
  let d := x.desc
  let satUp := bitAt m.oparg.toNat 56
  let counted := k.counted ++ [shard]
  if !ctxReduces d then
    if k.counted.isEmpty then { k with counted := counted, raw := m.data, accum := [(0, satUp)] } else { k with counted := counted }
  else
    let vs := (chunkValues (ctxIn d) (elemsIn d chunk) m.data).map fun v => (v.1, v.2 || satUp)
    { k with
      counted := counted
      accum := if k.counted.isEmpty then vs else List.zipWith (combineElement (ctxIn d) (ctxOp d)) k.accum vs }

/-- Has the chunk taken its contribution already (R150, R158, R169)? A complete chunk of ALL_GATHER takes no other. -/
def contribDuplicate (x : Context) (chunk shard : Nat) : Bool :=
  chunk < x.base || chunk ∈ x.retired ||
  match tget? x.chunks chunk with
  | some k => shard ∈ k.counted || (!ctxReduces x.desc && k.complete)
  | none => false

/-- A contribution that reaches the reduction service (R150): in its order, so that one for a CLOSING context is LATE. One to be added
takes a turn of its engine (R390), and waits while the REDUCE class does not hold the turn's energy (R454). -/
def contribArrives (m : Msg) (s : Part) : Part :=
  let w := m.oparg.toNat
  let c := field w 11 0
  let chunk := field w 31 12
  let shard := field w 43 32
  let gen := field w 55 48
  match ctxAt c s with
  | none => refuse m stUnsupported s
  | some x =>
    let d := x.desc
    let answer := answerContrib m (chunkBay x chunk s)
    let late (s : Part) : Part := answer stOK 2 (headroom x chunk) (count 7 c 65 1 s)
    if m.gallery.toNat ≠ ctxGallery d then refuse m stGalleryFault s
    else if gen ≠ x.gen then
      if gen = (x.gen + 1) % 256 then answer stRetryLater 0 (headroom x chunk) (count 7 c 66 1 s)
      else if (gen + 1) % 256 = x.gen then late s
      else refuse m stUnsupported s
    else if ctxChunks d ≤ chunk || ctxShards d ≤ shard ||
        m.data.length ≠ chunkBytes (ctxIn d) (elemsIn d chunk) then refuse m stUnsupported s
    else if x.state ≠ .opened && x.state ≠ .running then late s
    else if x.base + ctxWindow d ≤ chunk then answer stRetryLater 0 (headroom x chunk) (count 7 c 66 1 s)
    else if shard ∈ x.absent then late s
    else if contribDuplicate x chunk shard then
      answer stOK 1 (headroom x chunk) (count 7 c 64 1 s)
    else if !canSpend 1 (contribCost (elemsIn d chunk)) s then onCollectives (fun b => { b with waiting := b.waiting ++ [m] }) s
    else
      let engine := (chunkEngine (x.alloc.map (·.1)) chunk s).getD 0
      let s := takeTurn (turnReduce engine) (ctxGallery d) (spend 1 (contribCost (elemsIn d chunk)) s)
      let s := if thas x.chunks chunk || !ctxReduces d then s else chooseCheck engine c chunk s
      let s := count 7 c (16 + field w 47 44) 1 (count 7 c 0 1 s)
      let s := answer stOK 0 (headroom x chunk) s
      let k := closeChunk x (addContrib x m chunk shard (tget x.chunks chunk Chunk.start))
      goCtx c (putCtx c (started { x with chunks := tset x.chunks chunk k }) s)

/-- The engine that a waiting contribution needs. -/
def waitEngine (m : Msg) (s : Part) : Nat :=
  match ctxAt (field m.oparg.toNat 11 0) s with
  | some x => (chunkEngine (x.alloc.map (·.1)) (field m.oparg.toNat 31 12) s).getD 0
  | none => 0

/-- The next waiting contribution: on the engine of the oldest, of the gallery to which the engine's turn falls (R390). -/
def nextContrib (s : Part) : Option Msg :=
  match s.clv.waiting with
  | [] => none
  | m :: _ =>
    let here := s.clv.waiting.filter fun n => waitEngine n s = waitEngine m s
    match nextTurn (turnReduce (waitEngine m s)) (here.map fun n => n.gallery.toNat) s with
    | some d => here.find? fun n => n.gallery.toNat = d.gallery
    | none => some m

/-- The energy of a waiting contribution. -/
def waitCost (m : Msg) (s : Part) : Nat :=
  match ctxAt (field m.oparg.toNat 11 0) s with
  | some x => contribCost (elemsIn x.desc (field m.oparg.toNat 31 12))
  | none => 0

/-- The REDUCE class holds energy again: a waiting contribution has its turn. -/
def pumpContrib (s : Part) : Option Part :=
  ((nextContrib s).filter fun m => canSpend 1 (waitCost m s) s).map fun m =>
    contribArrives m (onCollectives (fun b => { b with waiting := b.waiting.erase m }) s)

/-- A child's up-contribution is answered (R151, R157, R159): OK moves the pace and ends a scatter child's wait, and
RETRY_LATER or TIMEOUT leaves the unit to be sent again. -/
def upAnswered (tag status aux : Nat) (s : Part) : Part :=
  let mine (x : Context) : Option Nat := (x.units.find? fun u => u.2.tag = some tag).map (·.1)
  match s.clv.contexts.findSome? fun p => (mine p.2).map fun k => (p.1, p.2, k) with
  | none => s
  | some (c, x, k) =>
    let head := max (k + field aux 17 2) (x.headLimit.getD 0)
    if status = stRetryLater || status = stTimeout then
      let limit := if status = stRetryLater then some head else x.headLimit
      putCtx c { x with units := tset x.units k { tag := none, answered := false }, headLimit := limit } s
    else
      let x := { x with
        units := tset x.units k { tag := none, answered := true }
        headLimit := if status = stOK then some head else x.headLimit
        done := if status = stOK && ctxKind x.desc = 1 then k :: x.done else x.done }
      goCtx c (putCtx c x s)

/-- A child with nothing outstanding whose next unit lies past the parent's HEADROOM tries that unit (R151, R159): the parent's window
has moved, or it answers RETRY_LATER. DESIGN CHOICE, log 82. -/
def probeUp (x : Context) : Context :=
  if x.units.any fun u => u.2.tag.isSome then x
  else
    match nextUnit x, x.headLimit, firstUnit (fun _ => true) x with
    | none, some h, some k => { x with headLimit := some (max h k) }
    | _, _, _ => x

/-- Send again the up-contributions that the parent turned away; it happens at each scheduler tick (R159). -/
def resendUps (s : Part) : Part := s.clv.contexts.foldl (fun s p => goCtx p.1 (putCtx p.1 (probeUp p.2) s)) s

/-- A RESULT for this part's reduction service (R159): replicated unchanged, or discarded and counted. -/
def resultArrives (m : Msg) (s : Part) : Part :=
  let c := m.tag.toNat % 4096
  let k := m.aux.toNat % 2 ^ 20
  match ctxAt c s with
  | none => count 7 0 68 1 s
  | some x =>
    if !ctxChild x.desc || ctxKind x.desc = 1 || x.state = .done || x.state = .failed ||
        m.tag.toNat / 4096 ≠ x.gen % 16 || ctxResults x.desc ≤ k || k ∉ unsentResults x then count 7 0 68 1 s
    else
      let s := putCtx c (started { x with done := k :: x.done }) s
      -- chunks of the unit that this context never completed retire with it
      let fill (x : Context) : Context :=
        { x with chunks := (inputsOf x (chunkElems (ctxOut x.desc)) k).foldl (fun t i =>
            if x.base ≤ i && i ∉ x.retired && !thas t i then tset t i Chunk.start else t) x.chunks }
      let s := deliver x k { m with srcPart := BitVec.ofNat 12 (myPart s), srcPort := 0x110 } s
      match ctxAt c s with
      | some y => goCtx c (putCtx c (fill y) s)
      | none => s

/-! ### Timeouts (R171 to R173) -/

/-- Is the context stalled (R171)? -/
def ctxStalled (x : Context) : Bool :=
  x.chunks.any fun p => (!p.2.counted.isEmpty && !p.2.complete) || (p.2.complete && ctxChild x.desc && ctxKind x.desc ≠ 1)

/-- Fail a context (R172): every result not yet sent goes out with TIMEOUT; a CLOSING context is freed. -/
def failCtx (c : Nat) (x : Context) (s : Part) : Part :=
  let s := (unsentResults x).foldl (fun s k => timeoutResult x k (count 7 c 69 1 s)) s
  let s := ctxEvent 3 c x.gen s
  if x.state = .closing then freeCtx c s
  else putCtx c { x with state := .failed, chunks := [], units := [], done := [] } s

/-- Result chunks that wait for the parent (R173). -/
def waitingResults (x : Context) : List Nat :=
  if ctxChild x.desc then
    (unsentResults x).filter fun k =>
      (inputsOf x (chunkElems (ctxOut x.desc)) k).any fun c => ((tget? x.chunks c).map (·.complete)) = some true
  else []

/-- A timer expiry under PARTIAL (R173). -/
def partialCtx (c : Nat) (x : Context) (s : Part) : Part :=
  let waiting := waitingResults x
  let s := waiting.foldl (fun s k => timeoutResult x k (count 7 c 69 1 s)) s
  let counted := (tget x.chunks x.base Chunk.start).counted
  let absent := x.absent ++ (List.range (ctxShards x.desc)).filter fun h => h ∉ counted && h ∉ x.absent
  let y := { x with absent := absent, done := waiting ++ x.done }
  let y := { y with chunks := y.chunks.map fun p => (p.1, closeChunk y p.2) }
  goCtx c (ctxEvent 4 c x.gen (putCtx c y s))

/-- The context's timer expires (R171 to R174). -/
def expireCtx (c : Nat) (s : Part) : Part :=
  match ctxAt c s with
  | none => s
  | some x =>
    if (x.state ≠ .running && x.state ≠ .closing) || !ctxStalled x then s
    else if ctxPartial x.desc && x.state = .running then partialCtx c x s
    else failCtx c x s

/-- Every context with chunks in a bay that has lost its last engine fails (R175). -/
def failBay (b : Nat) (s : Part) : Part :=
  (s.clv.contexts.filter fun p => p.2.alloc.any fun a => a.1 = b).foldl (fun s p =>
    if p.2.state = .running || p.2.state = .opened || p.2.state = .closing then failCtx p.1 p.2 s else s) s

/-! ### Commands (R174, R178, R179) -/

/-- STATE of a context for CLV_STATUS. -/
def ctxStateCode (x : Option Context) : Nat :=
  match x with
  | none => 0
  | some x => match x.state with
    | .free => 0 | .opened => 1 | .running => 2 | .done => 3 | .failed => 4 | .closing => 5

/-- STATE, GEN, BASE and ABSENT at their places in CLV_STATUS. -/
def ctxReport (c : Nat) (s : Part) : Nat :=
  let x := ctxAt c s
  let y := x.getD (freshContext [] 0 [])
  ctxStateCode x * 2 ^ 5 + (if x.isSome then y.gen * 2 ^ 8 + y.base % 2 ^ 20 * 2 ^ 16 + y.absent.length * 2 ^ 36 else 0)

/-- End a command on CLV_CMD. -/
def clvEnd (view c result : Nat) (s : Part) : Part :=
  let v := ctxReport c s
  onCollectives (fun b => { b with seq := seqEnd view result v b.seq }) s

/-- The contributions that wait for a context's engines are answered LATE (R174). -/
def lateQueued (c : Nat) (x : Context) (s : Part) : Part :=
  let mine (m : Msg) : Bool := field m.oparg.toNat 11 0 = c
  let gone := s.clv.waiting.filter mine
  gone.foldl (fun s m =>
    let chunk := field m.oparg.toNat 31 12
    answerContrib m (chunkBay x chunk s) stOK 2 (headroom x chunk) (count 7 c 65 1 s))
    (onCollectives (fun b => { b with waiting := b.waiting.filter fun m => !mine m }) s)

/-- ABORT (R174): unsent results go out with TIMEOUT, and queued contributions are answered LATE. -/
def abortCtx (c : Nat) (s : Part) : Part :=
  match ctxAt c s with
  | none => s
  | some x =>
    let s := if x.state = .done || x.state = .failed then s else (unsentResults x).foldl (fun s k => timeoutResult x k s) s
    freeCtx c (lateQueued c x s)

/-- CLOSE of a context that is not FREE (R174). -/
def closeCtx (c : Nat) (x : Context) (s : Part) : Part :=
  if x.state = .running then putCtx c { x with state := .closing } s else freeCtx c s

/-- OPEN (R155, R156, R174): the outcome, and the state with the context open. -/
def openCtx (c : Nat) (d : List Nat) (s : Part) : Nat × Part :=
  let a := ctxAlloc d s
  if (ctxAt c s).isSome then (2, s)
  else if !ctxValid d then (3, s)
  else if !galleryActive (ctxGallery d) s then (2, s)
  else if !ctxGroupOk d s then (5, s)
  else if !allocOk a s then (4, s)
  else (0, putCtx c (freshContext d (ctxGen d) a) s)

/-- Perform a command of CLV_CMD. -/
def clvPerform (view cmd : Nat) (s : Part) : Part :=
  let op := field cmd 3 0
  let c := field cmd 15 4
  if op = 1 then
    let (r, s) := openCtx c (s.clv.descs.getD view []) s
    clvEnd view c r s
  else
    match ctxAt c s with
    | none => clvEnd view c (if op = 4 then 0 else 2) s
    | some x =>
      if op = 2 then (if x.state = .closing then clvEnd view c 2 s else clvEnd view c 0 (closeCtx c x s))
      else if op = 3 then clvEnd view c 0 (abortCtx c s)
      else if op = 4 then clvEnd view c 0 s
      else clvEnd view c 2 s

/-- A write of CLV_CMD. -/
def writeClvCmd (view cmd : Nat) (s : Part) : Part :=
  writeSeq 7 (·.clv.seq) (fun q => onCollectives fun b => { b with seq := q }) clvPerform view cmd s

/-- A register command with its operation field set to `op` in bits `[hi:0]`. -/
def withOp (hi op : Nat) (cmd : Word64) : Nat := setField cmd.toNat hi 0 op

end Sys2Proof.Machine
end

