-- ==== Sys2Proof/Machine/GatherDesc.lean ====
section
/-!
DEFINITION. The descriptors of gather and filter requests (R193, R194, R200), the terms of a predicate (R201 to R203) and
the order of scores (R204).
-/

namespace Sys2Proof.Machine

/-- Word `w` of the descriptor that a request carries. -/
def gfuWords (m : Msg) : List Nat := (List.range 8).map fun w => leAt m.data (8 * w) 8

/-! ### Gather (R193) -/

def gaMode (d : List Nat) : Nat := descField d 0 2 0
def gaIdx64 (d : List Nat) : Bool := descField d 0 3 3 = 1
def gaInline (d : List Nat) : Bool := descField d 0 4 4 = 1
def gaBagged (d : List Nat) : Bool := descField d 0 5 5 = 1
def gaToObject (d : List Nat) : Bool := descField d 0 6 6 = 1
def gaSkipBad (d : List Nat) : Bool := descField d 0 7 7 = 1
def gaRowFmt (d : List Nat) : Nat := descField d 0 11 8
def gaOutFmt (d : List Nat) : Nat := descField d 0 15 12
def gaRowBytes (d : List Nat) : Nat := descField d 0 31 16
def gaStride (d : List Nat) : Nat := descField d 0 55 32
def gaCount (d : List Nat) : Nat := descField d 1 19 0
def gaBags (d : List Nat) : Nat := descField d 1 39 20
def gaRows (d : List Nat) : Nat := descField d 2 39 0
def gaIndexAddr (d : List Nat) : Nat := descField d 3 57 0
def gaBagAddr (d : List Nat) : Nat := descField d 4 57 0
def gaDestAddr (d : List Nat) : Nat := descField d 5 57 0

/-- Bytes of an index. -/
def gaIdxBytes (d : List Nat) : Nat := if gaIdx64 d then 8 else 4

/-- Bytes of an element of a row format. -/
def elemBytes (fmt : Nat) : Nat := if fmt = 0 || fmt = 9 then 4 else if fmt = 1 || fmt = 2 then 2 else 1

/-- Elements of a row. -/
def gaElems (d : List Nat) : Nat := gaRowBytes d / elemBytes (gaRowFmt d)

/-- Bags of the request: one where no bags are given. -/
def gaBagCount (d : List Nat) : Nat := if gaBagged d then gaBags d else 1

/-- Is the pair of MODE and formats permitted (R194)? -/
def gaFormatsOk (d : List Nat) : Bool :=
  let rf := gaRowFmt d
  let out := gaOutFmt d
  rf ∈ [0, 1, 2, 8, 9, 15] &&
  (if gaMode d = 0 then out = rf
   else if rf ≤ 2 then decide (out ≤ 2)
   else (rf = 8 || rf = 9) && gaMode d ≠ 2 && (out = 8 || out = 9))

/-- Bytes of an output row (R199). -/
def gaOutRow (d : List Nat) : Nat := if gaMode d = 0 then gaRowBytes d else chunkBytes (gaOutFmt d) (gaElems d)

/-- Output rows of a whole request. -/
def gaOutRows (d : List Nat) : Nat := if gaMode d = 0 then gaCount d else gaBagCount d

/-- Is the gather descriptor valid (R193, R194)? -/
def gatherValid (m : Msg) : Bool :=
  let d := gfuWords m
  let rest := m.data.length - 64
  64 ≤ m.data.length && gaMode d ≤ 3 && gaFormatsOk d &&
  4 ≤ gaRowBytes d && gaRowBytes d ≤ 16384 && gaRowBytes d % 4 = 0 &&
  gaStride d % 4 = 0 && gaRowBytes d ≤ gaStride d &&
  descField d 0 63 56 = 0 && descField d 1 63 40 = 0 && descField d 2 63 40 = 0 && d.getD 7 0 = 0 &&
  1 ≤ gaCount d && (!gaBagged d || 1 ≤ gaBags d) && 1 ≤ gaRows d &&
  !(gaInline d && gaBagged d) &&
  (if gaInline d then rest = gaCount d * gaIdxBytes d else rest = 0) &&
  (gaInline d || gaIndexAddr d % 8 = 0) && (!gaBagged d || gaBagAddr d % 4 = 0) &&
  (!gaToObject d || gaDestAddr d % 128 = 0) && m.addr.toNat % 4 = 0

/-! ### Filter (R200) -/

def fiTerms (d : List Nat) : Nat := descField d 0 4 0
def fiInline (d : List Nat) : Bool := descField d 0 5 5 = 1
def fiTopk (d : List Nat) : Bool := descField d 0 6 6 = 1
def fiLargest (d : List Nat) : Bool := descField d 0 7 7 = 1
def fiToObject (d : List Nat) : Bool := descField d 0 8 8 = 1
def fiOut (d : List Nat) : Nat := descField d 0 10 9
def fiBytes (d : List Nat) : Nat := descField d 0 23 12
def fiK (d : List Nat) : Nat := descField d 0 34 24
def fiScoreOff (d : List Nat) : Nat := descField d 0 46 35
def fiScoreType (d : List Nat) : Nat := descField d 0 50 47
def fiCount (d : List Nat) : Nat := descField d 1 39 0
def fiProgAddr (d : List Nat) : Nat := descField d 2 57 0
def fiDestAddr (d : List Nat) : Nat := descField d 3 57 0
def fiDestLimit (d : List Nat) : Nat := descField d 4 39 0

/-- Bytes of a field type (R201). -/
def typeBytes (t : Nat) : Nat :=
  match t with
  | 0 | 4 => 1
  | 1 | 5 | 8 | 9 => 2
  | 3 | 7 => 8
  | _ => 4

/-- Does a request use a score? -/
def fiScored (d : List Nat) : Bool := fiTopk d || fiOut d = 2

/-- A field's value: an integer, or a float. -/
inductive FieldVal | int (z : Int) | flt (v : FVal)
  deriving DecidableEq, Repr

/-- The value of a pattern of a type (R201). -/
def fieldVal (t bits : Nat) : FieldVal :=
  match t with
  | 0 => .int (bits % 2 ^ 8) | 1 => .int (bits % 2 ^ 16) | 2 => .int (bits % 2 ^ 32) | 3 => .int (bits % 2 ^ 64)
  | 4 => .int (signed 8 bits) | 5 => .int (signed 16 bits) | 6 => .int (signed 32 bits) | 7 => .int (signed 64 bits)
  | 8 => .flt (decodeF fp16 bits) | 9 => .flt (decodeF bf16 bits) | _ => .flt (decodeF fp32 bits)

/-- Is the value a NaN? -/
def isNan : FieldVal → Bool
  | .flt .nan => true
  | _ => false

/-- Numeric `a < b`, with −0 equal to +0; false where either is NaN (R202). -/
def ltVal (a b : FieldVal) : Bool :=
  match a, b with
  | .int x, .int y => decide (x < y)
  | .flt (.fin n m e), .flt (.fin n' m' e') =>
    let q := min e e'
    decide (mantAt n m e q < mantAt n' m' e' q)
  | .flt x, .flt y => if x = .nan || y = .nan then false else lessF x y
  | _, _ => false

/-- Numeric equality (R202). -/
def eqVal (a b : FieldVal) : Bool := !isNan a && !isNan b && !ltVal a b && !ltVal b a

/-- Fields of a term (R201). -/
def termOff (t : Nat × Nat) : Nat := field t.1 11 0
def termType (t : Nat × Nat) : Nat := field t.1 15 12
def termOp (t : Nat × Nat) : Nat := field t.1 19 16
def termNeg (t : Nat × Nat) : Bool := bitAt t.1 20
def termGroup (t : Nat × Nat) : Nat := field t.1 24 21

/-- Does a term keep the rules of R201 and R202, for records of `n` bytes? -/
def termValid (n : Nat) (t : Nat × Nat) : Bool :=
  let size := typeBytes (termType t)
  termType t ≤ 10 && termOp t ≤ 9 && field t.1 31 25 = 0 && termOff t + size ≤ n &&
  (termOp t = 6 || field t.1 63 32 = 0) && t.2 < 2 ^ (8 * size) &&
  !(termOp t = 6 && (termType t = 3 || termType t = 7))

/-- The result of a term on a record (R202). -/
def termHolds (record : List Byte) (t : Nat × Nat) : Bool :=
  let ty := termType t
  let bits := leAt record (termOff t) (typeBytes ty)
  let f := fieldVal ty bits
  let a := fieldVal ty t.2
  let b := fieldVal ty (field t.1 63 32)
  let le (x y : FieldVal) : Bool := ltVal x y || eqVal x y
  let r : Bool :=
    match termOp t with
    | 0 => eqVal f a
    | 1 => !eqVal f a
    | 2 => ltVal f a
    | 3 => le f a
    | 4 => ltVal a f
    | 5 => le a f
    | 6 => le a f && le f b
    | 7 => (bits &&& t.2) = t.2
    | 8 => (bits &&& t.2) ≠ 0
    | _ => (bits &&& t.2) = 0
  r != termNeg t

/-- Does a record pass: some term of every group that holds a term (R203)? -/
def recordPasses (record : List Byte) (terms : List (Nat × Nat)) : Bool :=
  terms.all fun t => terms.any fun u => termGroup u = termGroup t && termHolds record u

/-- The terms in 16 bytes each. -/
def termsOf (n : Nat) (bs : List Byte) : List (Nat × Nat) :=
  (List.range n).map fun i => (leAt bs (16 * i) 8, leAt bs (16 * i + 8) 8)

/-- Is the filter descriptor valid (R200, R203)? -/
def filterValid (m : Msg) : Bool :=
  let d := gfuWords m
  let rest := m.data.length - 64
  64 ≤ m.data.length && fiTerms d ≤ 16 && (!fiInline d || fiTerms d ≤ 12) &&
  rest = (if fiInline d then 16 * fiTerms d else 0) &&
  fiOut d ≠ 3 && descField d 0 11 11 = 0 && descField d 0 63 51 = 0 && descField d 1 63 40 = 0 &&
  descField d 4 63 40 = 0 && d.getD 6 0 = 0 && d.getD 7 0 = 0 &&
  4 ≤ fiBytes d && fiBytes d ≤ 4092 && fiBytes d % 4 = 0 &&
  (!fiTopk d || (1 ≤ fiK d && fiK d ≤ 1024)) &&
  (!fiScored d || (fiScoreType d ∈ [2, 6, 8, 9, 10] && fiScoreOff d + typeBytes (fiScoreType d) ≤ fiBytes d)) &&
  1 ≤ fiCount d && (fiInline d || fiProgAddr d % 16 = 0) && (!fiToObject d || fiDestAddr d % 128 = 0) &&
  fiDestLimit d % 128 = 0 && m.addr.toNat % 4 = 0 &&
  (!fiInline d || (termsOf (fiTerms d) (m.data.drop 64)).all (termValid (fiBytes d)))

/-- Does candidate `x` stand before `y` (R204)? Scores by pattern, then the lower record. -/
def before (d : List Nat) (x y : Nat × Nat) : Bool :=
  let a := fieldVal (fiScoreType d) x.1
  let b := fieldVal (fiScoreType d) y.1
  if fiLargest d then ltVal b a || (!ltVal a b && decide (x.2 < y.2)) else ltVal a b || (!ltVal b a && decide (x.2 < y.2))

/-- A candidate put in its place. -/
def insertBest (d : List Nat) (x : Nat × Nat) : List (Nat × Nat) → List (Nat × Nat)
  | [] => [x]
  | y :: ys => if before d x y then x :: y :: ys else y :: insertBest d x ys

/-- The best K with one more candidate (R204). -/
def keepBest (d : List Nat) (x : Nat × Nat) (xs : List (Nat × Nat)) : List (Nat × Nat) := (insertBest d x xs).take (fiK d)

end Sys2Proof.Machine
end

