-- ==== Sys2Proof/Machine/Gather.lean ====
section
/-!
DEFINITION. Gather and filter requests on their units (R183 to R210): acceptance, line reads, rows and bags, records and
top-k, pieces, destination writes, the summary, cancels and stops.
-/

namespace Sys2Proof.Machine

/-- Service agent of a request's kind (R183). -/
def gfuAgent (filter : Bool) : Nat := if filter then 0x112 else 0x111

/-- Store a request. -/
def putGfu (i : Nat) (q : GfuReq) (s : Part) : Part := onGatherFilter (fun b => { b with requests := tset b.requests i q }) s

/-- Write the results to an object (R199)? -/
def gfuToObject (q : GfuReq) : Bool :=
  if q.filter then fiToObject (gfuWords q.req) else gaToObject (gfuWords q.req)

/-- Destination address of a request. -/
def gfuDest (q : GfuReq) : Nat := if q.filter then fiDestAddr (gfuWords q.req) else gaDestAddr (gfuWords q.req)

/-- Word of the descriptor that holds the epochs and handles of destination and list. -/
def gfuGrants (q : GfuReq) : Nat := (gfuWords q.req).getD (if q.filter then 5 else 6) 0

/-! ### Reads -/

/-- The bay of a unit, two gather and two filter units to a bay (R352): DESIGN CHOICE, log entry 79. -/
def gfuBay (q : GfuReq) : Nat := q.unit % 16 / 2

/-- The requester, for whom lines are read and written (R190, R199). -/
def onBehalf (q : GfuReq) : Option (BitVec 12 × BitVec 9) := some (q.req.srcPart, q.req.srcPort)

/-- Issue the read of one line as a request of the service agent for the requester (R190): NA = 1 lets a catalogue line be read. DESIGN
CHOICE, log 83: the address of a filter record that would pass 2^58 wraps (R196 checks gathers alone). -/
def gfuRead (q : GfuReq) (line epoch handle : Nat) (s : Part) : GfuReq × Part :=
  let m : Msg := { Msg.blank with
    op := 0x01, vc := vcLike .req q.req, gallery := q.req.gallery, dstPart := BitVec.ofNat 12 (line / 2 ^ 39), dstPort := 0x1FF,
    epoch := BitVec.ofNat 16 epoch, oparg := BitVec.ofNat 64 (handle % 65536 * 2 ^ 48), addr := BitVec.ofNat 58 (line * 128),
    na := true, behalf := onBehalf q }
  let (tag, s) := issueAt (gfuAgent q.filter) (gfuBay q) m s
  ({ q with reads := q.reads ++ [{ tag := tag.toNat, line := line, answer := none, taken := false }] },
    count 8 q.unit 1 1 s)

/-- Issue the reads of the lines that hold `n` bytes at an address, for a purpose. -/
def gfuReadRange (want : GfuWant) (q : GfuReq) (addr n epoch handle : Nat) (s : Part) : GfuReq × Part :=
  ((List.range ((addr + n - 1) / 128 - addr / 128 + 1)).map (addr / 128 + ·)).foldl
    (fun (p : GfuReq × Part) l => gfuRead p.1 l epoch handle p.2) ({ q with reads := [], want := want }, s)

/-- Read rows or records under the request's own grant. -/
def gfuReadData (q : GfuReq) (addr n : Nat) (s : Part) : GfuReq × Part :=
  gfuReadRange .data q addr n q.req.epoch.toNat (field q.req.oparg.toNat 63 48) s

/-- Read a line of a list or program under its grant. -/
def gfuReadList (want : GfuWant) (q : GfuReq) (addr n : Nat) (s : Part) : GfuReq × Part :=
  let w := gfuGrants q
  gfuReadRange want q addr n (field w 47 32) (field w 63 48) s

/-- Status of a read in hand. -/
def readSt (r : Fetch) : Nat := (r.answer.map (·.1)).getD stTimeout

/-- Does a status end the right to read (R192)? -/
def endsGrant (st : Nat) : Bool := st = stRevoked || st = stRecalled

/-- The status of the reads in hand: one that ends the grant, else the first that failed, else OK (R192). DESIGN CHOICE, log 83: where
lines of one row or record fail with different statuses, the first line's status counts. -/
def readStatus (q : GfuReq) : Nat :=
  match q.reads.find? fun r => endsGrant (readSt r) with
  | some r => readSt r
  | none => ((q.reads.find? fun r => readSt r ≠ stOK).map readSt).getD stOK

/-- Reads that were turned away with RETRY_LATER, which performs nothing, are issued again: DESIGN CHOICE. -/
def reissue (q : GfuReq) (s : Part) : GfuReq × Part :=
  let w := gfuGrants q
  let (epoch, handle) := if q.want = .data then (q.req.epoch.toNat, field q.req.oparg.toNat 63 48)
    else (field w 47 32, field w 63 48)
  q.reads.foldl (fun (p : GfuReq × Part) r =>
    if readSt r = stRetryLater then gfuRead p.1 r.line epoch handle p.2 else ({ p.1 with reads := p.1.reads ++ [r] }, p.2))
    ({ q with reads := [] }, s)

/-- Bytes of the lines in hand, in order. -/
def readBytesOf (q : GfuReq) : List Byte := q.reads.flatMap fun r => (r.answer.map (·.2)).getD []

/-! ### Output -/

/-- Output byte limit: the 2²² pieces of a request (R206). -/
def pieceLimit : Nat := 2 ^ 30

/-- Send a piece to the requester (R186). -/
def sendPiece (q : GfuReq) (bytes : List Byte) (bad : Bool) (s : Part) : Part :=
  let data := sliceBytes bytes 0 (pad4 bytes.length)
  emitAt (gfuBay q) (sized { Msg.blank with
    op := if q.filter then 0x53 else 0x51, vc := vcLike .dat q.req, gallery := q.req.gallery, dstPart := q.req.srcPart,
    dstPort := q.req.srcPort, srcPart := BitVec.ofNat 12 (myPart s), tag := q.req.tag,
    aux := BitVec.ofNat 24 (q.sent / 256 + bitOf bad * 2 ^ 22), data := data }) (count 8 q.unit 2 1 s)

/-- Write a line, or the bytes of a partial line, to the destination object (R199). -/
def sendDest (q : GfuReq) (bytes : List Byte) (s : Part) : GfuReq × Part :=
  let w := gfuGrants q
  let addr := gfuDest q + q.sent
  let n := bytes.length
  let m : Msg := { Msg.blank with
    op := if n = 128 then 0x03 else 0x04, vc := vcLike .req q.req, gallery := q.req.gallery,
    dstPart := BitVec.ofNat 12 (addr / 2 ^ 46), dstPort := 0x1FF, epoch := BitVec.ofNat 16 (field w 15 0),
    oparg := BitVec.ofNat 64 (field w 31 16 * 2 ^ 48), addr := BitVec.ofNat 58 addr,
    data := if n = 128 then bytes else leBytes 16 (2 ^ n - 1) ++ sliceBytes bytes 0 128, behalf := onBehalf q }
  let (tag, s) := issueAt (gfuAgent q.filter) (gfuBay q) m s
  ({ q with writes := q.writes ++ [(tag.toNat, q.sent)] }, s)

/-- Bytes of output that are sent at a time. -/
def gfuUnit (q : GfuReq) : Nat := if gfuToObject q then 128 else 256

/-- Count the entries that are now sent, or written to the destination (R187): all lines of theirs sent, answered, and none failed. -/
def settleEntries (q : GfuReq) : GfuReq :=
  let low := q.writes.foldl (fun n w => min n w.2) q.sent
  let (done, left) := q.entries.partition fun e => decide (e.2 ≤ low)
  let good := done.filter fun e => !q.failed.any fun l => e.1 < l + 128 && l < e.2
  { q with entries := left, delivered := q.delivered + good.length }

/-- Send every full piece or line of the output, and what is left when `last`. -/
def flushOut : Nat → Bool → GfuReq → Part → GfuReq × Part
  | 0, _, q, s => (q, s)
  | n + 1, last, q, s =>
    let k := gfuUnit q
    if q.out.isEmpty || (q.out.length < k && !last) then (q, s)
    else
      let now := q.out.take k
      let bytes := now.map (·.1)
      let (r, s) := if gfuToObject q then sendDest q bytes s else (q, sendPiece q bytes (now.any (·.2)) s)
      flushOut n last (settleEntries { r with out := r.out.drop k, sent := r.sent + now.length }) s

/-- Append to the output and send what is full; `bad` marks error-value bytes (R186, R198). -/
def putOut (q : GfuReq) (bytes : List Byte) (bad : Bool) (s : Part) : GfuReq × Part :=
  flushOut (bytes.length + 1) false { q with out := q.out ++ bytes.map fun b => (b, bad) } s

/-! ### Ends -/

/-- No new reads, pieces or writes of a request (R189); its destination writes are waited for. -/
def gfuEnd (q : GfuReq) (s : Part) : GfuReq × Part :=
  ({ q with phase := .finish, reads := [], out := [], entries := if gfuToObject q then q.entries else [], idxLine := none, bagLine := none },
    onGatherFilter (fun b => { b with
      loose := b.loose ++ (q.reads.filter fun r => r.answer.isNone).map fun r => (q.unit, r.tag) }) s)

/-- A request is stopped by its run limit, the bound of a drain or a failed write (R189, R199). Of two causes the first gives the status:
DESIGN CHOICE (log entry 83). -/
def gfuStop (st : Nat) (q : GfuReq) (s : Part) : GfuReq × Part := gfuEnd { q with stopped := some (q.stopped.getD st) } s

/-- A request stops at what it has read (R192, R195): the rows, bags and records before stand, so that their output goes out first. -/
def gfuHold (st : Nat) (q : GfuReq) (s : Part) : GfuReq × Part :=
  let (q, s) := flushOut 1 true q s
  gfuStop st q s

/-- A cancel of a request (R189). -/
def gfuCancelled (q : GfuReq) (s : Part) : GfuReq × Part := gfuEnd { q with cancelled := true } s

/-- Count a bad row or record (R187, R192). -/
def gfuBad (pos addr st : Nat) (q : GfuReq) (s : Part) : GfuReq × Part :=
  let lower : Bool := match q.firstBad with | some b => decide (pos < b.1) | none => true
  ({ q with bad := min 0xFFFFFFFF (q.bad + 1), firstBad := if lower then some (pos, addr, st) else q.firstBad },
    count 8 q.unit 68 1 s)

/-- The status of a request at its end (R187, R189, R192). -/
def gfuStatus (q : GfuReq) : Nat :=
  match q.stopped with
  | some st => st
  | none => if q.cancelled then stOK else (q.firstBad.map (·.2.2)).getD stOK

/-- The data of a summary (R187). -/
def summaryData (q : GfuReq) : List Byte :=
  leBytes 8 q.scanned ++ leBytes 8 q.passed ++ leBytes 8 q.delivered ++
  leBytes 8 ((q.firstBad.map (·.1)).getD (2 ^ 64 - 1)) ++ leBytes 4 q.bad ++ leBytes 4 q.nans ++
  leBytes 4 ((if gfuToObject q then 0 else ceilDiv q.sent 256) + bitOf q.cancelled * 2 ^ 23 + bitOf q.truncated * 2 ^ 24 +
    bitOf q.stopped.isSome * 2 ^ 25) ++ leBytes 4 0

/-- Send the summary and free the slot (R187); one that is not OK raises a fault notice. -/
def sendSummary (i : Nat) (q : GfuReq) (s : Part) : Part :=
  let st := gfuStatus q
  let m : Msg := sized { Msg.blank with
    op := if q.filter then 0x53 else 0x51, vc := vcLike .dat q.req, gallery := q.req.gallery, dstPart := q.req.srcPart,
    dstPort := q.req.srcPort, srcPart := BitVec.ofNat 12 (myPart s), status := BitVec.ofNat 4 st, tag := q.req.tag,
    aux := BitVec.ofNat 24 (2 ^ 23), data := summaryData q }
  let s := emitAt (gfuBay q) m (onGatherFilter (fun b => { b with requests := tdel b.requests i }) s)
  let s := if q.cancelled then count 8 q.unit 65 1 s else s
  let s := if q.truncated then count 8 q.unit 66 1 s else s
  let s := if q.stopped.isSome then count 8 q.unit 67 1 s else s
  if st = stOK then s
  else
    raiseNotice { q.req with addr := BitVec.ofNat 58 ((q.firstBad.map (·.2.1)).getD 0) } st q.req.dstPart.toNat
      q.req.dstPort.toNat 0 s

/-! ### Gather: one step (R193 to R199) -/

/-- The line of a list entry at `addr`, in hand or not. -/
def listEntry (held : Option (Nat × List Byte)) (addr n : Nat) : Option Nat :=
  match held with
  | some (l, bs) => if l = addr / 128 then some (leAt bs (addr % 128) n) else none
  | none => none

/-- Put an output entry: a row, a bag's result or a record. -/
def putRow (q : GfuReq) (bytes : List Byte) (bad : Bool) (s : Part) : GfuReq × Part :=
  let start := q.sent + q.out.length
  putOut { q with entries := q.entries ++ [(start, start + bytes.length)] } bytes bad s

/-- The index at the place in hand: inline, or from the list line in hand. -/
def gfuIndex (q : GfuReq) : Option Nat :=
  let d := gfuWords q.req
  let k := gaIdxBytes d
  if gaInline d then some (leAt q.req.data (64 + q.next * k) k)
  else listEntry q.idxLine (gaIndexAddr d + q.next * k) k

/-- The result of a bag (R197, R198). -/
def bagResult (q : GfuReq) (start stop : Nat) : List Byte × Bool :=
  let d := gfuWords q.req
  let n := gaElems d
  let bytes := chunkBytes (gaOutFmt d) n
  if start = stop then (List.replicate bytes 0, false)
  else if q.tainted || q.added = 0 then (errorValue bytes, true)
  else
    let vs := if gaMode d = 2 then q.acc.map fun v => (encodeF fp32 (divNatF (decodeF fp32 v) q.added)).1 else q.acc
    ((encodeChunk (gaOutFmt d) vs).1, false)

/-- Add a good row to its bag (R197). -/
def addRow (q : GfuReq) (bytes : List Byte) : GfuReq :=
  let d := gfuWords q.req
  let vs := chunkValues (gaRowFmt d) (gaElems d) bytes
  let op := if gaMode d = 3 then 2 else 0
  { q with
    acc := if q.added = 0 then vs.map (·.1)
      else (List.zipWith (combineElement (gaRowFmt d) op) (q.acc.map fun v => (v, false)) vs).map (·.1)
    added := q.added + 1 }

/-- A row is done: read OK with its bytes, or bad with a status (R196, R198). -/
def rowDone (q : GfuReq) (pos addr st : Nat) (bytes : List Byte) (s : Part) : GfuReq × Part :=
  let d := gfuWords q.req
  let q := { q with next := pos + 1, scanned := q.scanned + 1, reads := [], passed := if st = stOK then q.passed + 1 else q.passed }
  let (q, s) := if st = stOK then (q, s) else gfuBad pos addr st q s
  if gaMode d = 0 then
    if st = stOK then putRow q bytes false s else putRow q (errorValue (gaRowBytes d)) true s
  else if st = stOK then (addRow q bytes, s)
  else ({ q with tainted := q.tainted || !gaSkipBad d }, s)

/-- The next part of a gather: bag offsets (R195), an index (R196), a row, or the end of a bag (R197). -/
def gatherStep (q : GfuReq) (s : Part) : GfuReq × Part :=
  let d := gfuWords q.req
  match q.bagStart with
  | none =>
    if !gaBagged d then ({ q with bagStart := some 0, bagEnd := some (gaCount d) }, s)
    else
      match listEntry q.bagLine (gaBagAddr d) 4 with
      | none => gfuReadList .bag q (gaBagAddr d) 4 s
      | some v => if v = 0 then ({ q with bagStart := some 0 }, s) else gfuHold stUnsupported q s
  | some start =>
    match q.bagEnd with
    | none =>
      if q.bag + 1 = gaBags d then ({ q with bagEnd := some (gaCount d) }, s)
      else
        match listEntry q.bagLine (gaBagAddr d + 4 * (q.bag + 1)) 4 with
        | none => gfuReadList .bag q (gaBagAddr d + 4 * (q.bag + 1)) 4 s
        | some v =>
          if v < start || gaCount d < v then gfuHold stUnsupported q s else ({ q with bagEnd := some v }, s)
    | some stop =>
      if q.next = stop then
        let (q, s) := if gaMode d = 0 then (q, s)
          else let (bytes, bad) := bagResult q start stop; putRow q bytes bad s
        if q.bag + 1 = gaBagCount d then
          let (q, s) := flushOut 1 true q s
          ({ q with phase := .finish }, s)
        else ({ q with bag := q.bag + 1, bagStart := some stop, bagEnd := none, acc := [], added := 0, tainted := false }, s)
      else
        match gfuIndex q with
        | none => gfuReadList .index q (gaIndexAddr d + q.next * gaIdxBytes d) (gaIdxBytes d) s
        | some i =>
          let addr := q.req.addr.toNat + i * gaStride d
          if gaRows d ≤ i || 2 ^ 58 < addr + gaRowBytes d then rowDone q q.next (addr % 2 ^ 58) stUnsupported [] s
          else gfuReadData q addr (gaRowBytes d) s

/-- A row's lines are in: the row's bytes, or its status. -/
def gatherData (q : GfuReq) (s : Part) : GfuReq × Part :=
  let d := gfuWords q.req
  let addr := q.req.addr.toNat + (gfuIndex q).getD 0 * gaStride d
  rowDone q q.next addr (readStatus q) (sliceBytes (readBytesOf q) (addr % 128) (gaRowBytes d)) s

/-! ### Filter: one step (R200 to R206) -/

/-- The entry that a record delivers (R205). -/
def filterEntry (d : List Nat) (i : Nat) (bytes : List Byte) : List Byte :=
  if fiOut d = 0 then bytes
  else if fiOut d = 1 then leBytes 8 i
  else leBytes 8 i ++ leBytes 4 (leAt bytes (fiScoreOff d) (typeBytes (fiScoreType d))) ++ leBytes 4 0

/-- Deliver an entry within the limits of R206. -/
def deliverEntry (q : GfuReq) (entry : List Byte) (bad : Bool) (s : Part) : GfuReq × Part :=
  let used := q.sent + q.out.length
  let limit := if gfuToObject q then fiDestLimit (gfuWords q.req) else pieceLimit
  if q.truncated then (q, s)
  else if used + entry.length ≤ limit then putRow q entry bad s
  else if gfuToObject q then ({ q with truncated := true }, s)
  else let (q, s) := putOut q (entry.take (limit - used)) bad s; ({ q with truncated := true }, s)

/-- A record has been scanned: its bytes, or its status (R203, R204, R206). -/
def recordDone (q : GfuReq) (st : Nat) (bytes : List Byte) (s : Part) : GfuReq × Part :=
  let d := gfuWords q.req
  let i := q.next
  let q := { q with next := i + 1, scanned := q.scanned + 1, reads := [] }
  if st ≠ stOK then gfuBad i ((q.req.addr.toNat + i * fiBytes d) % 2 ^ 58) st q s
  else if !recordPasses bytes q.terms then (q, s)
  else
    let score := leAt bytes (fiScoreOff d) (typeBytes (fiScoreType d))
    let nan := fiScored d && isNan (fieldVal (fiScoreType d) score)
    let q := { q with passed := q.passed + 1, nans := if nan then min 0xFFFFFFFF (q.nans + 1) else q.nans }
    if fiTopk d then ({ q with topk := if nan then q.topk else keepBest d (score, i) q.topk }, s)
    else deliverEntry q (filterEntry d i bytes) false s

/-- A winner has been read again (R205). -/
def winnerDone (q : GfuReq) (st : Nat) (bytes : List Byte) (s : Part) : GfuReq × Part :=
  let d := gfuWords q.req
  let i := (q.topk.getD q.next (0, 0)).2
  let q := { q with next := q.next + 1, reads := [] }
  if st = stOK then deliverEntry q bytes false s
  else
    let (q, s) := gfuBad i ((q.req.addr.toNat + i * fiBytes d) % 2 ^ 58) st q s
    deliverEntry q (errorValue (fiBytes d)) true s

/-- The last of the output goes out, and the request waits for its writes. -/
def gfuLast (q : GfuReq) (s : Part) : GfuReq × Part :=
  let (q, s) := flushOut 1 true q s
  ({ q with phase := .finish }, s)

/-- The next part of a filter. -/
def filterStep (q : GfuReq) (s : Part) : GfuReq × Part :=
  let d := gfuWords q.req
  match q.phase with
  | .terms => gfuReadList .terms q (fiProgAddr d) (16 * fiTerms d) s
  | .scan =>
    if q.next = fiCount d then (if fiTopk d then ({ q with phase := .winners, next := 0 }, s) else gfuLast q s)
    else gfuReadData q (q.req.addr.toNat + q.next * fiBytes d) (fiBytes d) s
  | .winners =>
    match q.topk[q.next]? with
    | none => gfuLast q s
    | some (score, i) =>
      if fiOut d = 0 then gfuReadData q (q.req.addr.toNat + i * fiBytes d) (fiBytes d) s
      else
        let entry := if fiOut d = 1 then leBytes 8 i else leBytes 8 i ++ leBytes 4 score ++ leBytes 4 0
        deliverEntry { q with next := q.next + 1 } entry false s
  | .finish => (q, s)

/-- A record's lines are in. -/
def filterData (q : GfuReq) (s : Part) : GfuReq × Part :=
  let d := gfuWords q.req
  let i := if q.phase = .winners then (q.topk.getD q.next (0, 0)).2 else q.next
  let bytes := sliceBytes (readBytesOf q) ((q.req.addr.toNat + i * fiBytes d) % 128) (fiBytes d)
  if q.phase = .winners then winnerDone q (readStatus q) bytes s else recordDone q (readStatus q) bytes s

/-- A pool program is in (R203). -/
def termsIn (q : GfuReq) : GfuReq :=
  let d := gfuWords q.req
  let ts := termsOf (fiTerms d) ((readBytesOf q).drop (fiProgAddr d % 128))
  if ts.all (termValid (fiBytes d)) then { q with terms := ts, phase := .scan, reads := [] } else { q with phase := .finish, stopped := some stUnsupported, reads := [] }

/-! ### The run of a request -/

/-- Line number and bytes of the one list line in hand. -/
def listLine (q : GfuReq) : Option (Nat × List Byte) := q.reads.head?.map fun r => (r.line, (r.answer.map (·.2)).getD [])

/-- The reads in hand are all in (R192, R195, R203). -/
def takeReads (q : GfuReq) (s : Part) : GfuReq × Part :=
  let st := readStatus q
  if endsGrant st then gfuHold st q s
  else if q.reads.any fun r => readSt r = stRetryLater then reissue q s
  else
    match q.want with
    | .data => if q.filter then filterData q s else gatherData q s
    | .index => if st = stOK then ({ q with idxLine := listLine q, reads := [] }, s) else gfuHold st q s
    | .bag => if st = stOK then ({ q with bagLine := listLine q, reads := [] }, s) else gfuHold st q s
    | .terms => if st = stOK then (termsIn q, s) else gfuHold st q s

/-- Destination writes that a request may have in flight. -/
def gfuWriteWindow : Nat := 256

/-- Line reads of a unit in flight (R208). -/
def unitReads (u : Nat) (s : Part) : Nat :=
  ((s.gfu.requests.map fun p => if p.2.unit = u then (p.2.reads.filter fun r => r.answer.isNone).length else 0).sum) +
    (s.gfu.loose.filter fun l => l.1 = u).length

/-- Lines that the next reads of a request may take: those of a row or record, at least the three of a program. -/
def mostLines (q : GfuReq) : Nat := max 3 (((if q.filter then fiBytes (gfuWords q.req) else gaRowBytes (gfuWords q.req)) + 252) / 128)

/-- Can a request go on: its reads are in, its destination writes leave room, and its unit may have 1,024 reads outstanding (R208)? -/
def gfuReady (q : GfuReq) (s : Part) : Bool :=
  q.phase ≠ .finish && q.writes.length < gfuWriteWindow &&
  (if q.reads.isEmpty then unitReads q.unit s + mostLines q ≤ 1024 else q.reads.all (·.taken))

/-- One step of a request that can go on. -/
def gfuStep (q : GfuReq) (s : Part) : GfuReq × Part :=
  if !q.reads.isEmpty then takeReads q s else if q.filter then filterStep q s else gatherStep q s

/-- A turn (R207): indices of a gather, bytes of records of a filter. -/
def gfuTurn (filter : Bool) (s : Part) : Nat := if filter then field s.gfu.turn 31 16 * 1024 else field s.gfu.turn 15 0

/-- What a step used of a turn. -/
def turnUsed (q r : GfuReq) : Nat :=
  if !q.filter then r.scanned - q.scanned
  else if q.phase = .winners then (r.next - q.next) * fiBytes (gfuWords q.req)
  else (r.scanned - q.scanned) * fiBytes (gfuWords q.req)

/-- The next request of a gallery on a unit, round robin after the one that had the last turn (R207). -/
def robinNext (last : Option Nat) (keys : List Nat) : Option Nat :=
  match last with
  | none => keys.head?
  | some l => match keys.find? fun k => l < k with
    | some k => some k
    | none => keys.head?

/-- The energy of a turn of a unit for a request (R454). -/
def turnCost (q : GfuReq) (s : Part) : Nat :=
  if q.filter then filterCost (gfuTurn true s) else gatherCost (gfuTurn false s * gaElems (gfuWords q.req))

/-- Deal the unit's next turn (R207, R390), where the class holds its energy. -/
def dealUnit (u : Nat) (s : Part) : Option Part :=
  let work := s.gfu.requests.filter fun p => p.2.unit = u && gfuReady p.2 s
  let t := turnsOf (turnGfu u) s
  match nextTurn (turnGfu u) (work.map fun p => p.2.req.gallery.toNat) s with
  | none => none
  | some d =>
    let here := work.filter fun p => p.2.req.gallery.toNat = d.gallery
    match (robinNext (tget? t.last d.gallery) (here.map (·.1))).bind fun i => here.find? fun p => p.1 = i with
    | none => none
    | some (i, q) =>
      let cost := turnCost q s
      if !canSpend 3 cost s then none
      else
        let s := takeDeal (turnGfu u) d (spend 3 cost s)
        some (putTurns (turnGfu u) { turnsOf (turnGfu u) s with holder := some (i, gfuTurn (16 ≤ u) s), last := tset t.last d.gallery i } s)

/-- The turn of a unit ends, or has this much left. -/
def setHolder (u : Nat) (h : Option (Nat × Nat)) (s : Part) : Part := putTurns (turnGfu u) { turnsOf (turnGfu u) s with holder := h } s

/-- A request that is at its end sends its summary once its destination writes are answered (R187). -/
def gfuSummary (i : Nat) (s : Part) : Part :=
  match tget? s.gfu.requests i with
  | none => s
  | some q => if q.phase = .finish && q.writes.isEmpty then sendSummary i q s else s

/-- Let a unit go on, turn after turn, until the request whose turn it is waits, or no request can go on (R207). -/
def unitGo : Nat → Nat → Part → Part
  | 0, _, s => s
  | n + 1, u, s =>
    match (turnsOf (turnGfu u) s).holder with
    | none =>
      match dealUnit u s with
      | none => s
      | some t => unitGo n u t
    | some (i, left) =>
      match tget? s.gfu.requests i with
      | none => unitGo n u (setHolder u none s)
      | some q =>
        if q.unit ≠ u || q.phase = .finish then unitGo n u (setHolder u none s)
        else if !gfuReady q s then s
        else
          let (r, s) := gfuStep q s
          let used := turnUsed q r
          let s := putGfu i r (setHolder u (if left ≤ used then none else some (i, left - used)) s)
          unitGo n u (gfuSummary i s)

/-- Steps of a unit between two waits: no more than the bags, indices and winners of its requests allow. -/
def gfuSteps : Nat := 2 ^ 23

/-- A request has changed: it ends where it can, and its unit goes on. -/
def gfuGo (i : Nat) (q : GfuReq) (s : Part) : Part := unitGo gfuSteps q.unit (gfuSummary i (putGfu i q s))

/-- Is no request's turn running on a unit? -/
def unitFree (u : Nat) (s : Part) : Bool :=
  match (turnsOf (turnGfu u) s).holder with
  | none => true
  | some (i, _) => !thas s.gfu.requests i

/-- Units that can go on without a read or a write: their class holds energy again, or the request whose turn it was is gone. -/
def pumpGfu (s : Part) : Option Part :=
  s.gfu.requests.findSome? fun p =>
    if unitFree p.2.unit s && gfuReady p.2 s then (dealUnit p.2.unit s).map fun t => unitGo gfuSteps p.2.unit t else none

/-- A read or write of the services has been answered (R190, R199). -/
def gfuAnswered (agent : Nat) (tag st : Nat) (bytes : List Byte) (s : Part) : Part :=
  match s.gfu.loose.find? fun l => l.2 = tag && (16 ≤ l.1) = (agent = 0x112) with
  | some l => unitGo gfuSteps l.1 (onGatherFilter (fun b => { b with loose := b.loose.erase l }) s)
  | none =>
    match s.gfu.requests.find? fun p => gfuAgent p.2.filter = agent &&
        (p.2.writes.any (fun w => w.1 = tag) || p.2.reads.any fun r => r.tag = tag && r.answer.isNone) with
    | none => s
    | some (i, q) =>
      match q.writes.find? fun w => w.1 = tag with
      | some w =>
        let q := { q with writes := q.writes.erase w, failed := if st = stOK then q.failed else q.failed ++ [w.2] }
        let (q, s) := if st ≠ stOK && q.stopped.isNone && !q.cancelled then gfuStop st q s else (q, s)
        gfuGo i (settleEntries q) s
      | none =>
        putGfu i { q with reads := q.reads.map fun r =>
          if r.tag = tag && r.answer.isNone then { r with answer := some (st, bytes) } else r } s

/-- GFU_READ_RETURN: the unit takes a line that has been read (R190). -/
def gfuTake (unit tag : Nat) (s : Part) : Part :=
  match s.gfu.requests.find? fun p => p.2.unit = unit && p.2.reads.any fun r => r.tag = tag && r.answer.isSome && !r.taken with
  | none => s
  | some (i, q) =>
    gfuGo i { q with reads := q.reads.map fun r =>
      if r.tag = tag && r.answer.isSome then { r with taken := true } else r } s

/-- Stop a running request with a status: run limit, or the bound of a disable (R189). -/
def gfuHalt (i st : Nat) (s : Part) : Part :=
  match tget? s.gfu.requests i with
  | none => s
  | some q =>
    let (q, s) := gfuStop st q s
    gfuGo i q s

/-- GFU_RUN_LIMIT_EXPIRY for the running request with this TAG on a unit (R189). -/
def gfuRunLimit (unit tag : Nat) (s : Part) : Part :=
  match s.gfu.requests.find? fun p => p.2.unit = unit && p.2.req.tag.toNat = tag with
  | none => s
  | some (i, _) => gfuHalt i stTimeout s

/-- The requester's port has gone down: its requests stop and send nothing more (R189). -/
def gfuPortDown (port : Nat) (s : Part) : Part :=
  (s.gfu.requests.filter fun p => p.2.req.srcPart.toNat = myPart s && p.2.req.srcPort.toNat = port).foldl (fun s p =>
    count 8 p.2.unit 67 1 (onGatherFilter (fun b => { b with requests := tdel b.requests p.1 }) (gfuEnd p.2 s).2)) s

/-! ### Acceptance (R185, R210) -/

/-- Requests running on a unit. -/
def unitLoad (u : Nat) (s : Part) : Nat := (s.gfu.requests.filter fun p => p.2.unit = u).length

/-- The enabled unit of a kind with fewest active requests and a free slot (R183, R207, R210). -/
def pickUnit (filter : Bool) (s : Part) : Option Nat :=
  let us := ((List.range 16).map fun i => if filter then 16 + i else i).filter fun u =>
    s.gfu.enable.getD u true && unitLoad u s < 64
  (us.foldl (fun (b : Option (Nat × Nat)) u =>
    match b with
    | none => some (u, unitLoad u s)
    | some p => if unitLoad u s < p.2 then some (u, unitLoad u s) else some p) none).map (·.1)

/-- The running request of a source with a TAG. -/
def gfuRunning (m : Msg) (tag : Nat) (s : Part) : Option (Nat × GfuReq) :=
  s.gfu.requests.find? fun p => p.2.req.srcPart = m.srcPart && p.2.req.srcPort = m.srcPort && p.2.req.tag.toNat = tag

/-- A request as it starts on a unit. -/
def gfuStart (m : Msg) (filter : Bool) (unit limit : Nat) : GfuReq :=
  let d := gfuWords m
  let pool := filter && !fiInline d && fiTerms d ≠ 0
  { unit := unit, req := m, filter := filter, limit := limit, phase := if pool then .terms else .scan,
    terms := if filter && fiInline d then termsOf (fiTerms d) (m.data.drop 64) else [], next := 0, bag := 0, bagStart := none,
    bagEnd := none, idxLine := none, bagLine := none, reads := [], want := .data, writes := [], failed := [], entries := [], acc := [], added := 0,
    tainted := false, out := [], sent := 0, scanned := 0, passed := 0, delivered := 0, firstBad := none, bad := 0, nans := 0,
    topk := [], cancelled := false, stopped := none, truncated := false }

/-- Accept, refuse or cancel (R185). -/
def gfuArrives (m : Msg) (s : Part) : Part :=
  let filter := m.op.toNat = 0x52
  let cancel := bitAt m.oparg.toNat 0
  let target := gfuRunning m (field m.oparg.toNat 31 16) s
  let d := gfuWords m
  let ok (unit : Nat) (s : Part) : Part := emitAt (unit % 16 / 2) (mkResponse m 0x80 0 stOK (unit % 16) [] false) s
  let no (st : Nat) (s : Part) : Part := refuse m st (count 8 (if filter then 16 else 0) 64 1 s)
  if m.dstPort.toNat ≠ gfuAgent filter then no stUnsupported s
  else if cancel && target.isNone then no stUnsupported s
  else if (gfuRunning m m.tag.toNat s).isSome then no stUnsupported s
  else if cancel then
    match target with
    | some (i, q) =>
      if !m.data.isEmpty then no stUnsupported s
      else
        let (r, s) := gfuCancelled q (ok q.unit s)
        gfuGo i r s
    | none => s
  else if !(if filter then filterValid m else gatherValid m) then no stUnsupported s
  else if !filter && !gaToObject d && 2 ^ 30 < gaOutRows d * gaOutRow d then no stUnsupported s
  else
    match pickUnit filter s with
    | none => no stRetryLater s
    | some u =>
      let i := (firstFree (fun k => thas s.gfu.requests k) 2049).getD 0
      let s := count 8 u 0 1 (ok u s)
      gfuGo i (gfuStart m filter u s.gfu.runLimit) s

end Sys2Proof.Machine
end

