-- ==== Sys2Proof/Machine/Jobs.lean ====
section
/-!
DEFINITION. Fold-table slots (R251 to R254, R268 to R270) and the fold and unfold service (R256 to R258, R271, R272).
-/

namespace Sys2Proof.Machine

/-- The agent number of the fold and unfold service (R256). -/
def agFold : Nat := 0x114

/-! ### Slots -/

/-- A slot. -/
def foldSlot (n : Nat) (s : Part) : FoldSlot := tget s.cmp.slots n FoldSlot.blank

/-- Write a slot. -/
def putFoldSlot (n : Nat) (x : FoldSlot) (s : Part) : Part :=
  onCompression (fun b => { b with slots := if x = FoldSlot.blank then tdel b.slots n else tset b.slots n x }) s

/-- A command of CMP_FOLD_SLOT_CMD ends for its view (R269). -/
def slotEnd (view result : Nat) (s : Part) : Part :=
  onCompression (fun b => { b with slotSeq := seqEnd view result 0 b.slotSeq, slotRun := none }) s

/-- The slot without a generation; the remaining table is NEW (R251, R253). -/
def dropTable (gen : Nat) (x : FoldSlot) : FoldSlot :=
  let keep (t : Option FoldTable) : Option FoldTable := t.filter fun t => t.gen ≠ gen
  match keep x.new with
  | some t => { x with new := some t, old := keep x.old }
  | none => { x with new := keep x.old, old := none }

/-- The slot with one more table, which becomes NEW (R253). -/
def addTable (t : FoldTable) (x : FoldSlot) : FoldSlot := { x with old := x.new, new := some t }

/-- The generation whose last reference a LOAD or DROP needs, if any (R253). -/
def awaitedGen (load : Bool) (gen : Nat) (x : FoldSlot) : Option Nat :=
  if load then x.old.map (·.gen) else some gen

/-- The wait is over: the awaited table goes; a DROP is done, a LOAD reads its image (R253, R268). -/
def slotProceed (r : SlotRun) (s : Part) : Part :=
  let x := foldSlot r.slot s
  let x := match awaitedGen r.load r.gen x with
    | some g => dropTable g x
    | none => x
  let s := putFoldSlot r.slot x s
  if !r.load then slotEnd r.view 0 s
  else
    if r.addr % 64 ≠ 0 then slotEnd r.view 3 s
    else
      let (f, s) := fetchLine agFold (foldBay r.slot) x.gallery (field r.arg 15 0) (field r.arg 31 16) (r.addr / 128) s
      onCompression (fun b => { b with slotRun := some { r with waiting := false, read := some f } }) s

/-- Does the slot hold a generation? -/
def holdsGen (gen : Nat) (x : FoldSlot) : Bool := (x.old.toList ++ x.new.toList).any fun t => t.gen = gen

/-- Perform LOAD or DROP (R253); a LOAD creates a table, so that its gallery must be ACTIVE (R384). -/
def slotPerform (view cmd : Nat) (s : Part) : Part :=
  let op := field cmd 1 0
  let n := field cmd 5 2
  let gen := field cmd 13 6
  let x := foldSlot n s
  let load := op = 1
  if op = 0 || op = 3 || holdsGen gen x = load || (load && !galleryActive x.gallery s) then slotEnd view 2 s
  else
    let r : SlotRun := { view := view, addr := s.cmp.tblAddr.getD view 0 % 2 ^ 58, arg := s.cmp.tblArg.getD view 0, load := load, slot := n, gen := gen, waiting := true, read := none }
    let free : Bool := match awaitedGen load gen x with
      | some g => tableRefs n g s = 0
      | none => true
    if free then slotProceed r s else onCompression (fun b => { b with slotRun := some r }) s

/-- A write of CMP_FOLD_SLOT_CMD (R269). -/
def writeSlotCmd (view cmd : Nat) (s : Part) : Part :=
  writeSeq 10 (·.cmp.slotSeq) (fun q => onCompression fun b => { b with slotSeq := q }) slotPerform view cmd s

/-- Commands of the sequence that wait go on once the running one has ended (R527). -/
def runSlots (s : Part) : Part :=
  runSeq (·.cmp.slotSeq) (fun q => onCompression fun b => { b with slotSeq := q }) slotPerform 8 s

/-- FOLD_SLOT_WAIT_END (R253): the awaited table has lost its last reference. -/
def slotWaitEnds (s : Part) : Part :=
  match s.cmp.slotRun with
  | some r =>
    if !r.waiting then s
    else
      match awaitedGen r.load r.gen (foldSlot r.slot s) with
      | some g => if tableRefs r.slot g s = 0 then runSlots (slotProceed r s) else s
      | none => runSlots (slotProceed r s)
  | none => s

/-- FOLD_SLOT_WAIT_TIMEOUT (R253): refused with SLOT_BUSY, both tables stay. -/
def slotWaitExpires (s : Part) : Part :=
  match s.cmp.slotRun with
  | some r => if r.waiting then runSlots (slotEnd r.view 4 s) else s
  | none => s

/-- The table image has been read, or could not be (R250, R253). -/
def slotAnswered (r : SlotRun) (f : Fetch) (st : Nat) (bytes : List Byte) (s : Part) : Part :=
  let x := foldSlot r.slot s
  if st = stRetryLater then
    let (f, s) := fetchLine agFold (foldBay r.slot) x.gallery (field r.arg 15 0) (field r.arg 31 16) f.line s
    onCompression (fun b => { b with slotRun := some { r with read := some f } }) s
  else if st ≠ stOK then runSlots (slotEnd r.view 5 s)
  else
    let image := sliceBytes bytes (r.addr % 128) 64
    if !imageValid image then runSlots (slotEnd r.view 3 s)
    else runSlots (slotEnd r.view 0 (putFoldSlot r.slot (addTable (tableOfImage r.gen image) x) s))

/-! ### Jobs -/

/-- A job. -/
def jobAt (i : Nat) (s : Part) : Option FoldJob := tget? s.cmp.jobs i

/-- Write a job. -/
def putJob (i : Nat) (x : FoldJob) (s : Part) : Part := onCompression (fun b => { b with jobs := tset b.jobs i x }) s

/-- Fields of a job's descriptor (R256). -/
def jdFold (d : List Nat) : Bool := d.getD 0 0 % 4 = 1
def jdKind (d : List Nat) : Nat := field (d.getD 0 0) 3 2
def jdSlot (d : List Nat) : Nat := field (d.getD 0 0) 7 4
def jdGen (d : List Nat) : Nat := field (d.getD 0 0) 15 8
def jdGallery (d : List Nat) : Nat := field (d.getD 0 0) 18 16
def jdHist (d : List Nat) : Bool := jdFold d && bitAt (d.getD 0 0) 19
def jdNoOutput (d : List Nat) : Bool := jdFold d && bitAt (d.getD 0 0) 20
def jdValues (d : List Nat) : Nat := d.getD 0 0 / 2 ^ 24
def jdSrc (d : List Nat) : Nat := d.getD 1 0
def jdDest (d : List Nat) : Nat := d.getD 2 0
def jdLimit (d : List Nat) : Nat := d.getD 3 0
def jdSrcEpoch (d : List Nat) : Nat := field (d.getD 4 0) 15 0
def jdSrcHandle (d : List Nat) : Nat := field (d.getD 4 0) 31 16
def jdDestEpoch (d : List Nat) : Nat := field (d.getD 4 0) 47 32
def jdDestHandle (d : List Nat) : Nat := field (d.getD 4 0) 63 48
def jdHistAddr (d : List Nat) : Nat := d.getD 5 0

/-- Does a descriptor keep its reserved fields zero and its fields in range (R256, R257)? Fields that the job does not use are
not checked: DESIGN CHOICE. -/
def jobDescOk (d : List Nat) : Bool :=
  let op := d.getD 0 0 % 4
  (op = 1 || op = 2) && field (d.getD 0 0) 23 22 = 0 && jdValues d ≠ 0 && jdSrc d < 2 ^ 58 && jdDest d < 2 ^ 58 &&
  jdLimit d < 2 ^ 40 && jdHistAddr d < 2 ^ 58 &&
  (if op = 1 then jdKind d ≠ 3 && jdSrc d % foldSize (jdKind d) = 0 else jdSrc d % 128 = 0) &&
  (jdNoOutput d || jdDest d % 128 = 0) && (!jdHist d || jdHistAddr d % 8 = 0) && (!jdNoOutput d || jdHist d)

/-- The number of a job state (R271). -/
def jobStateNum : JobState → Nat
  | .free => 0 | .running => 1 | .done => 2 | .failed => 3 | .aborted => 4

/-- The status fields that QUERY fills, at their places (R271). -/
def jobFields (x : Option FoldJob) : Nat :=
  match x with
  | none => 0
  | some x => jobStateNum x.state * 2 ^ 4 + x.status * 2 ^ 7 + x.written % 2 ^ 40 * 2 ^ 11

/-- A command of CMP_JOB_CMD ends for its view, with the fields of the job that it named (R271; log entry 74). -/
def jobEnd (view i result : Nat) (s : Part) : Part :=
  onCompression (fun b => { b with jobSeq := seqEnd view result (jobFields (tget? b.jobs i)) b.jobSeq }) s

/-- The bay of a job's folder or unfolder (R257). -/
def jobBay (x : FoldJob) : Nat :=
  match x.reader with
  | some r => unfoldBay r.unit
  | none => foldBay x.unit

/-- The folder for one more FOLD: the one with fewest running jobs, the lowest on a tie. DESIGN CHOICE (log entry 84). -/
def freeFolder (s : Part) : Nat :=
  let load (u : Nat) : Nat := (s.cmp.jobs.filter fun p => p.2.state = .running && jdFold p.2.desc && p.2.unit = u).length
  ((List.range 16).foldl (fun (b : Nat × Nat) u => if load u < b.2 then (u, load u) else b) (0, load 0)).1

/-- A job leaves RUNNING (R258). -/
def jobStops (i : Nat) (st : JobState) (status : Nat) (x : FoldJob) (s : Part) : Part :=
  putJob i { x with state := st, status := status, turn := .idle, reads := [], writes := [], reader := none, bytes := [], out := [], hist := [],
                    first := [] } s

/-- A job ends FAILED with a status, and JOB_FAILED is queued (R258, R272). -/
def jobFails (i status : Nat) (x : FoldJob) (s : Part) : Part :=
  pushEvent .cmp (2 * 2 + i * 16 + status * 1024) 0 (jobStops i .failed status x s)

/-- A job ends DONE, and JOB_DONE is queued (R258, R272). -/
def jobDone (i : Nat) (x : FoldJob) (s : Part) : Part :=
  pushEvent .cmp (1 * 2 + i * 16) 0 (jobStops i .done 0 x s)

/-- Issue an ordered write of the bytes of one line: WR_LINE for a whole line, WR_MASKED for part of one (R257). `n` of its
bytes count as output. -/
def jobWrite (i addr n : Nat) (bytes : List Byte) (x : FoldJob) (s : Part) : Part :=
  let line := addr / 128
  let off := addr % 128
  let whole := off = 0 && bytes.length = 128
  let masked := leBytes 16 ((2 ^ bytes.length - 1) * 2 ^ off) ++ sliceBytes (List.replicate off 0 ++ bytes) 0 128
  let m : Msg := { Msg.blank with
    op := if whole then 0x03 else 0x04, gallery := BitVec.ofNat 3 (jdGallery x.desc), dstPart := BitVec.ofNat 12 (line / 2 ^ 39),
    dstPort := 0x1FF, epoch := BitVec.ofNat 16 (jdDestEpoch x.desc), addr := BitVec.ofNat 58 (line * 128), na := true,
    oparg := BitVec.ofNat 64 (jdDestHandle x.desc * 2 ^ 48), data := if whole then bytes else masked }
  let (tag, s) := issueAt agFold (jobBay x) m s
  putJob i { x with writes := [tag.toNat + n * 65536] } s

/-- Write output at a byte of the destination, or stop where it would pass DEST_LIMIT (R258). -/
def jobOutput (i at_ : Nat) (bytes : List Byte) (x : FoldJob) (s : Part) : Part :=
  if jdLimit x.desc < at_ + bytes.length then jobFails i stUnsupported x s
  else jobWrite i (jdDest x.desc + at_) bytes.length bytes { x with budget := x.budget - 1 } s

/-- Count exponents, saturating at 32 bits (R257). -/
def histAdd (kind : Nat) (vs : List Nat) (h : List Nat) : List Nat :=
  vs.foldl (fun h v => lset h (foldExp kind v) (min 0xFFFFFFFF (h.getD (foldExp kind v) 0 + 1))) h

/-- A block of source values has been read: in a turn of its folder (R390) it is encoded behind the output in hand (R245, R246, R257). -/
def foldBlockRead (i : Nat) (bs : List Byte) (x : FoldJob) (s : Part) : Part :=
  let kind := jdKind x.desc
  let w := foldSize kind
  let n := min 2048 (jdValues x.desc - x.taken)
  let vs := (List.range n).map fun k => leAt bs (k * w) w
  match slotTable (jdSlot x.desc) (jdGen x.desc) s with
  | none => jobFails i stUnsupported x s
  | some t =>
    let x := { x with
      turn := .idle, reads := [], taken := x.taken + n, blocks := x.blocks + 1,
      hist := if jdHist x.desc then histAdd kind vs x.hist else x.hist }
    if jdNoOutput x.desc then putJob i x s
    else
      let block := encodeBlock t (jdSlot x.desc) vs
      let escaped := (vs.filter fun v => t.syms.all fun p => p.1 ≠ foldExp kind v).length
      let s := count 10 0 2 escaped (count 10 0 3 (n * w) s)
      putJob i { x with out := x.out ++ block } s

/-- A step of a FOLD's values: a line of output, or the next block's reads (R257). The first line waits for the header. -/
def foldValues (i : Nat) (x : FoldJob) (s : Part) : Part :=
  let d := x.desc
  if x.first.length < 96 && !x.out.isEmpty then
    let k := 96 - x.first.length
    putJob i { x with first := x.first ++ x.out.take k, out := x.out.drop k } s
  else if 128 ≤ x.out.length then
    let at_ := x.at_
    jobOutput i at_ (x.out.take 128) { x with out := x.out.drop 128, at_ := at_ + 128 } s
  else if x.taken < jdValues d then
    let w := foldSize (jdKind d)
    let n := min 2048 (jdValues d - x.taken)
    let (fs, s) := fetchRange agFold (jobBay x) (jdGallery d) (jdSrcEpoch d) (jdSrcHandle d) (jdSrc d + x.taken * w) (n * w) s
    putJob i { x with reads := fs } s
  else putJob i { x with phase := .tail } s

/-- A step of an UNFOLD's values (R257, R258). -/
def unfoldValues (i : Nat) (x : FoldJob) (s : Part) : Part :=
  match x.reader with
  | none => jobFails i stUnsupported x s
  | some r =>
    if 128 ≤ x.out.length then
      jobOutput i x.at_ (x.out.take 128) { x with out := x.out.drop 128, at_ := x.at_ + 128 } s
    else if r.head && (r.version ≠ 1 || r.kind = 3) then jobFails i stUnsupported x s
    else
      let left := jdValues x.desc - x.taken
      if left = 0 then putJob i { x with phase := .tail } s
      else if !r.buf.isEmpty then
        let (vs, r) := readerTake (min 2048 left) r
        if vs.any (fun v => v.2 ≠ 0) then jobFails i stUnsupported x s
        else
          let w := foldSize r.kind
          putJob i { x with
            reader := some r, taken := x.taken + vs.length, out := x.out ++ vs.flatMap fun v => leBytes w v.1 } s
      else
        match r.broken with
        | some st => jobFails i st x s
        | none =>
          match readerStep agFold 1 r s with
          | none => if r.turn = .waiting then putJob i x s else jobFails i stUnsupported x s
          | some (r, s) => putJob i { x with reader := some r } s

/-- The pieces of the histogram, one for each line that it touches: address and bytes. -/
def histPieces (addr : Nat) (h : List Nat) : List (Nat × List Byte) :=
  let bs := h.flatMap (leBytes 4)
  (List.range (ceilDiv (addr % 128 + 1024) 128)).map fun k =>
    let first := if k = 0 then 0 else 128 * k - addr % 128
    let last := min 1024 (128 * (k + 1) - addr % 128)
    (addr + first, (bs.drop first).take (last - first))

/-- A step of a job that has nothing outstanding (R257). In the histogram phase `at_` counts the pieces written. -/
def jobMoves (i : Nat) (x : FoldJob) (s : Part) : Part :=
  let d := x.desc
  match x.phase with
  | .values => if jdFold d then foldValues i x s else unfoldValues i x s
  | .tail =>
    let stored := x.at_ + x.out.length
    let y : FoldJob :=
      if !jdFold d then { x with phase := .wait, out := [] }
      else if jdNoOutput d then { x with phase := .histogram, out := [], at_ := 0 }
      else { x with phase := .first, out := [], at_ := stored }
    if x.out.isEmpty then putJob i y s else jobOutput i x.at_ x.out y s
  | .first =>
    let stored := if x.first.length < 96 then 32 + x.first.length else x.at_
    let line := streamHeader (jdKind d) (jdValues d) stored ++ x.first
    jobOutput i 0 line { x with phase := if jdHist d then .histogram else .wait, at_ := 0 } s
  | .histogram =>
    match (histPieces (jdHistAddr d) x.hist)[x.at_]? with
    | some (addr, bs) => jobWrite i addr 0 bs { x with at_ := x.at_ + 1, budget := x.budget - 1 } s
    | none => putJob i { x with phase := .wait } s
  | .wait => jobDone i x s

/-- The header of the stream to unfold has been read, or could not be (R257): START ends for its view, and until then the job's number
shows what it showed before. -/
def checkDone (c : JobCheck) (r : FoldReader) (s : Part) : Part :=
  let s := onCompression (fun b => { b with check := none }) s
  if r.head && r.total < jdValues c.run.desc then jobEnd c.view c.job 3 s
  else if !galleryActive (jdGallery c.run.desc) s then jobEnd c.view c.job 2 s
  else jobEnd c.view c.job 0 (putJob c.job { c.run with reader := some r } s)

/-- Let a START that reads its stream's header go on until it waits. -/
def goCheck : Nat → Part → Part
  | 0, s => s
  | n + 1, s =>
    match s.cmp.check.bind fun c => c.run.reader.map fun r => (c, r) with
    | none => s
    | some (c, r) =>
      match readerStep agFold 0 r s with
      | some (r, s) => goCheck n (onCompression (fun b => { b with check := some { c with run := { c.run with reader := some r } } }) s)
      | none => if fetchWaits r.reads then s else checkDone c r s

/-- Does a job wait for a turn of its folder or unfolder (R390)? -/
def jobAwaitsTurn (x : FoldJob) : Bool := x.turn = .waiting || x.reader.any fun r => r.turn = .waiting

/-- One step of a job; none where it waits, or where only JOB_END may let it go on. -/
def jobStep (i : Nat) (s : Part) : Option Part :=
  match jobAt i s with
  | none => none
  | some x =>
    let rd := (x.reader.map (·.reads)).getD []
    if x.state ≠ .running || !x.writes.isEmpty || fetchWaits x.reads || fetchWaits rd || jobAwaitsTurn x then none
    else if fetchDone x.reads && fetchRetry x.reads then
      let (fs, s) := fetchAgain agFold (jobBay x) (jdGallery x.desc) (jdSrcEpoch x.desc) (jdSrcHandle x.desc) x.reads s
      some (putJob i { x with reads := fs } s)
    else if !x.go && x.budget = 0 then none
    else
      let t :=
        if fetchDone x.reads then
          if fetchStatus x.reads ≠ stOK then jobFails i (fetchStatus x.reads) x s
          else if x.turn ≠ .serving then putJob i { x with turn := .waiting } s
          else
            let off := (jdSrc x.desc + x.taken * foldSize (jdKind x.desc)) % 128
            foldBlockRead i ((fetchBytes x.reads).drop off) x s
        else jobMoves i x s
      if !x.go && ((jobAt i t).map (·.state)) ≠ some .running then none else some t

/-- Steps of a job between two waits. -/
def jobSteps : Nat := 2 ^ 34

/-- Let a job go on until it waits. -/
def goJob : Nat → Nat → Part → Part
  | 0, _, s => s
  | n + 1, i, s =>
    match jobStep i s with
    | none => s
    | some s => goJob n i s

/-- ABORT or QUERY of a job, now that it stands where the command finds it (R258, R271). -/
def jobCommandEnds (i : Nat) (abort : Bool) (view : Nat) (s : Part) : Part :=
  match jobAt i s with
  | none => jobEnd view i (if abort then 2 else 0) s
  | some x =>
    let x := { x with ask := none, budget := 0, turn := .idle, reader := x.reader.map fun r => { r with turn := .idle } }
    if !abort then jobEnd view i 0 (putJob i x s)
    else if x.state ≠ .running then jobEnd view i 2 (putJob i x s)
    else jobEnd view i 0 (jobStops i .aborted 0 x s)

/-- ABORT or QUERY finds a running job with part of its work done: how many lines it has written is a free value (R258). -/
def jobCommand (i : Nat) (abort : Bool) (view : Nat) (s : Part) : Part :=
  match jobAt i s with
  | none => jobCommandEnds i abort view s
  | some x =>
    if x.state ≠ .running || x.go then jobCommandEnds i abort view s
    else
      let (n, s) := drawFree s
      goJob jobSteps i (putJob i { x with ask := some (abort, view), budget := (Config.freeWord n).toNat } s)

/-- START (R257). -/
def jobStart (view i : Nat) (s : Part) : Part :=
  let d := s.cmp.jobDescs.getD view []
  let running := ((jobAt i s).map (·.state)) = some .running
  let fold := jdFold d
  let table := (slotTable (jdSlot d) (jdGen d) s).any fun t => t.kind = jdKind d
  if running then jobEnd view i 2 s
  else if !jobDescOk d then jobEnd view i 3 s
  else if !galleryActive (jdGallery d) s then jobEnd view i 2 s
  else if fold && !(table && slotGallery (jdSlot d) s = jdGallery d) then jobEnd view i 4 s
  else
    let x : FoldJob :=
      { unit := if fold then freeFolder s else 0, turn := .idle, desc := d, state := .running, status := 0, written := 0, phase := .values, go := false,
        budget := 0, ask := none, reads := [], bytes := [], taken := 0, blocks := 0, out := [], at_ := if fold then 128 else 0,
        first := [], hist := List.replicate 256 0, writes := [],
        reader := if fold then none
          else some (FoldReader.start (freeUnfolder s) (jdSrc d) (jdGallery d) (jdSrcEpoch d) (jdSrcHandle d)) }
    if fold then jobEnd view i 0 (putJob i x s)
    else goCheck 8 (onCompression (fun b => { b with check := some { view := view, job := i, run := x } }) s)

/-- Perform a command of CMP_JOB_CMD (R271). -/
def jobPerform (view cmd : Nat) (s : Part) : Part :=
  let i := field cmd 9 4
  match field cmd 3 0 with
  | 1 => jobStart view i s
  | 2 => jobCommand i true view s
  | 3 => jobCommand i false view s
  | _ => jobEnd view i 2 s

/-- A write of CMP_JOB_CMD. -/
def writeJobCmd (view cmd : Nat) (s : Part) : Part :=
  writeSeq 10 (·.cmp.jobSeq) (fun q => onCompression fun b => { b with jobSeq := q }) jobPerform view cmd s

/-- Commands of the sequence that wait go on once the running one has ended (R527). -/
def runJobs (s : Part) : Part :=
  runSeq (·.cmp.jobSeq) (fun q => onCompression fun b => { b with jobSeq := q }) jobPerform 8 s

/-- JOB_END: a running job runs to its end (R258). -/
def jobEnds (i : Nat) (s : Part) : Part :=
  match jobAt i s with
  | none => s
  | some x => if x.state = .running then goJob jobSteps i (putJob i { x with go := true } s) else s

/-- A write of a job has been answered (R257, R258). -/
def jobWritten (i w st : Nat) (x : FoldJob) (s : Part) : Part :=
  if st ≠ stOK then jobFails i st { x with writes := [] } s
  else goJob jobSteps i (putJob i { x with writes := [], written := x.written + w / 65536 } s)

/-- A read or write of the fold and unfold service has been answered. -/
def foldAnswered (tag st : Nat) (bytes : List Byte) (s : Part) : Part :=
  match s.cmp.slotRun.bind fun r => (r.read.filter fun f => f.tag = tag).map fun f => (r, f) with
  | some (r, f) => slotAnswered r f st bytes s
  | none =>
    match (s.cmp.check.bind fun c => c.run.reader.map fun r => (c, r)).filter fun p => fetchHas tag p.2.reads with
    | some (c, r) =>
      let r := { r with reads := fetchAnswer tag st bytes r.reads }
      runJobs (goCheck 8 (onCompression (fun b => { b with check := some { c with run := { c.run with reader := some r } } }) s))
    | none =>
    let readsIt (x : FoldJob) : Bool := fetchHas tag x.reads || x.reader.any fun r => fetchHas tag r.reads
    match s.cmp.jobs.find? fun p => readsIt p.2 || p.2.writes.any fun w => w % 65536 = tag with
    | none => s
    | some (i, x) =>
      if readsIt x then
        let y := { x with
          reads := fetchAnswer tag st bytes x.reads
          reader := x.reader.map fun r => { r with reads := fetchAnswer tag st bytes r.reads } }
        runJobs (goJob jobSteps i (putJob i y s))
      else jobWritten i (x.writes.headD 0) st x s

/-- The energy of a folder's turn for a job: of the raw bytes of its next block. -/
def blockCost (x : FoldJob) : Nat := foldCost (min 2048 (jdValues x.desc - x.taken) * foldSize (jdKind x.desc))

/-- The turn of a folder that serves no job, where the class holds its energy, goes to the gallery to which it falls, of those with a block waiting for it (R390, R391); of
one gallery to its lowest job. -/
def folderTurn (u : Nat) (s : Part) : Option Part :=
  let mine (t : UnitTurn) (x : FoldJob) : Bool := x.unit = u && x.turn = t
  let ws := s.cmp.jobs.filter fun p => mine .waiting p.2
  if s.cmp.jobs.any fun p => mine .serving p.2 then none
  else
    match nextTurn (turnFold u) (ws.map fun p => jdGallery p.2.desc) s with
    | none => none
    | some d =>
      ((ws.find? fun p => jdGallery p.2.desc = d.gallery).filter fun p => canSpend (jobClass p.2.desc) (blockCost p.2) s).map fun p =>
        putJob p.1 { p.2 with turn := .serving } (takeDeal (turnFold u) d (spend (jobClass p.2.desc) (blockCost p.2) s))

/-- The first folder with a turn to give. -/
def folderTurns (s : Part) : Option Part :=
  ((s.cmp.jobs.filter fun p => p.2.turn = .waiting).map fun p => p.2.unit).findSome? fun u => folderTurn u s

/-- A job of a class that an ABORT or QUERY has found at work goes on to where the command finds it, once it has its turn. -/
def jobServed (cls : Nat) (s : Part) : Option Part :=
  s.cmp.jobs.findSome? fun p =>
    if jobClass p.2.desc = cls && p.2.ask.isSome && !p.2.go then (jobStep p.1 s).map fun t => goJob jobSteps p.1 t else none

/-- Turns of unfolders and folders are dealt once everything that can wait for one does (R390). -/
def pumpUnits (s : Part) : Option Part :=
  match unfolderTurns s with
  | some s => some s
  | none => folderTurns s

/-- The commands that wait for a job of a class to stand still are performed, and jobs that run to their end go on when their class holds energy
again; none where nothing moves. -/
def pumpJobs (cls : Nat) (s : Part) : Option Part :=
  match jobServed cls s with
  | some s => some s
  | none =>
  match s.cmp.jobs.find? fun p => jobClass p.2.desc = cls && p.2.ask.isSome && !jobAwaitsTurn p.2 with
  | some (i, x) => x.ask.map fun a => runJobs (jobCommandEnds i a.1 a.2 s)
  | none => s.cmp.jobs.findSome? fun p => if jobClass p.2.desc = cls && p.2.go then (jobStep p.1 s).map fun t => goJob jobSteps p.1 t else none

/-- A fast reset ends every job without an event, and tables keep no reference (R254, R258). -/
def resetJobs (s : Part) : Part :=
  onCompression (fun b => { b with jobs := [], check := none, jobSeq := CmdSeq.reset, slotRun := none, slotSeq := CmdSeq.reset }) s

end Sys2Proof.Machine
end

