-- ==== Sys2Proof/Machine/TileMath.lean ====
section
/-!
DEFINITION. Stream programs (R213 to R216, R220, R221), the layout and conversion of tiles (R217 to R219), and the arithmetic
of the mending engines (R259, R262, R263).
-/

namespace Sys2Proof.Machine

/-! ### Header and descriptors -/

def prDescs (h : List Nat) : Nat := descField h 0 24 16
def prGallery (h : List Nat) : Nat := descField h 0 27 25
def prRecords (h : List Nat) : Nat := descField h 0 51 28
def prGroup (h : List Nat) : Nat := descField h 1 12 0
def prSlots (h : List Nat) : Nat := descField h 1 25 13
def prSlotKib (h : List Nat) : Nat := descField h 1 34 26
def prPasses (h : List Nat) : Nat := descField h 1 50 35

/-- Is the header valid (R213)? -/
def programHeaderOk (h : List Nat) : Bool :=
  descField h 0 15 0 = 1 && 1 ≤ prDescs h && prDescs h ≤ 256 && 1 ≤ prRecords h && descField h 0 63 52 = 0 &&
  1 ≤ prSlots h && prSlots h ≤ 4096 && 1 ≤ prSlotKib h && prSlotKib h ≤ 256 && descField h 1 63 51 = 0 &&
  (h.drop 2).all (· = 0)

/-- Byte at which the records start (R213). -/
def recordsAt (h : List Nat) : Nat := 192 + 32 * ceilDiv (prDescs h) 2

def tdRows (d : List Nat) : Nat := descField d 0 8 0
def tdCols (d : List Nat) : Nat := descField d 0 17 9
def tdSrc (d : List Nat) : Nat := descField d 0 21 18
def tdOut (d : List Nat) : Nat := descField d 0 25 22
def tdOrder (d : List Nat) : Nat := descField d 0 27 26
def tdSubRows (d : List Nat) : Nat := 2 ^ descField d 0 30 28
def tdSubCols (d : List Nat) : Nat := 2 ^ descField d 0 33 31
def tdBytes (d : List Nat) : Nat := descField d 1 31 0

/-- Elements of a tile. -/
def tdElems (d : List Nat) : Nat := tdRows d * tdCols d

/-- Bytes of an element of a native format. -/
def nativeBytes (fmt : Nat) : Nat := if fmt = 0 then 4 else 2

/-- OUT_BYTES as R218 gives it. -/
def tileBytes (d : List Nat) : Nat :=
  if tdOut d ≤ 2 then tdElems d * nativeBytes (tdOut d) else chunkBytes (tdOut d) (tdElems d)

/-- Is a tile descriptor valid (R215, R216)? -/
def tileDescOk (slotKib : Nat) (d : List Nat) : Bool :=
  1 ≤ tdRows d && tdRows d ≤ 256 && 1 ≤ tdCols d && tdCols d ≤ 256 && tdSrc d ≤ 2 && tdOut d ≤ 7 && tdOrder d ≤ 2 &&
  descField d 0 63 34 = 0 && descField d 1 63 32 = 0 &&
  (tdOut d = tdSrc d || (tdSrc d = 0 && (tdOut d = 1 || tdOut d = 2)) || 3 ≤ tdOut d) &&
  (tdOrder d ≠ 2 || (tdRows d % tdSubRows d = 0 && tdCols d % tdSubCols d = 0)) &&
  (tdOut d ≤ 2 || tdElems d % 32 = 0) && tdBytes d = tileBytes d && tdBytes d ≤ slotKib * 1024

/-! ### Records (R220, R221) -/

def rcKind (r : List Nat) : Nat := descField r 0 3 0
def rcDesc (r : List Nat) : Nat := descField r 0 11 4
def rcSrc (r : List Nat) : Nat := descField r 0 15 12
def rcSource (r : List Nat) : Nat := descField r 0 17 16
def rcContinue (r : List Nat) : Bool := descField r 0 18 18 = 1
def rcResidual (r : List Nat) : Bool := descField r 0 19 19 = 1
def rcDeadline (r : List Nat) : Nat := descField r 0 43 20
def rcAddr (r : List Nat) : Nat := descField r 1 57 0
def rcLd (r : List Nat) : Nat := descField r 2 23 0
def rcRow0 (r : List Nat) : Nat := descField r 2 47 24
def rcResAddr (r : List Nat) : Nat := descField r 3 57 0
def rcNotBefore (r : List Nat) : Nat := descField r 0 43 20
def rcPages (r : List Nat) : Nat := descField r 2 31 0

/-- COL0: in word 3, or in word 2 where word 3 holds RES_ADDR (R220). -/
def rcCol0 (r : List Nat) : Nat :=
  if rcResidual r && !rcContinue r then descField r 2 63 48 else descField r 3 23 0

/-- Is a TILE record good, as far as the record and its descriptor say (R221)? A RAW tile has no stream to continue. Bits that R220 gives no
name in words 1 to 3 are not checked: DESIGN CHOICE (log entry 84). -/
def tileRecordOk (descs : Nat) (d r : List Nat) (foldOpen residualOpen : Bool) : Bool :=
  rcDesc r < descs && rcSource r ≤ 2 && descField r 0 63 44 = 0 &&
  (if rcSource r = 0 then
    !rcContinue r && tdCols d ≤ rcLd r && rcAddr r + ((tdRows d - 1) * rcLd r + tdCols d) * nativeBytes (tdSrc d) ≤ 2 ^ 58
  else if rcSource r = 1 then !rcContinue r || foldOpen
  else tdSrc d = 1 && (!rcContinue r || residualOpen))

/-! ### Layout and conversion -/

/-- Source position of each output element (R217). -/
def tileOrder (d : List Nat) : List Nat :=
  let rows := tdRows d
  let cols := tdCols d
  match tdOrder d with
  | 0 => List.range (rows * cols)
  | 1 => (List.range (rows * cols)).map fun i => i % rows * cols + i / rows
  | _ =>
    let sr := tdSubRows d
    let sc := tdSubCols d
    (List.range (rows * cols)).map fun i =>
      let block := i / (sr * sc)
      let j := i % (sr * sc)
      (block / (cols / sc) * sr + j / sc) * cols + block % (cols / sc) * sc + j % sc

/-- The value of a native pattern. -/
def nativeVal (fmt bits : Nat) : FVal :=
  decodeF (if fmt = 0 then fp32 else if fmt = 1 then bf16 else fp16) bits

/-- The bytes of a tile from its source patterns in row-major order (R217 to R219): kept as they are where OUT_FMT equals
SRC_FMT. -/
def tileData (d : List Nat) (vs : List Nat) : List Byte :=
  let ordered := (tileOrder d).map fun i => vs.getD i 0
  if tdOut d = tdSrc d then ordered.flatMap (leBytes (nativeBytes (tdOut d)))
  else if tdOut d = 1 || tdOut d = 2 then
    ordered.flatMap fun v => leBytes 2 (encodeF (if tdOut d = 1 then bf16 else fp16) (nativeVal (tdSrc d) v)).1
  else (encodeChunk (tdOut d) (ordered.map fun v => (encodeF fp32 (nativeVal (tdSrc d) v)).1)).1

/-- NaN blocks of an MX tile: those with scale byte 0xFF (R219). -/
def nanBlocks (d : List Nat) (data : List Byte) : Nat :=
  if tdOut d ≤ 2 then 0 else ((data.take (tdElems d / 32)).filter fun b => b = 0xFF).length

/-- Is a finite element clamped at scale `x` (R219)? -/
def mxClamps (code : Nat) (x : Int) (m : Nat) (e : Int) : Bool :=
  if m = 0 then false
  else
    let f := mxFmt code
    let (mx, mq) := mxMax code
    let q := min mq (e - x)
    decide (mx * 2 ^ (mq - q).toNat < m * 2 ^ (e - x - q).toNat) && decide (f.bits ≤ 8)

/-- Clamped elements of an MX tile (R219): those whose magnitude at the block's scale passes the format's largest. -/
def clampedCount (d : List Nat) (vs : List Nat) (data : List Byte) : Nat :=
  if tdOut d ≤ 2 then 0
  else
    let ordered := (tileOrder d).map fun i => nativeVal (tdSrc d) (vs.getD i 0)
    ((ordered.mapIdx fun i v =>
      let scale := leAt data (i / 32) 1
      match v with
      | .fin _ m e => scale ≠ 255 && mxClamps (tdOut d) (scale - 127) m e
      | _ => false).filter id).length

/-! ### Mending -/

/-- Fields of a factor set's header (R259). -/
def fsRank (h : List Nat) : Nat := descField h 0 25 16
def fsRows (h : List Nat) : Nat := descField h 1 23 0
def fsCols (h : List Nat) : Nat := descField h 1 47 24
def fsU (h : List Nat) : Nat := descField h 2 57 0
def fsV (h : List Nat) : Nat := descField h 3 57 0

/-- Does a MENDED record fit its factor set (R261)? `panel` is the panel buffer B in bytes. -/
def mendedOk (h d r : List Nat) (panel : Nat) : Bool :=
  descField h 0 15 0 = 1 && 8 ≤ fsRank h && fsRank h ≤ 512 && fsRank h % 8 = 0 &&
  rcRow0 r + tdRows d ≤ fsRows h && rcCol0 r + tdCols d ≤ fsCols h &&
  4 * (tdRows d + tdCols d) * fsRank h ≤ panel

/-- BF16 values of bytes. -/
def bf16s (bs : List Byte) : List Nat := (List.range (bs.length / 2)).map fun i => leAt bs (2 * i) 2

/-- A BF16 pattern as FP32. -/
def bf16To32 (v : Nat) : Nat := v * 65536

/-- One mended element (R262): fused multiply-adds in FP32 in the order of k, rounded once to BF16. -/
def mendElement (us vs : List Nat) : Nat :=
  let acc := (List.zip us vs).foldl (fun acc p => fmaFp32 (bf16To32 p.1) (bf16To32 p.2) acc) 0
  (encodeF bf16 (decodeF fp32 acc)).1

/-- The elements of a tile of U·Vᵀ in row-major order (R262). -/
def mendTile (rank rows cols : Nat) (u v : List Nat) : List Nat :=
  (List.range rows).flatMap fun i => (List.range cols).map fun j =>
    mendElement ((u.drop (i * rank)).take rank) ((v.drop (j * rank)).take rank)

/-- The residual added to mended patterns, modulo 2¹⁶ (R263). -/
def addResidual (ms rs : List Nat) : List Nat := List.zipWith (fun m r => (m + r) % 65536) ms rs

end Sys2Proof.Machine
end

