-- ==== Sys2Proof/Machine/Streams.lean ====
section
/-!
DEFINITION. Weight streams (chapter 07) and the mending of their tiles (R260, R261): LOAD, production, handing, members and
credits, deadlines, commands.
-/

namespace Sys2Proof.Machine

/-- The stream entry of that number, if it is not FREE. -/
def strAt (i : Nat) (s : Part) : Option Stream := tget? s.str.streams i

/-- Store a stream. -/
def putStr (i : Nat) (x : Stream) (s : Part) : Part := onStreaming (fun b => { b with streams := tset b.streams i x }) s

/-- A stream event (R241). -/
def strEvent (kind i member : Nat) (s : Part) : Part := pushEvent .str (kind * 2 + i * 16 + member * 2 ^ 12) 0 s

/-! ### Ends of passes and streams -/

/-- STAGE pins of a stream end with its pass (R225). -/
def unpinStream (i : Nat) (s : Part) : Part :=
  onFlash (fun f =>
    { f with
      staged := tmap f.staged fun g => { g with pins := g.pins.filter fun k => k ≠ i }
      wanted := f.wanted.filter fun w => w.2 ≠ i }) s

/-- A stream as it stands when it leaves RUNNING or STOPPING (R233): nothing in production, every member detached. -/
def parked (st : StreamState) (x : Stream) : Stream :=
  { x with state := st, tiles := [], members := [], starting := false, recLine := none, recRead := none, fold := none,
           residual := none, lateNew := [], view := none }

/-- STATE, PASS, RECORD and ATTACHED at their places in STR_STATUS (R238). -/
def strReport (i : Nat) (s : Part) : Nat :=
  match strAt i s with
  | none => 0
  | some x =>
    let st := match x.state with
      | .loaded => 1 | .running => 2 | .stopping => 3 | .failed => 4
    st * 2 ^ 5 + x.pass % 65536 * 2 ^ 8 + x.record % 2 ^ 24 * 2 ^ 24 + x.members.length * 2 ^ 48

/-- End a command on STR_CMD. -/
def strEnd (view i result : Nat) (s : Part) : Part :=
  let v := strReport i s
  onStreaming (fun b => { b with seq := seqEnd view result v b.seq }) s

/-- An engine keeps panels of the factor sets that are assigned to it, for the next tile that names them (R260). -/
def dropPanels (s : Part) : Part :=
  onCompression (fun b => { b with mend := b.mend.mapIdx fun n e =>
    { e with panels := e.panels.filter fun p => b.mendSets.any fun m => m.2.1 = p.factor && m.2.2 = n } }) s

/-- The stream leaves RUNNING or STOPPING; a STOP that waits for it ends. -/
def leaveStream (i : Nat) (st : StreamState) (x : Stream) (s : Part) : Part :=
  let s := putStr i (parked st x) (unpinStream i s)
  let s := dropPanels (onCompression (fun b => { b with mendSets := b.mendSets.filter fun m => m.1 ≠ i }) s)
  match x.view with
  | some v => strEnd v i 0 s
  | none => s

/-- The stream fails (R221, R227, R233). -/
def failStream (i : Nat) (x : Stream) (record : Nat) (s : Part) : Part :=
  leaveStream i .failed { x with record := record } (strEvent 3 i 0 s)

/-- The pass has ended (R222, R233): the next one begins, its T0 the moment at which the last tile was handed, or the stream is done. -/
def endPass (i : Nat) (x : Stream) (s : Part) : Part :=
  let x := { x with pass := x.pass + 1 }
  let s := strEvent 1 i 0 s
  if prPasses x.header ≠ 0 && prPasses x.header ≤ x.pass then leaveStream i .loaded x (strEvent 2 i 0 s)
  else
    unpinStream i (putStr i
      { x with
        record := 0, t0 := x.lastHand.getD s.cur.timer, lastHand := none, starting := false, recLine := none, recRead := none, fold := none, residual := none,
        badPass := false, latePass := 0, handed := 0
        members := x.members.map fun m => if m.joined then m else { m with joined := true, first := x.nextTile } } s)

/-- What follows when a tile has been handed or a record processed: the end of a pass, or of a STOP. -/
def settleStream (i : Nat) (x : Stream) (s : Part) : Part :=
  if !x.tiles.isEmpty then putStr i x s
  else if x.state = .stopping then leaveStream i .loaded x s
  else if prRecords x.header ≤ x.record then endPass i x s
  else putStr i x s

/-! ### Mending engines (R260) -/

/-- Panel buffer B of an engine in bytes (R260). -/
def panelBytes (s : Part) : Nat := (8 - s.clv.share) * 2 ^ 20 / 2

/-- A mending engine. -/
def mendEngine (n : Nat) (s : Part) : MendEngine :=
  s.cmp.mend.getD n { enable := true, draining := false, current := none, panels := [] }

/-- Is a mending engine enabled and out of quarantine? -/
def mendIn (n : Nat) (s : Part) : Bool := (mendEngine n s).enable && (64 + n) ∉ s.flr.quarantined

/-- Tiles queued on an engine. -/
def mendLoad (n : Nat) (s : Part) : Nat :=
  s.str.streams.foldl (fun k p => k + (p.2.tiles.filter fun t => t.engine = some n && t.stage ≠ .ready).length) 0

/-- The enabled engine with least queued work; the lowest on a tie: DESIGN CHOICE. -/
def pickMend (s : Part) : Option Nat :=
  (((List.range 16).filter fun n => mendIn n s).foldl (fun (b : Option (Nat × Nat)) n =>
    match b with
    | none => some (n, mendLoad n s)
    | some p => if mendLoad n s < p.2 then some (n, mendLoad n s) else some p) none).map (·.1)

/-- The engine of a stream's factor set (R260, R273): the one it has, or a new one. -/
def engineFor (i factor : Nat) (s : Part) : Option Nat × Part :=
  match s.cmp.mendSets.find? fun m => m.1 = i && m.2.1 = factor && mendIn m.2.2 s with
  | some m => (some m.2.2, s)
  | none =>
    match pickMend s with
    | none => (none, s)
    | some n =>
      (some n, onCompression (fun b =>
        { b with mendSets := (b.mendSets.filter fun m => !(m.1 = i && m.2.1 = factor)) ++ [(i, factor, n)] }) s)

/-- A panel that an engine holds: of the same factor set, grant, rank, place and size. -/
def heldPanel (n : Nat) (p : Panel) (s : Part) : Option (List Nat) :=
  ((mendEngine n s).panels.find? fun q => { q with values := [] } = { p with values := [] }).map (·.values)

/-- Keep a panel: two of U and two of V (R260). -/
def keepPanel (n : Nat) (p : Panel) (s : Part) : Part :=
  let e := mendEngine n s
  let same := (e.panels.filter fun q => q.isU = p.isU && q ≠ p).take 1
  let other := e.panels.filter fun q => q.isU ≠ p.isU
  onCompression (fun b => { b with mend := lset b.mend n { e with panels := p :: same ++ other } }) s

/-! ### Production (R223, R224, R227) -/

/-- How a step of a tile ends. -/
inductive TileMove
  | go (x : Stream) (t : TileRun) | bad | lost
  deriving DecidableEq, Repr

/-- Grant of a tile's source reads (R214). -/
def tileGrant (x : Stream) (t : TileRun) : Nat × Nat :=
  let w := x.sources.getD (rcSrc t.record) 0
  (field w 15 0, field w 31 16)

/-- The tile whose source could not be read (R227). -/
def fillTile (st : Nat) (t : TileRun) : TileRun := { t with stage := .ready, status := st, filled := true, reads := [], values := [] }

/-- The tile fails (R227). One with a residual still takes its values out of the residual stream, so that the tiles that continue it get
theirs (R220, R247). -/
def failTile (st : Nat) (t : TileRun) : TileRun :=
  if t.stage = .residual then (if t.filled then t else { t with status := st, filled := true, engine := none, values := [] })
  else if rcSource t.record = 2 && rcResidual t.record then
    { t with stage := .residual, row := 0, status := st, filled := true, engine := none, reads := [], values := [] }
  else fillTile st t

/-- Does a tile hold or await the fold stream, or the residual stream? -/
def usesFold (t : TileRun) : Bool := t.stage = .fold
def usesResidual (t : TileRun) : Bool := rcSource t.record = 2 && rcResidual t.record && t.stage ≠ .ready

/-- An uncorrectable error in the unfolder buffer or the mending panels of tile `n` (R319), as a failed source read (R227): the tile that the
unfolder serves breaks its fold or residual stream (R247), a FOLDED tile that waits for its fold stream breaks it in its turn, and any
other fails by itself. -/
def spoilTile (st n : Nat) (x : Stream) : Stream :=
  let first (uses : TileRun → Bool) : Bool := (x.tiles.takeWhile fun t => t.number ≠ n).all fun t => !uses t
  let spoil (r : FoldReader) : FoldReader := if r.broken.isSome then r else breakReader st r
  let put (f : TileRun → TileRun) : Stream := { x with tiles := x.tiles.map fun t => if t.number = n then f t else t }
  match x.tiles.find? fun t => t.number = n with
  | none => x
  | some t =>
    match t.stage with
    | .ready => put (fillTile st)
    | .fold =>
      if first usesFold && t.row ≠ 0 then { x with fold := x.fold.map spoil }
      else put fun t => { t with status := st, filled := true }
    | .residual =>
      if first usesResidual && t.row ≠ 0 && !t.filled then { x with residual := x.residual.map spoil } else put (failTile st)
    | _ => put (failTile st)

/-- Status of values, the first that is not OK. -/
def valuesStatus (vs : List (Nat × Nat)) : Nat := ((vs.find? fun v => v.2 ≠ 0).map (·.2)).getD 0

/-- A mending engine whose started tile has to wait for data: a feed stall (R267, R273). -/
def feedStall (t : TileRun) (s : Part) : Part :=
  match t.engine with
  | some n => count 10 (64 + n) 65 1 s
  | none => s

/-- One turn of an unfolder for a tile. A read that fails breaks the fold stream for the tiles that continue it as an unknown length does
(R247). `kind` is the type its header must have; `put` takes the reader back into the stream,
`done` takes the values (R220, R247). -/
def readerTurn (t : TileRun) (r : FoldReader) (kind : Nat) (put : FoldReader → Stream)
    (done : List (Nat × Nat) → TileRun) (s : Part) : Option (TileMove × Part) :=
  let need := tdElems t.desc
  match r.broken with
  | some st =>
    if st = stRevoked || st = stRecalled then some (.lost, s)
    else some (.go (put { r with broken := some stUnsupported }) (if t.filled then { t with stage := .ready } else fillTile st t), s)
  | none =>
    if r.head && (r.version ≠ 1 || r.kind ≠ kind || readerRest r < need) then some (.bad, s)
    else if r.head && need ≤ r.buf.length then
      let (vs, r) := readerTake need r
      some (.go (put r) (done vs), s)
    else (readerStep 0x113 need r s).map fun p =>
      (.go (put p.1) t, if r.reads.isEmpty && fetchWaits p.1.reads then feedStall t p.2 else p.2)

/-- The values of a FOLDED tile. -/
def foldedTile (t : TileRun) (vs : List (Nat × Nat)) : TileRun :=
  { t with stage := .ready, values := vs.map (·.1), status := valuesStatus vs }

/-- A MENDED tile with its residual (R263). -/
def residualTile (t : TileRun) (vs : List (Nat × Nat)) : TileRun :=
  if t.filled then { t with stage := .ready } else
  { t with stage := .ready, values := addResidual t.values (vs.map (·.1)), status := valuesStatus vs }

/-- The panels are in: the tile is mended (R262), and waits for its residual if it has one. -/
def mendedTile (t : TileRun) : TileRun :=
  let vs := mendTile (fsRank t.factor) (tdRows t.desc) (tdCols t.desc) t.u t.v
  { t with values := vs, u := [], v := [], stage := if rcResidual t.record then .residual else .ready }

/-- Take a panel into the tile: U first, then V. -/
def takePanel (t : TileRun) (isU : Bool) (vs : List Nat) : TileRun :=
  if isU then { t with u := vs, stage := .panelV, reads := [] } else mendedTile { t with v := vs, reads := [] }

/-- A panel of a tile: held by the engine, read, or to be read. -/
def panelTurn (x : Stream) (t : TileRun) (isU : Bool) (s : Part) : Option (TileMove × Part) :=
  let n := t.engine.getD 0
  let rank := fsRank t.factor
  let start := if isU then rcRow0 t.record else rcCol0 t.record
  let count := if isU then tdRows t.desc else tdCols t.desc
  let addr := (if isU then fsU t.factor else fsV t.factor) + 2 * rank * start
  let (e, h) := tileGrant x t
  let p : Panel :=
    { factor := rcAddr t.record, grant := [x.gallery, e, h, rank], isU := isU, start := start, count := count, values := [] }
  if fetchDone t.reads then
    let vs := bf16s (sliceBytes (fetchBytes t.reads) (addr % 128) (2 * rank * count))
    some (.go x (takePanel t isU vs), count' n (keepPanel n { p with values := vs } s))
  else
    match heldPanel n p s with
    | some vs => some (.go x (takePanel t isU vs), s)
    | none =>
      let (fs, s) := fetchRange 0x113 (n / 2) x.gallery e h addr (2 * rank * count) (feedStall t s)
      some (.go x { t with reads := fs }, s)
where
  /-- A panel load is counted. -/
  count' (n : Nat) (s : Part) : Part := count 10 (64 + n) 2 1 s

/-- The bay of a stream, whose records, headers and RAW sources are read there: DESIGN CHOICE (log entry 82). -/
def strBay (i : Nat) : Nat := i % 8

/-- Has the tile's engine started it (R260)? One whose factor set failed needs none. -/
def mendStarted (i : Nat) (t : TileRun) (s : Part) : Bool :=
  match t.engine with
  | none => true
  | some n => (mendEngine n s).current = some (i, t.number)

/-- Does no earlier tile of the stream hold the unfolder of the fold stream, or of the residual stream, or wait for its mending engine
(R224, R260)? -/
structure TileTurns where
  fold     : Bool
  residual : Bool
  engine   : Bool
  deriving DecidableEq, Repr

/-- One step of a tile's production; none where it waits or is ready. -/
def tileStep (i : Nat) (x : Stream) (t : TileRun) (turns : TileTurns) (s : Part) : Option (TileMove × Part) :=
  let (e, h) := tileGrant x t
  let d := t.desc
  if t.stage = .ready || fetchWaits t.reads then none
  else if fetchDone t.reads && fetchRetry t.reads then
    let (fs, s) := fetchAgain 0x113 (strBay i) x.gallery e h t.reads s
    some (.go x { t with reads := fs }, s)
  else
    let st := fetchStatus t.reads
    if fetchDone t.reads && (st = stRevoked || st = stRecalled) then some (.lost, s)
    else if fetchDone t.reads && st ≠ stOK then some (.go x (failTile st t), s)
    else
      match t.stage with
      | .raw =>
        let size := nativeBytes (tdSrc d)
        let addr := rcAddr t.record + t.row * rcLd t.record * size
        let n := tdCols d * size
        if fetchDone t.reads then
          let bs := sliceBytes (fetchBytes t.reads) (addr % 128) n
          let vs := (List.range (tdCols d)).map fun k => leAt bs (k * size) size
          some (.go x { t with
            values := t.values ++ vs, reads := [], row := t.row + 1
            stage := if t.row + 1 = tdRows d then .ready else .raw }, s)
        else
          let (fs, s) := fetchRange 0x113 (strBay i) x.gallery e h addr n s
          some (.go x { t with reads := fs }, s)
      | .fold =>
        if !turns.fold then none
        else if t.row = 0 then
          let x := if rcContinue t.record then x
            else { x with fold := some (FoldReader.start (freeUnfolder s) (rcAddr t.record) x.gallery e h) }
          some (.go x { t with row := 1 }, s)
        else
          match x.fold with
          | none => some (.bad, s)
          | some r =>
            if t.filled then some (.go { x with fold := some (if r.broken.isSome then r else breakReader t.status r) } { t with filled := false }, s)
            else readerTurn t r (tdSrc d) (fun r => { x with fold := some r }) (foldedTile t) s
      | .header =>
        if fetchDone t.reads then
          let bs := (fetchBytes t.reads).drop (rcAddr t.record % 128)
          let hd := (List.range 8).map fun w => leAt bs (8 * w) 8
          if !turns.engine then none
          else if !mendedOk hd d t.record (panelBytes s) then some (.bad, s)
          else
            let (n, s) := engineFor i (rcAddr t.record) s
            match n with
            | none => some (.bad, s)
            | some n => some (.go x { t with factor := hd, engine := some n, reads := [], stage := .panelU }, chooseCheck (64 + n) i t.number s)
        else
          let (fs, s) := fetchRange 0x113 (strBay i) x.gallery e h (rcAddr t.record) 64 s
          some (.go x { t with reads := fs }, s)
      | .panelU =>
        if mendStarted i t s then panelTurn x t true s
        else if mendIn (t.engine.getD 0) s then none
        else
          let (n, s) := engineFor i (rcAddr t.record) s
          match n with
          | none => some (.bad, s)
          | some n => some (.go x { t with engine := some n }, s)
      | .panelV => panelTurn x t false s
      | .residual =>
        if !turns.residual then none
        else if t.row = 0 then
          let x := if rcContinue t.record then x
            else { x with residual := some (FoldReader.start (freeUnfolder s) (rcResAddr t.record) x.gallery e h) }
          some (.go x { t with row := 1 }, s)
        else
          match x.residual with
          | none => some (.bad, s)
          | some r => readerTurn t r 1 (fun r => { x with residual := some r }) (residualTile t) s
      | .ready => none

/-- The turns of the tiles behind this one. -/
def TileTurns.after (t : TileRun) (turns : TileTurns) : TileTurns :=
  { fold := turns.fold && !usesFold t, residual := turns.residual && !usesResidual t, engine := turns.engine && t.stage ≠ .header }

/-- The turns of the oldest tile. -/
def TileTurns.first : TileTurns := { fold := true, residual := true, engine := true }

/-- The first tile that can go on: its place and its move. -/
def firstMove (i : Nat) (x : Stream) : List TileRun → Nat → TileTurns → Part → Option (Nat × TileMove × Part)
  | [], _, _, _ => none
  | t :: ts, k, turns, s =>
    match tileStep i x t turns s with
    | some (m, s) => some (k, m, s)
    | none => firstMove i x ts (k + 1) (turns.after t) s

/-! ### The next record (R220 to R223, R225) -/

/-- Has every joined member a free slot for a tile (R223)? -/
def slotsFree (x : Stream) (t : Nat) : Bool :=
  x.members.all fun m => !m.joined || (BitVec.ofNat 32 (t - m.first) - m.released).toNat < prSlots x.header

/-- Pin or stage one page for a STAGE record (R225); false where the anteroom has no room for it. -/
def stagePin (i page : Nat) (s : Part) : Bool × Part :=
  match tget? s.flt.staged page with
  | some g => (true, onFlash (fun f =>
      { f with staged := tset f.staged page { g with pins := if i ∈ g.pins then g.pins else g.pins ++ [i] } }) s)
  | none =>
    let s := if page ∈ stagingPages s then s else stagePage page s
    if page ∈ stagingPages s then (true, onFlash (fun f => { f with wanted := f.wanted ++ [(page, i)] }) s) else (false, s)

/-- Stage the pages of a STAGE record while there is room. -/
def stagePages (i : Nat) : Nat → Nat → Part → Bool × Part
  | 0, _, s => (true, s)
  | n + 1, page, s =>
    match stagePin i page s with
    | (false, s) => (false, s)
    | (true, s) => stagePages i n (page + 1) s

/-- A STAGE record (R225): pages of a flash-home edition extent of this part in the stream's gallery; others, and those that
find no room, are skipped and counted. -/
def stageRecord (i : Nat) (x : Stream) (r : List Nat) (s : Part) : Part :=
  let page := rcAddr r % 2 ^ 46 / 65536
  let e := extentAt (page / 4096) s
  let mine := rcAddr r / 2 ^ 46 = homePart s && e.place = .flash && e.cls = .edition && e.gallery = x.gallery &&
    thas s.flt.bound (page / 4096)
  let (ok, s) := if mine then stagePages i (rcPages r) page s else (false, s)
  if ok then s else count 9 i 67 1 s

/-- The tile that a good TILE record begins. -/
def newTile (x : Stream) (r : List Nat) : TileRun :=
  { number := x.nextTile, index := x.record, record := r, desc := x.descs.getD (rcDesc r) []
    stage := if rcSource r = 0 then .raw else if rcSource r = 1 then .fold else .header
    row := 0, reads := [], values := [], factor := [], engine := none, u := [], v := [], status := 0, filled := false,
    late := x.nextTile ∈ x.lateNew }

/-- Process the record in hand. A tile begins where R223 lets it and the engine partition has room for it (R356, R357). -/
def takeRecord (i : Nat) (x : Stream) (r : List Nat) (s : Part) : Part :=
  let next := { x with record := x.record + 1 }
  if rcKind r = 2 then settleStream i { next with starting := rcNotBefore r = 0 } s
  else if rcKind r = 3 then settleStream i next (stageRecord i x r s)
  else if rcKind r = 1 then
    if !slotsFree x x.nextTile || 8 ≤ x.tiles.length || !engineHolds (tileCells (x.descs.getD (rcDesc r) [])) s then putStr i { x with starting := false } s
    else
      let foldOpen := x.fold.isSome || x.tiles.any fun t => rcSource t.record = 1
      let residualOpen := x.residual.isSome || x.tiles.any fun t => rcSource t.record = 2 && rcResidual t.record
      if !tileRecordOk (prDescs x.header) (x.descs.getD (rcDesc r) []) r foldOpen residualOpen then failStream i x x.record s
      else
        putStr i { next with
          tiles := x.tiles ++ [newTile x r], nextTile := x.nextTile + 1, starting := false
          lateNew := x.lateNew.filter fun n => n ≠ x.nextTile } s
  else failStream i x x.record s

/-- Address of the next record. -/
def recordAddr (x : Stream) : Nat := x.base + recordsAt x.header + 32 * x.record

/-- Begin, or go on with, the next record of a stream whose next tile may begin; none where it waits. -/
def recordStep (i : Nat) (x : Stream) (s : Part) : Option Part :=
  if !x.starting || x.state ≠ .running then none
  else if prRecords x.header ≤ x.record then some (putStr i { x with starting := false } s)
  else
    let line := recordAddr x / 128
    match x.recRead with
    | some f =>
      match f.answer with
      | none => none
      | some (st, bs) =>
        if st = stOK then some (putStr i { x with recRead := none, recLine := some (f.line, bs) } s)
        else if st = stRetryLater then
          let (f, s) := fetchLine 0x113 (strBay i) x.gallery x.epoch x.handle f.line s
          some (putStr i { x with recRead := some f } s)
        else some (failStream i x x.record s)
    | none =>
      match x.recLine with
      | some (l, bs) =>
        if l = line then
          let off := recordAddr x % 128
          some (takeRecord i x ((List.range 4).map fun w => leAt bs (off + 8 * w) 8) s)
        else some (putStr i { x with recLine := none } s)
      | none =>
        let (f, s) := fetchLine 0x113 (strBay i) x.gallery x.epoch x.handle line s
        some (putStr i { x with recRead := some f } s)

/-- One step of a stream; none where it waits. -/
def streamStep (i : Nat) (s : Part) : Option Part :=
  match strAt i s with
  | none => none
  | some x =>
    if x.state ≠ .running && x.state ≠ .stopping then none
    else
      match recordStep i x s with
      | some s => some s
      | none =>
        match firstMove i x x.tiles 0 TileTurns.first s with
        | none => none
        | some (k, m, s) =>
          match m with
          | .go y t => some (putStr i { y with tiles := lset y.tiles k t } s)
          | .bad => some (failStream i x ((x.tiles.getD k (newTile x [])).index) s)
          | .lost => some (failStream i x ((x.tiles.getD k (newTile x [])).index) s)

/-- Let a stream go on until it waits. -/
def goStream : Nat → Nat → Part → Part
  | 0, _, s => s
  | n + 1, i, s =>
    match streamStep i s with
    | none => s
    | some s => goStream n i s

/-- Steps of a stream between two waits. -/
def streamSteps : Nat := 2 ^ 23

/-! ### Starting tiles on a mending engine (R260, R267, R390) -/

/-- Is an engine busy with the tile that it has started? Every other tile on it waits (R267). -/
def mendBusy (n : Nat) (s : Part) : Bool :=
  match (mendEngine n s).current with
  | none => false
  | some (i, k) => (strAt i s).any fun x => x.tiles.any fun t => t.number = k && t.engine = some n && t.stage ≠ .ready

/-- The next tile of a stream that waits for an engine: the oldest on it, once its residual stream is free for it. -/
def mendNext (n : Nat) : List TileRun → Bool → Option Nat
  | [], _ => none
  | t :: ts, free =>
    if t.engine = some n && t.stage = .panelU then (if free || !rcResidual t.record then some t.number else none)
    else mendNext n ts (free && !usesResidual t)

/-- Tiles that an engine can start: gallery, stream and tile number, one of each stream at most. -/
def mendWaiting (n : Nat) (s : Part) : List (Nat × Nat × Nat) :=
  s.str.streams.filterMap fun p => (mendNext n p.2.tiles true).map fun k => (p.2.gallery, p.1, k)

/-- The energy of a tile on its engine (R265, R454). -/
def tileCost (i k : Nat) (s : Part) : Nat :=
  match (strAt i s).bind fun x => x.tiles.find? fun t => t.number = k with
  | some t => mendCost (tdRows t.desc) (tdCols t.desc) (fsRank t.factor)
  | none => 0

/-- An engine that is free, and whose class holds the turn's energy, starts the tile of the gallery to which its turn falls; of two streams of a gallery the lower one: DESIGN
CHOICE (log entry 84). -/
def startMend (n : Nat) (s : Part) : Option Part :=
  let ws := mendWaiting n s
  if mendBusy n s then none
  else
    match nextTurn (turnMend n) (ws.map (·.1)) s with
    | none => none
    | some d =>
      ((ws.find? fun x => x.1 = d.gallery).filter fun x => canSpend 2 (tileCost x.2.1 x.2.2 s) s).map fun x =>
        goStream streamSteps x.2.1 (takeDeal (turnMend n) d (spend 2 (tileCost x.2.1 x.2.2 s)
          (onCompression (fun b => { b with mend := lset b.mend n { mendEngine n s with current := some x.2 } }) s)))

/-- Streams and mending engines that can go on: an engine has come free, or the class holds energy again. -/
def pumpStreams (s : Part) : Option Part :=
  if s.str.streams.isEmpty then none
  else
    match s.str.streams.findSome? fun p => streamStep p.1 s with
    | some s => some s
    | none => (List.range 16).findSome? fun n => startMend n s

/-! ### LOAD (R213, R221, R238) -/

/-- Are the group's members fit for a stream (R212, R238)? -/
def streamMembersOk (group : Nat) (s : Part) : Bool :=
  (List.range (groupCount group s)).all fun k =>
    let w := memberWord (groupFirst group s + k) s
    !bitAt w 23 || field w 22 21 = 0 || (field w 22 21 = 2 && decide (field w 8 0 < 256))

/-- The descriptors of a program. -/
def programDescs (n : Nat) (bs : List Byte) : List (List Nat) :=
  (List.range n).map fun k => [leAt bs (192 + 16 * k) 8, leAt bs (200 + 16 * k) 8]

/-- The program's head is in hand: LOADED, or refused. -/
def loadDone (r : LoadRun) (s : Part) : Part :=
  let s := onStreaming (fun b => { b with load := none }) s
  let h := (List.range 8).map fun w => leAt r.bytes (8 * w) 8
  let sources := (List.range 16).map fun k => leAt r.bytes (64 + 8 * k) 8
  let descs := programDescs (prDescs h) r.bytes
  let g := prGroup h
  if !programHeaderOk h || (sources.any fun w => w / 2 ^ 32 ≠ 0) || !(descs.all (tileDescOk (prSlotKib h))) then
    strEnd r.view r.stream 3 s
  else if !galleryActive (prGallery h) s then strEnd r.view r.stream 2 s
  else if s.mgmt.record.mcgCount ≤ g || !groupValid g s || groupGallery g s ≠ prGallery h || !streamMembersOk g s then
    strEnd r.view r.stream 4 s
  else
    let x : Stream :=
      { state := .loaded, gallery := prGallery h, base := r.base, epoch := r.epoch, handle := r.handle, header := h,
        sources := sources, descs := descs, members := [], pass := 0, record := 0, nextTile := 0, tiles := [], t0 := 0, lastHand := none,
        starting := false, recLine := none, recRead := none, fold := none, residual := none, badPass := false, latePass := 0,
        handed := 0, lateNew := [], view := none }
    strEnd r.view r.stream 0 (putStr r.stream x s)

/-- The gallery under which a program is read (R382): the header's once it is read. DESIGN CHOICE, log 84: before that, its extent's where
this part homes it, else each gallery in turn until the home takes one. -/
def loadGallery (r : LoadRun) (s : Part) : Nat :=
  if r.bytes.isEmpty then (if r.base / 2 ^ 46 = homePart s then (extentAt (extOf r.base) s).gallery else r.tried)
  else prGallery [leAt r.bytes 0 8]

/-- One step of a LOAD; none where it waits. -/
def loadStep (s : Part) : Option Part :=
  match s.str.load with
  | none => none
  | some r =>
    if fetchWaits r.reads then none
    else if fetchDone r.reads && fetchRetry r.reads then
      let (fs, s) := fetchAgain 0x113 (strBay r.stream) (loadGallery r s) r.epoch r.handle r.reads s
      some (onStreaming (fun b => { b with load := some { r with reads := fs } }) s)
    else if fetchDone r.reads && fetchStatus r.reads = stGalleryFault && r.bytes.isEmpty && r.tried < 7 && r.base / 2 ^ 46 ≠ homePart s then
      some (onStreaming (fun b => { b with load := some { r with reads := [], tried := r.tried + 1 } }) s)
    else if fetchDone r.reads && fetchStatus r.reads ≠ stOK then
      some (strEnd r.view r.stream 3 (onStreaming (fun b => { b with load := none }) s))
    else if fetchDone r.reads then
      let bytes := r.bytes ++ fetchBytes r.reads
      some (onStreaming (fun b => { b with load := some { r with reads := [], bytes := bytes } }) s)
    else
      let h := (List.range 8).map fun w => leAt r.bytes (8 * w) 8
      let want := if r.bytes.isEmpty then 128 else if programHeaderOk h then 192 + 16 * prDescs h else 0
      if r.bytes.length < want then
        let k := ceilDiv (want - r.bytes.length) 128
        let (fs, s) := fetchLines 0x113 (strBay r.stream) (loadGallery r s) r.epoch r.handle k ((r.base + r.bytes.length) / 128) s
        some (onStreaming (fun b => { b with load := some { r with reads := fs } }) s)
      else some (loadDone r s)

/-- Let a LOAD go on until it waits. -/
def goLoad : Nat → Part → Part
  | 0, s => s
  | n + 1, s =>
    match loadStep s with
    | none => s
    | some s => goLoad n s

/-- A read of the streaming service has been answered. -/
def strAnswered (tag st : Nat) (bytes : List Byte) (s : Part) : Part :=
  let fs (xs : List Fetch) : List Fetch := fetchAnswer tag st bytes xs
  let reader (r : FoldReader) : FoldReader := { r with reads := fs r.reads }
  let mine (x : Stream) : Bool :=
    fetchHas tag x.recRead.toList || (x.tiles.any fun t => fetchHas tag t.reads) ||
    (x.fold.toList ++ x.residual.toList).any fun r => fetchHas tag r.reads
  let take (x : Stream) : Stream :=
    { x with
      recRead := x.recRead.map fun f => (fs [f]).headD f
      tiles := x.tiles.map fun t => { t with reads := fs t.reads }
      fold := x.fold.map reader
      residual := x.residual.map reader }
  match s.str.load with
  | some r =>
    if fetchHas tag r.reads then goLoad 64 (onStreaming (fun b => { b with load := some { r with reads := fs r.reads } }) s)
    else tiles mine take s
  | none => tiles mine take s
where
  /-- The stream that reads under the tag takes the answer. -/
  tiles (mine : Stream → Bool) (take : Stream → Stream) (s : Part) : Part :=
    match s.str.streams.find? fun p => mine p.2 with
    | none => s
    | some (i, x) => goStream streamSteps i (putStr i (take x) s)

/-! ### Handing and deadlines (R226, R227, R232) -/

/-- The pieces of a tile as messages without a destination (R226). -/
def tilePieces (x : Stream) (t : TileRun) (data : List Byte) (s : Part) : List Msg :=
  let n := ceilDiv data.length 256
  (List.range n).map fun p =>
    let bs := (data.drop (256 * p)).take 256
    sized { Msg.blank with
      op := 0x49, vc := 6, gallery := BitVec.ofNat 3 x.gallery, srcPart := BitVec.ofNat 12 (myPart s),
      status := BitVec.ofNat 4 t.status, data := sliceBytes bs 0 (pad4 bs.length),
      aux := BitVec.ofNat 24 (p + t.number % 2 ^ 32 % prSlots x.header * 2 ^ 10 + bitOf (p + 1 = n) * 2 ^ 22 +
        bitOf t.late * 2 ^ 23) }

/-- The bay that a tile leaves from (R352): that of its mending engine, else of the unfolder, which R224 lets the part assign: by the
stream's number. DESIGN CHOICE, log 82. -/
def tileBay (i : Nat) (t : TileRun) : Nat :=
  match t.engine with
  | some n => n / 2
  | none => i % 8

/-- TILE_HANDED: the oldest tile, once produced, goes to egress for every member that takes it (R212, R223). -/
def handTile (i : Nat) (s : Part) : Part :=
  match strAt i s with
  | none => s
  | some x =>
    match x.tiles with
    | [] => s
    | t :: rest =>
      if t.stage ≠ .ready then s
      else
        let data := if t.filled then errorValue (tdBytes t.desc) else tileData t.desc t.values
        let members := (x.members.filter fun m => m.joined && m.first ≤ t.number).map (·.index)
        let ms := tilePieces x t data s
        let s := ms.foldl (fun s m => replicate m (prGroup x.header) 0 (some members) (tileBay i t) s) (putStr i { x with tiles := rest } s)
        let s := count 9 i 0 1 (count 9 i 1 ms.length (sampleTime 9 i 0 s))
        let s := if t.filled then s
          else count 9 i 68 (clampedCount t.desc t.values data) (count 9 i 69 (nanBlocks t.desc data) s)
        let s := if t.status = 0 then s else count 9 i 70 1 s
        let s := if t.status ≠ 0 && !x.badPass then strEvent 6 i 0 s else s
        let s := if rcSource t.record = 2 && !t.filled then count 10 (64 + t.engine.getD 0) 1 1 s else s
        settleStream i { x with tiles := rest, lastHand := some s.cur.timer, handed := x.handed + 1, badPass := x.badPass || t.status ≠ 0 } s

/-- TILE_PRODUCTION_START: the next tile may begin, NOT_BEFORE having passed (R223). -/
def startTile (i : Nat) (s : Part) : Part :=
  match strAt i s with
  | none => s
  | some x => if x.state = .running then goStream streamSteps i (putStr i { x with starting := true } s) else s

/-- The condition of the oldest tile that has not been handed (R232): 0 CREDIT, 1 PRODUCTION, 2 EGRESS. -/
def oldestCause (x : Stream) : Nat :=
  match x.tiles.head? with
  | some o => if o.stage = .ready then 2 else 1
  | none => if slotsFree x x.nextTile then 1 else 0

/-- Does nothing but NOT_BEFORE or the scheduler hold the next tile back (R223, R232): is its slot free at every member, are fewer than 8
tiles in production, and has its start not come? -/
def awaitsStart (x : Stream) : Bool := slotsFree x x.nextTile && x.tiles.length < 8 && !x.starting

/-- The cause under which a tile is late (R232). The next tile counts PRODUCTION where NOT_BEFORE or the scheduler alone holds it. -/
def lateCause (x : Stream) (n : Nat) : Nat :=
  match x.tiles.find? fun t => t.number = n with
  | some t => if t.stage = .ready then oldestCause x else 1
  | none => if n ≠ x.nextTile then oldestCause x else if !slotsFree x n then 0 else if awaitsStart x then 1 else oldestCause x

/-- TILE_DEADLINE: a tile's deadline passes while it has not been handed (R232). -/
def tileLate (i n : Nat) (s : Part) : Part :=
  match strAt i s with
  | none => s
  | some x =>
    let counted (y : Stream) : Part :=
      putStr i { y with latePass := min 0xFFFFFFFF (y.latePass + 1) } (count 9 i (64 + lateCause x n) 1 s)
    if x.state ≠ .running && x.state ≠ .stopping then s
    else
      match x.tiles.find? fun t => t.number = n with
      | some t =>
        if t.late || rcDeadline t.record = 0 then s
        else counted { x with tiles := x.tiles.map fun u => if u.number = n then { u with late := true } else u }
      | none => if n < x.nextTile || n ∈ x.lateNew then s else counted { x with lateNew := n :: x.lateNew }

/-! ### Members (R228 to R231) -/

/-- The attached member of an index. -/
def memberAt (x : Stream) (k : Nat) : Option StreamMember := x.members.find? fun m => m.index = k

/-- The endpoint that a member entry names (R229): part and port. -/
def memberEndpoint (w : Nat) (s : Part) : Option (Nat × Nat) :=
  if !bitAt w 23 then none
  else if field w 22 21 = 0 then some (myPart s, field w 8 0)
  else if field w 22 21 = 2 then some (field w 20 9, field w 8 0)
  else none

/-- STREAM_ATTACH (R228, R229). -/
def attachArrives (m : Msg) (s : Part) : Part :=
  let i := leAt m.data 0 2
  let k := leAt m.data 2 2
  let flags := leAt m.data 8 4
  let detach := bitAt flags 0
  let ok (aux : Nat) (s : Part) : Part := emit (mkResponse m 0x80 0 stOK aux [] false) s
  match (if i < 256 then strAt i s else none) with
  | none => refuse m stUnsupported s
  | some x =>
    let g := prGroup x.header
    if m.data.length ≠ 16 || (x.state = .stopping && !detach) then refuse m stUnsupported s
    else if m.gallery.toNat ≠ x.gallery then refuse m stGalleryFault s
    else if groupCount g s ≤ k ||
        memberEndpoint (memberWord (groupFirst g s + k) s) s ≠ some (m.srcPart.toNat, m.srcPort.toNat) then
      refuse m stUnsupported s
    else if leAt m.data 4 2 ≠ prSlots x.header || leAt m.data 6 2 ≠ prSlotKib x.header || flags / 2 ≠ 0 ||
        leAt m.data 12 4 ≠ 0 then refuse m stUnsupported s
    else if detach then ok 0 (putStr i { x with members := x.members.filter fun n => n.index ≠ k } s)
    else if let some n := memberAt x k then ok (2 + bitOf (x.state = .running && !n.joined)) s
    else
      let n : StreamMember :=
        { index := k, part := m.srcPart.toNat, port := m.srcPort.toNat, joined := false, first := 0, released := 0 }
      ok (bitOf (x.state = .running)) (putStr i { x with members := x.members ++ [n] } s)

/-- Tiles that have been handed to a member since it joined. -/
def sentTo (x : Stream) (m : StreamMember) : BitVec 32 :=
  if m.joined then BitVec.ofNat 32 (x.nextTile - x.tiles.length - m.first) else 0

/-- WINDOW_CREDIT (R230, R231). -/
def creditArrives (m : Msg) (s : Part) : Part :=
  let w := leAt m.data 0 8
  let i := field w 43 32
  let rel := BitVec.ofNat 32 w
  match strAt i s with
  | none => count 9 0 71 1 s
  | some x =>
    match memberAt x (field w 52 44) with
    | none => count 9 i 71 1 s
    | some n =>
      if n.part ≠ m.srcPart.toNat || n.port ≠ m.aux.toNat % 512 || (sentTo x n - n.released) < (rel - n.released) then
        count 9 i 71 1 s
      else putStr i { x with members := x.members.map fun k => if k.index = n.index then { k with released := rel } else k } s

/-- Detach a member with its event (R231). -/
def detachMember (i k : Nat) (s : Part) : Part :=
  match strAt i s with
  | none => s
  | some x => strEvent 5 i k (putStr i { x with members := x.members.filter fun m => m.index ≠ k } s)

/-- MEMBER_STALL_TIMER: a member has held every slot for STALL_LIMIT (R231, R240). -/
def memberStalls (i k : Nat) (s : Part) : Part :=
  match (strAt i s).bind fun x => (memberAt x k).map fun m => (x, m) with
  | none => s
  | some (x, m) =>
    if m.joined && (sentTo x m - m.released).toNat = prSlots x.header then
      let s := strEvent 4 i k s
      if bitAt s.str.ctrl 16 then detachMember i k s else s
    else s

/-- `us` microseconds pass: streams whose next tile cannot begin for want of a slot count them (R232). The Curator timer moves in steps, so
that the count does: DESIGN CHOICE (log entry 84). -/
def creditWait (us : Nat) (s : Part) : Part :=
  s.str.streams.foldl (fun s p =>
    if p.2.state = .running && !slotsFree p.2 p.2.nextTile then count 9 p.1 2 us s else s) s

/-- A logical port leaves ACTIVE: its LOCAL_PORT members are detached (R231). -/
def streamPortDown (port : Nat) (s : Part) : Part :=
  s.str.streams.foldl (fun s p =>
    (p.2.members.filter fun m => m.part = myPart s && m.port = port &&
      field (memberWord (groupFirst (prGroup p.2.header) s + m.index) s) 22 21 = 0).foldl (fun s m => detachMember p.1 m.index s) s) s

/-! ### Commands (R233, R237 to R239) -/

/-- ABORT (R233). -/
def abortStream (i : Nat) (s : Part) : Part :=
  match strAt i s with
  | none => s
  | some x => if x.state = .running || x.state = .stopping then leaveStream i .loaded x s else s

/-- START of a stream with members (R222, R233). -/
def startStream (i : Nat) (x : Stream) (s : Part) : Part :=
  putStr i { x with
    state := .running, pass := 0, record := 0, nextTile := 0, t0 := s.cur.timer, lastHand := none, badPass := false, latePass := 0, handed := 0
    members := x.members.map fun m => { m with joined := true, first := 0, released := 0 } } s

/-- STOP with no view that waits: a drain of R436. -/
def drainStream (i : Nat) (view : Option Nat) (s : Part) : Part :=
  match strAt i s with
  | none => s
  | some x =>
    if x.state = .running then settleStream i { x with state := .stopping, starting := false, view := view } s else s

/-- The sequence goes on to the commands of other views while a STOP keeps its own view BUSY: an ABORT acts on the stream that stops (R233,
R527). -/
def strGoesOn (s : Part) : Part := onStreaming (fun b => { b with seq := seqLeave b.seq }) s

/-- Perform a command of STR_CMD. A START in a gallery that is not ACTIVE starts no new work (R436): BAD_STATE. -/
def strPerform (view cmd : Nat) (s : Part) : Part :=
  let op := field cmd 3 0
  let i := field cmd 11 4
  match op, strAt i s with
  | 1, none =>
    let base := s.str.progAddr.getD view 0 % 2 ^ 58
    let arg := s.str.progArg.getD view 0
    if base % 128 ≠ 0 then strEnd view i 3 s
    else
      let r : LoadRun :=
        { view := view, tried := 0, stream := i, base := base, epoch := field arg 15 0, handle := field arg 31 16, reads := [], bytes := [] }
      goLoad 64 (onStreaming (fun b => { b with load := some r }) s)
  | 2, some x =>
    if (x.state = .loaded || x.state = .failed) && galleryActive x.gallery s then
      (if !x.members.isEmpty then strEnd view i 0 (startStream i x s) else strEnd view i (if x.state = .loaded then 5 else 2) s)
    else strEnd view i 2 s
  | 3, some x => if x.state = .running then drainStream i (some view) (strGoesOn s) else strEnd view i 2 s
  | 4, some x => if x.state = .running || x.state = .stopping then strEnd view i 0 (abortStream i s) else strEnd view i 2 s
  | 5, some x =>
    if x.state = .loaded || x.state = .failed then
      strEnd view i 0 (onStreaming (fun b => { b with streams := tdel b.streams i }) s)
    else strEnd view i 2 s
  | 6, o =>
    let q := match o with
      | some x => x.latePass + x.handed % 2 ^ 32 * 2 ^ 32
      | none => 0
    strEnd view i 0 (onStreaming (fun b => { b with query := q }) s)
  | _, _ => strEnd view i 2 s

/-- A write of STR_CMD. -/
def writeStrCmd (view cmd : Nat) (s : Part) : Part :=
  writeSeq 9 (·.str.seq) (fun q => onStreaming fun b => { b with seq := q }) strPerform view cmd s

end Sys2Proof.Machine
end

