-- ==== Sys2Proof/Machine/Drains.lean ====
section
/-!
DEFINITION. Disabling with work in flight (R436): galleries, contexts, streams, gather and filter units, reduce and mending
engines. Channel units are in ChannelUnits.lean, and function 1 of a host port in HostPorts.lean.
-/

namespace Sys2Proof.Machine

/-! ### The work of a gallery -/

/-- Numbers of the contexts, running streams, gather and filter requests and running jobs of a gallery. -/
def galContexts (g : Nat) (s : Part) : List Nat := (s.clv.contexts.filter fun p => ctxGallery p.2.desc = g).map (·.1)
def galStreams (g : Nat) (s : Part) : List Nat :=
  (s.str.streams.filter fun p => p.2.gallery = g && (p.2.state = .running || p.2.state = .stopping)).map (·.1)
def galRequests (g : Nat) (s : Part) : List Nat := (s.gfu.requests.filter fun p => p.2.req.gallery.toNat = g).map (·.1)
def galJobs (g : Nat) (s : Part) : List Nat :=
  (s.cmp.jobs.filter fun p => jdGallery p.2.desc = g && p.2.state = .running).map (·.1)

/-- Has the last work of a gallery ended (R385)? -/
def galIdle (g : Nat) (s : Part) : Bool :=
  (galContexts g s).isEmpty && (galStreams g s).isEmpty && (galRequests g s).isEmpty && (galJobs g s).isEmpty &&
  !(s.chu.cmds.any fun c => chuGallery c.desc = g)

/-- CLOSE of a context for a drain (R174, R436); one that is CLOSING already runs on. -/
def drainContext (c : Nat) (s : Part) : Part :=
  match ctxAt c s with
  | none => s
  | some x => if x.state = .closing then s else closeCtx c x s

/-- The drain of a gallery begins (R436). -/
def drainGallery (g : Nat) (s : Part) : Part :=
  let s := (galContexts g s).foldl (fun s c => drainContext c s) s
  let s := (galStreams g s).foldl (fun s i => drainStream i none s) s
  chuTurnAway (fun c => chuGallery c.desc = g) s

/-- ABORT of a job by the part: how many lines it has written is a free value (R258). No view waits for it. -/
def abortJob (i : Nat) (s : Part) : Part := jobCommand i true 4 s

/-- The bound of a gallery's drain (R436): what remains is aborted. -/
def abortGallery (g : Nat) (s : Part) : Part :=
  let s := (galContexts g s).foldl (fun s c => abortCtx c s) s
  let s := (galStreams g s).foldl (fun s i => abortStream i s) s
  let s := (galRequests g s).foldl (fun s i => gfuHalt i stTimeout s) s
  let s := chuTurnAway (fun c => chuGallery c.desc = g) (chuHalt (fun c => chuGallery c.desc = g) stUnsupported s)
  (galJobs g s).foldl (fun s i => abortJob i s) s

/-! ### Units and engines -/

/-- Clear ENABLE of a gather or filter unit (R210). -/
def gfuDisable (u : Nat) (s : Part) : Part :=
  onGatherFilter (fun b => { b with enable := lset b.enable u false, draining := lset b.draining u (decide (0 < unitLoad u s)) }) s

/-- Set ENABLE of a gather or filter unit. -/
def gfuEnable (u : Nat) (s : Part) : Part :=
  onGatherFilter (fun b => { b with enable := lset b.enable u true, draining := lset b.draining u false }) s

/-- The bound of a gather or filter unit's drain (R436). -/
def gfuAbortUnit (u : Nat) (s : Part) : Part :=
  ((s.gfu.requests.filter fun p => p.2.unit = u).map (·.1)).foldl (fun s i => gfuHalt i stTimeout s) s

/-- Clear ENABLE of a reduce engine (R436, R445). Each contribution is added in the step that brings it, so that none remains
in the pipeline; a bay whose last engine goes fails its contexts (R175). -/
def reduceDisable (e : Nat) (s : Part) : Part :=
  let s := onRecovery (fun b => { b with reEnable := lset b.reEnable e false }) s
  if bayOut (e / 8) s then failBay (e / 8) s else s

/-- Clear ENABLE of a mending engine (R273): it takes no new factor set and finishes the tiles it has started. Its panels go:
a stream that comes back to it loads them afresh. -/
def mendDisable (n : Nat) (s : Part) : Part :=
  let e : MendEngine := { mendEngine n s with enable := false, draining := decide (0 < mendLoad n s), panels := [] }
  onCompression (fun b => { b with mend := lset b.mend n e, mendSets := b.mendSets.filter fun m => m.2.2 ≠ n }) s

/-- Set ENABLE of a mending engine. -/
def mendEnable (n : Nat) (s : Part) : Part :=
  let e : MendEngine := { mendEngine n s with enable := true, draining := false, panels := [] }
  onCompression (fun b => { b with mend := lset b.mend n e }) s

/-- A tile on an engine ends with TIMEOUT and the error value (R227, R436). -/
def endTile (n : Nat) (t : TileRun) : TileRun := if t.engine = some n && t.stage ≠ .ready then failTile stTimeout t else t

/-- The bound of a mending engine's drain (R436). -/
def mendAbort (n : Nat) (s : Part) : Part :=
  onStreaming (fun b => { b with streams := tmap b.streams fun x => { x with tiles := x.tiles.map (endTile n) } }) s

/-- Clear the DRAINING bits of units and engines whose last work has ended; none where there is none. -/
def pumpDrains (s : Part) : Option Part :=
  match (List.range 32).find? fun u => s.gfu.draining.getD u false && unitLoad u s = 0 with
  | some u => some (onGatherFilter (fun b => { b with draining := lset b.draining u false }) s)
  | none =>
    match (List.range 16).find? fun n => (mendEngine n s).draining && mendLoad n s = 0 with
    | some n =>
      let e : MendEngine := { mendEngine n s with draining := false }
      some (onCompression (fun b => { b with mend := lset b.mend n e }) s)
    | none => none

end Sys2Proof.Machine
end

