-- ==== Sys2Proof/Machine/Flits.lean ====
section
/-!
DEFINITION. Flits (R44 to R46, R48): their layout, what the part sends in them, the replay buffer (R50, R51), and the messages
that a payload holds (R373, R374).
-/

namespace Sys2Proof.Machine

/-! ### Layout (R44) -/

/-- A flit of a 96-bit link header and a payload, with its CRC (R44, R45). -/
def mkFlit (header : Nat) (payload : List Byte) : List Byte :=
  let body := leBytes 12 header ++ sliceBytes payload 0 236
  body ++ leBytes 8 (crc64 body)

/-- The link header of a received flit. -/
def flitHeader (f : List Byte) : Nat := leAt f 0 12

/-- The payload of a received flit. -/
def flitPayload (f : List Byte) : List Byte := (f.drop 12).take 236

/-- Is the CRC of a flit good (R45)? -/
def flitGood (f : List Byte) : Bool := decide (f.length = 256) && leAt f 248 8 = crc64 (f.take 248)

/-- TYPE, SEQ and FIRST_HDR of a flit. -/
def flitType (f : List Byte) : Nat := field (flitHeader f) 3 0
def flitSeq (f : List Byte) : Nat := field (flitHeader f) 11 4
def flitFirst (f : List Byte) : Nat := field (flitHeader f) 31 24

/-- Credit returns of a flit: VC and count (R44, R54). -/
def flitCredits (f : List Byte) : List (Nat × Nat) :=
  (List.range 4).filterMap fun k =>
    let c := field (flitHeader f) (47 + 16 * k) (32 + 16 * k)
    if bitAt c 15 then some (field c 14 12, field c 11 0) else none

/-! ### Sending -/

/-- The credits that the next flit of a port returns (R44, R68): up to four VCs. -/
def creditsNow (port : Nat) (s : Part) : List (Nat × Nat) :=
  let x := lport port s
  let held := windowFull port s
  (((List.range 8).filter fun v => 0 < x.rxReturn.getD v 0 && !(held && v < 2)).take 4).map fun v =>
    (v, min 4095 (x.rxReturn.getD v 0))

/-- A port once credits have gone out. -/
def takeCredits (cs : List (Nat × Nat)) (x : LPort) : LPort :=
  { x with rxReturn := cs.foldl (fun r c => lset r c.1 (r.getD c.1 0 - c.2)) x.rxReturn }

/-- The link header of a flit that a port sends now: acknowledgement, credits, FIRST_HDR. -/
def txHeader (typ seq first : Nat) (nak : Bool) (cs : List (Nat × Nat)) (x : LPort) : Nat :=
  let cr := (List.range 4).foldl (fun n k =>
    match cs[k]? with
    | some (v, c) => n + (c + v * 2 ^ 12 + 2 ^ 15) * 2 ^ (32 + 16 * k)
    | none => n) 0
  typ + seq * 2 ^ 4 + (x.rxExp - 1).toNat * 2 ^ 12 + bitOf x.rxAny * 2 ^ 20 + bitOf nak * 2 ^ 21 + first * 2 ^ 24 + cr

/-- Hand a NULL flit to the PCS (R46): it acknowledges, returns credits, or asks for replay. -/
def sendNull (port : Nat) (nak : Bool) (s : Part) : Part :=
  let cs := creditsNow port s
  countPort port 5 1 (onPort port (fun x => { takeCredits cs x with unacked := 0, out := [mkFlit (txHeader 0 0 255 nak cs x) []] }) s)

/-- Hand one DATA flit of message bytes to the PCS, which stays in the replay buffer (R50). -/
def sendData (port first : Nat) (payload : List Byte) (more : Bool) (s : Part) : Part :=
  let cs := creditsNow port s
  countPort port 5 1 (onPort port (fun x =>
    let f := mkFlit (txHeader 1 x.txSeq.toNat first false cs x) payload
    { takeCredits cs x with
      unacked := 0, txSeq := x.txSeq + 1, replay := x.replay ++ [f], out := if more then x.out ++ [f] else [f] }) s)

/-- DATA flits that a message takes: the model sends one message in them, padded (R46). -/
def flitsOf (m : Msg) : Nat := ceilDiv (wireBytes m) 236

/-- Send a message in its DATA flits. -/
def sendMessage (port : Nat) (m : Msg) (s : Part) : Part :=
  let bytes := msgBytes m
  let s := sendData port 0 (bytes.take 236) false s
  let s := if 236 < bytes.length then sendData port 255 (bytes.drop 236) true s else s
  countPort port 1 1 (countPort port 3 bytes.length s)

/-- The INIT control flit of a port (R48, R49). -/
def initFlit (port : Nat) (s : Part) : List Byte :=
  let x := lport port s
  let credits := if x.lanes = 4 then 256 else 128
  let codes := (List.range 256).foldl (fun n k => n + bitOf (opClass k).isSome * 2 ^ k) 0
  let body := leBytes 1 1 ++ leBytes 1 1 ++ leBytes 2 (myPart s) ++ leBytes 2 port ++ leBytes 1 x.lanes ++
    leBytes 1 (bitOf x.retraining + bitOf x.rxAny * 2) ++ (List.replicate 8 (leBytes 2 credits)).flatten ++ leBytes 2 maxTags ++
    leBytes 1 (x.rxExp - 1).toNat ++ leBytes 1 0 ++ leBytes 32 codes
  mkFlit (2 + 255 * 2 ^ 24) body

/-! ### Acknowledgement and replay -/

/-- The replay buffer without the flits that an acknowledgement covers; none where it names no flit in it. -/
def ackReplay (seq : Nat) : List (List Byte) → Option (List (List Byte))
  | [] => none
  | f :: fs => if flitSeq f = seq then some fs else ackReplay seq fs

/-- A port after an acknowledgement: progress clears the count of replays (R51). -/
def takeAck (seq : Nat) (x : LPort) : LPort :=
  match ackReplay seq x.replay with
  | some rest => { x with replay := rest, replays := 0 }
  | none => x

/-- A logical port trains again with its queues, credits and tags kept (R51). -/
def retrainPort (port : Nat) (s : Part) : Part :=
  if portActive port s then
    countPort port 65 1 (onPort port (fun x => { x with link := .train, retraining := true, startSeen := false }) s)
  else s

/-- Replay every unacknowledged flit; after REPLAY_LIMIT replays without progress the port retrains (R51). -/
def replayPort (port : Nat) (s : Part) : Part :=
  let x := lport port s
  if x.replay.isEmpty then s
  else if tget s.links.replayLimit (port / 2) 8 ≤ x.replays then retrainPort port s
  else countPort port 64 1 (onPort port (fun y => { y with replays := y.replays + 1, out := y.replay }) s)

/-- The acknowledgement and the credits of a flit (R44, R50, R54). -/
def takeReturns (port : Nat) (f : List Byte) (s : Part) : Part :=
  let h := flitHeader f
  let s := if bitAt h 20 then onPort port (takeAck (field h 19 12)) s else s
  onPort port (fun x =>
    { x with txCredits := (flitCredits f).foldl (fun r c => lset r c.1 (r.getD c.1 0 + c.2)) x.txCredits }) s

/-- The acknowledgement, the NAK and the credits of a flit (R44, R50, R51, R54). -/
def takeLinkHeader (port : Nat) (f : List Byte) (s : Part) : Part :=
  let s := takeReturns port f s
  if bitAt (flitHeader f) 21 then replayPort port s else s

/-! ### Messages in a payload (R46, R373, R374) -/

/-- What a payload holds: whole messages, the message begun, orphan fragments, and whether framing failed (R59). -/
structure Parsed where
  whole   : List (List Byte)
  begun   : Option Partial
  orphans : Nat
  framing : Bool
  deriving DecidableEq, Repr

/-- LEN and the header's class from the first word of a header. -/
def headLen (bs : List Byte) : Nat := field (leAt bs 0 4) 17 11
def headUnits (bs : List Byte) : Nat := hdrUnits (hdrClass (leAt bs 0 1) (field (leAt bs 0 4) 10 8))

/-- Parse message bytes from a place where a header begins (R46, R59). -/
def parseFrom : Nat → List Byte → Parsed
  | 0, _ => { whole := [], begun := none, orphans := 0, framing := false }
  | n + 1, bs =>
    if bs.isEmpty || leAt bs 0 4 = 0 then { whole := [], begun := none, orphans := 0, framing := false }
    else
      let len := headLen bs
      if len < headUnits bs || 80 < len then { whole := [], begun := none, orphans := 0, framing := true }
      else if bs.length < 4 * len then
        { whole := [], begun := some { bytes := bs, need := 4 * len, vc := field (leAt bs 0 4) 10 8 }, orphans := 0,
          framing := false }
      else
        let r := parseFrom n (bs.drop (4 * len))
        { r with whole := bs.take (4 * len) :: r.whole }

/-- Parse a payload after what has begun on the port, or after a truncation (R373, R374). -/
def parsePayload (begun : Option Partial) (needHdr : Bool) (first : Nat) (payload : List Byte) : Parsed :=
  match (if needHdr then none else begun) with
  | none =>
    if 58 < first then { whole := [], begun := none, orphans := 1, framing := false }
    else
      let r := parseFrom 60 (payload.drop (4 * first))
      { r with orphans := if first = 0 then 0 else 1 }
  | some p =>
    let bytes := p.bytes ++ payload
    if bytes.length < p.need then { whole := [], begun := some { p with bytes := bytes }, orphans := 0, framing := false }
    else
      let r := parseFrom 60 (bytes.drop p.need)
      { r with whole := bytes.take p.need :: r.whole }

end Sys2Proof.Machine
end

