-- ==== Sys2Proof/Machine/Ingress.lean ====
section
/-!
DEFINITION. The ingress part: what happens to a message that has arrived whole on a logical port (R53, R54, R58, R59, R76, R231,
R358, R366 to R369, R384), a port that goes down (R371), and truncated messages (R373, R374).
-/

namespace Sys2Proof.Machine

/-! ### Credits -/

/-- An arrival takes the sender's credits (R54). -/
def takeSpace (port vc n : Nat) (s : Part) : Part :=
  onPort port (fun x => { x with rxTaken := lset x.rxTaken vc (x.rxTaken.getD vc 0 + n) }) s

/-- Credits return once a message has been admitted, read or discarded (R54, R358). -/
def freeSpace (port vc n : Nat) (s : Part) : Part :=
  onPort port (fun x =>
    let k := min n (x.rxTaken.getD vc 0)
    { x with
      rxTaken := lset x.rxTaken vc (x.rxTaken.getD vc 0 - k), rxReturn := lset x.rxReturn vc (x.rxReturn.getD vc 0 + k) }) s

/-- The credits of a message return. -/
def freeMsg (port : Nat) (m : Msg) (s : Part) : Part :=
  if port < 256 then freeSpace port m.vc.toNat (creditsOf m) s else s

/-! ### A port that goes down, and truncation -/

/-- The gallery of a logical port (R383). -/
def portGallery (port : Nat) (s : Part) : Nat := tget s.gals.ports port 0

/-- What the ingress part writes in a message from an endpoint (R58, R231). It knows which port a CMP_ACK for itself came by (R121). -/
def rewriteHeader (port : Nat) (m : Msg) (s : Part) : Msg :=
  let op := m.op.toNat
  let g := BitVec.ofNat 3 (portGallery port s)
  let me := BitVec.ofNat 12 (myPart s)
  let m := { m with gallery := g, behalf := none }
  if longHeader (msgClass m) then
    let m := unmarked { m with srcPart := me, srcPort := BitVec.ofNat 9 port }
    let m := if op = 0x03 then { m with oparg := BitVec.ofNat 64 (setField m.oparg.toNat 4 3 0) } else m
    if carriesAddr op then
      let m := { m with dstPart := BitVec.ofNat 12 (field m.addr.toNat 57 46) }
      if msgClass m = .req && op ≠ 0x50 && op ≠ 0x52 then { m with dstPort := 0x1FF } else m
    else m
  else if op = 0x4A then
    { m with srcPart := me, aux := BitVec.ofNat 24 (setField m.aux.toNat 8 0 port) }
  else if op = 0x32 && m.dstPart = me then { m with srcPort := BitVec.ofNat 9 port }
  else m

/-- Refuse a request where it enters the part. An endpoint's is not tracked yet, so its answer is matched as it stands (R64, R65, R76). -/
def refuseEntering (port : Nat) (m : Msg) (status : Nat) (s : Part) : Part :=
  let (op, len) := responseOp m
  let answer := mkResponse m op len status 0 [] false
  let s := if (lport port s).peerYp then emit answer s else answerAtHand port m (pushMatched answer s)
  if status = stRetryLater then s else raiseNotice m status m.dstPart.toNat m.dstPort.toNat 0 s

/-- The message begun on a port is truncated (R373): discarded, counted, and answered if it is an endpoint's request whose header
arrived whole. -/
def truncatePort (port : Nat) (s : Part) : Part :=
  let x := lport port s
  match x.rxPartial with
  | none => s
  | some p =>
    let now := s.cur.timer
    let first : Bool := match x.truncAt with
      | none => true
      | some t => decide (t + 1000000 ≤ now)
    let s := count 2 0 65 1 (onPort port (fun y =>
      { y with
        rxPartial := none, needHdr := true, truncAt := if first then some now else y.truncAt,
        rxReturn := lset y.rxReturn p.vc (y.rxReturn.getD p.vc 0 + ceilDiv p.need 64) }) s)
    let s := if first then note 3 1 none .truncation [port] s else s
    let m := msgOfBytes (p.bytes.take 32)
    if !x.peerYp && 32 ≤ p.bytes.length && msgClass m = .req then refuseEntering port (rewriteHeader port { m with data := [] } s) stUnsupported s
    else s

/-- A logical port leaves for DOWN (R371): its queues are flushed, its begun message is truncated, and the ordered messages that
left by it are sent again (R68). -/
def portGoesDown (port : Nat) (why : Note) (retry : Bool) (s : Part) : Part :=
  let s := truncatePort port (flushPort port s)
  let s := onPort port (fun x =>
    { x with
      link := .down, retraining := false, startSeen := false, replay := [], retryWait := retry,
      rxPartial := none }) s
  retransmitPath port (note 3 1 none why [port] s)

/-- A framing error takes the port down (R59). -/
def framingError (port : Nat) (s : Part) : Part := portGoesDown port .framingError true (countPort port 67 1 s)

/-! ### Policing and mirroring -/

/-- Does word 0 of a flow rule match a message of a port (R366, R378)? -/
def flowMatches (port : Nat) (m : Msg) (w : BitVec 64) : Bool :=
  let n := w.toNat
  bitAt n 54 && (bitAt n 9 || field n 8 0 = port) &&
  field n 17 10 &&& field n 25 18 = m.op.toNat &&& field n 25 18 &&
  (bitAt n 29 || field n 28 26 = m.gallery.toNat) &&
  field n 41 30 &&& field n 53 42 = m.dstPart.toNat &&& field n 53 42

/-- Word 1 of the first flow rule that matches (R366). -/
def flowOf (port : Nat) (m : Msg) (s : Part) : Option Nat :=
  ((s.sw.flows.find? fun p => p.1 % 2 = 0 && flowMatches port m p.2).map fun p => (tget s.sw.flows (p.1 + 1) 0).toNat)

/-- Is a message policed: VC0 and VC1 (R366)? -/
def policed (m : Msg) : Bool := decide (m.vc.toNat < 2)

/-- The policer of a message (R366). -/
def policerOf (port : Nat) (m : Msg) (s : Part) : Option Nat :=
  if !policed m then none
  else
    match flowOf port m s with
    | some w => if bitAt w 10 then some (field w 9 0) else none
    | none => let c := portCfg port s; if c.police then some c.policer else none

/-- The mirror sessions that a message is copied to at ingress, each at most once (R369). -/
def mirrorSessions (port : Nat) (m : Msg) (s : Part) : List Nat :=
  let c := portCfg port s
  let byFlow := match (if policed m then flowOf port m s else none) with
    | some w => if bitAt w 11 then [field w 13 12] else []
    | none => []
  ((if c.mirrorIn then [c.session] else []) ++ byFlow).eraseDups

/-- Copy a message to the mirror sessions that its ingress has chosen for it (R369). -/
def mirrorIn (e : Entry) (m : Msg) (s : Part) : Part := e.seen.foldl (fun s k => mirrorTo k m (e.port / 2) s) s

/-- Counter of a colour (R510). -/
def colourIndex : Colour → Nat
  | .green => 0 | .yellow => 1 | .red => 2

/-- Colour a message by a policer of the part (R367). -/
def colourMsg (port : Nat) (policer : Option Nat) (m : Msg) (s : Part) : Colour × Part :=
  match policer with
  | none => (.green, s)
  | some n =>
    let (c, x) := colourBy (tget s.sw.policers n Policer.reset) (countedLength port m s)
    let s := onSwitch (fun w => { w with policers := tset w.policers n x }) s
    (c, count 4 n (16 + colourIndex c) 1 (count 4 n (19 + colourIndex c) (countedLength port m s) s))

/-- Is a red message of this policer refused (R368)? -/
def refusesRed (policer : Option Nat) (m : Msg) (s : Part) : Bool :=
  match policer with
  | none => false
  | some n => (tget s.sw.policers n Policer.reset).refuse && !markedOrdered m.op.toNat

/-! ### Admission -/

/-- Where a message that crosses this part is admitted: `none` while there is no room (R357), `some none` where it takes none. -/
def roomFor (e : Entry) (m : Msg) (colour : Colour) (s : Part) : Option (Option Space) :=
  let local_ : Bool := answersTo m.dstPart.toNat s
  let out := if !local_ then routePort (saltFor e s) m s
    else if m.dstPort.toNat < 256 then localPort m.dstPort.toNat s else none
  match out with
  | none => some none
  | some p =>
    if !portUp p s || !peerTakes p m s || analysisPort p s then some none
    else (admitSpace m colour false p s).map some

/-- Does the part itself track and number this message: a request of an endpoint (R66, R76)? -/
def sourced (port : Nat) (m : Msg) (s : Part) : Bool := !(lport port s).peerYp && msgClass m = .req

/-- A message for a logical port of this part goes to its egress; an answer once its request has been found (R76), which is kept until
the answer has left (R371). -/
def reachesPort (e : Entry) (space : Option Space) (m : Msg) (s : Part) : Part :=
  if endsTracking m then
    match sourceSees m.dstPort.toNat m s with
    | (some t, s) =>
      let s := onLinks (fun l => { l with answered := tset l.answered (trackKey m.dstPort.toNat m.tag.toNat) t }) s
      toLocalPort m.dstPort.toNat e space m s
    | (none, s) => s
  else toLocalPort m.dstPort.toNat e space m s

/-- A request whose TAG equals that of an outstanding request is discarded (R76). -/
def duplicateTag (port : Nat) (m : Msg) (s : Part) : Part :=
  raiseNotice m stUnsupported m.dstPart.toNat m.dstPort.toNat 4 (countDiscard port s)

/-- Send a message that has its space on its way: to another part, to a logical port, or to an agent of this part. -/
def sendOn (w : Waiting) (space : Option Space) (s : Part) : Part :=
  let m := w.msg
  if m.op = 0x10 && sourced w.entry.port m s then fenceTaken w.entry.port m s
  else if !answersTo m.dstPart.toNat s then toPart w.entry space m (leavesBy w.entry m s)
  else if 256 ≤ m.dstPort.toNat then pushInbox m s
  else if w.issued then toLocalPort m.dstPort.toNat w.entry space m s
  else reachesPort w.entry space m s

/-- Pass on a message that has its colour, or say that it has to wait (R357, R358); its credits return. -/
def passOn (port : Nat) (w : Waiting) (s : Part) : Option Part :=
  (roomFor w.entry w.msg w.colour s).map fun sp => sendOn w sp (if w.holds then freeMsg port w.msg s else s)

/-- Leave a message waiting in ingress space (R358, R368). -/
def leaveWaiting (port : Nat) (w : Waiting) (s : Part) : Part :=
  let key := waitKey port w.msg.vc.toNat
  onSwitch (fun x => { x with waiting := tset x.waiting key (tget x.waiting key [] ++ [w]) }) s

/-- Is the message always sunk: an RSP or DAT message addressed to an agent of the part (R53, R358)? -/
def sunk (m : Msg) (s : Part) : Bool := answersTo m.dstPart.toNat s && 256 ≤ m.dstPort.toNat && 4 ≤ m.vc.toNat

/-- Admit a message behind those of its VC that wait (R358). Cells that find no room are counted by gallery. -/
def admitArrival (port : Nat) (w : Waiting) (s : Part) : Part :=
  let behind := !(tget s.sw.waiting (waitKey port w.msg.vc.toNat) []).isEmpty && !sunk w.msg s
  if behind || w.colour = .red then leaveWaiting port w s
  else (passOn port w s).getD (count 2 (w.msg.gallery.toNat + 1) 64 (cellsOf w.msg) (leaveWaiting port w s))

/-- Count a red message at its policer: refused, or held (R368, R510). -/
def countRed (policer : Option Nat) (refused : Bool) (s : Part) : Part :=
  match policer with
  | some n => count 4 n (if refused then 80 else 81) 1 s
  | none => s

/-- Does the part take on a request of an endpoint (R76)? One whose TAG is outstanding is discarded, one beyond MAX_TAGS is answered
with RETRY_LATER. -/
def acceptance (port : Nat) (w : Waiting) (s : Part) : Option Part :=
  if thas s.links.tracked (trackKey port w.msg.tag.toNat) then
    some (freeMsg port w.msg (duplicateTag port w.msg (mirrorIn w.entry w.msg s)))
  else if maxTags ≤ outstanding port s then
    some (freeMsg port w.msg (refuseEntering port w.msg stRetryLater (mirrorIn w.entry w.msg s)))
  else none

/-- An endpoint's request is accepted (R66, R76): refused, or numbered, tracked and admitted. It is mirrored as it then stands (R58,
R369). -/
def acceptRequest (port : Nat) (w : Waiting) (s : Part) : Part :=
  match acceptance port w s with
  | some s => fencesDrop port (fun m => m = w.msg) s
  | none =>
    let (m, s) := sequenced port w.entry w.msg s
    let s := mirrorIn w.entry m (if expectsAnswer m then track port m s else s)
    admitArrival port { w with msg := m, issued := true } s

/-- Leave an endpoint's request waiting unsent, or go on with it (R66, R68). A FENCE has been accepted by then. -/
def inTurn (port : Nat) (w : Waiting) (s : Part) : Part :=
  if mustWait port (unsentOf port s) w.msg s then leaveUnsent port w s
  else if w.issued then admitArrival port w s else acceptRequest port w s

/-- An endpoint's FENCE arrives (R73, R75, R76): accepted and tracked at once, however long it then waits for its turn. -/
def fenceArrives (port : Nat) (w : Waiting) (s : Part) : Part :=
  match acceptance port w s with
  | some s => s
  | none =>
    let m := { w.msg with dstPart := BitVec.ofNat 12 (myPart s) }
    inTurn port { w with msg := m, issued := true } (acceptFence port false m (mirrorIn w.entry m s))

/-- A message that passed the ingress checks: mirrored, policed and admitted (R357, R366 to R369). An endpoint's requests are
numbered in the order of their arrival, whatever their VC (R66), and mirrored with their numbers (R58, R369). -/
def classified (port : Nat) (m : Msg) (s : Part) : Part :=
  let e : Entry := { port := port, bay := 0, seen := mirrorSessions port m s }
  let p := policerOf port m s
  let (c, s) := colourMsg port p m s
  let w : Waiting := { msg := m, issued := false, colour := c, policer := p, holds := true, entry := e }
  let s := if c = .red then countRed p (refusesRed p m s) s else s
  if c = .red && refusesRed p m s then freeMsg port m (refuseEntering port m stRetryLater (mirrorIn e m s))
  else if !sourced port m s then admitArrival port w (mirrorIn e m s)
  else if m.op = 0x10 then fenceArrives port w s
  else inTurn port w s

/-! ### Checks -/

/-- Is a message discarded by R59? -/
def badForm (m : Msg) : Bool :=
  let op := m.op.toNat
  !(lenSuits op m.len.toNat m.oparg.toNat) || opClass op ≠ some (vcClass m.vc.toNat)

/-- The agents that an endpoint's request without an address may name (R58). -/
def endpointMayName (dstPort : Nat) : Bool := dstPort ∈ [0x103, 0x110, 0x111, 0x112, 0x113, 0x1FF]

/-- May an endpoint not send this message at all (R58, R426)? A FENCE goes to the part itself (R73). -/
def endpointMayNot (m : Msg) : Bool :=
  let op := m.op.toNat
  op ∈ [0x60, 0x61, 0x62] ||
  (msgClass m = .req && (!carriesAddr op || op = 0x50 || op = 0x52) && !endpointMayName m.dstPort.toNat) ||
  (op = 0x10 && m.dstPort.toNat ≠ 0x1FF)

/-- A message that is discarded; a request completes with UNSUPPORTED (R58, R59). -/
def turnAway (port : Nat) (m : Msg) (status : Nat) (s : Part) : Part :=
  let s := freeMsg port m s
  if msgClass m = .req then refuseEntering port m status s else s

/-- The message with as many data bytes as LEN says. -/
def withLen (m : Msg) : Msg :=
  { m with data := sliceBytes m.data 0 (4 * m.len.toNat - 4 * hdrUnits (msgClass m)) }

/-- A message has arrived whole on a logical port. -/
def ingress (port : Nat) (m : Msg) (s : Part) : Part :=
  if !portActive port s then s
  else if m.len.toNat < hdrUnits (msgClass m) || 80 < m.len.toNat then framingError port s
  else
    let m := withLen m
    let s := countPort port 0 1 (countPort port 2 (wireBytes m) (takeSpace port m.vc.toNat (creditsOf m) s))
    let endpoint := !(lport port s).peerYp
    let m := if endpoint then rewriteHeader port m s else m
    if badForm m then turnAway port m stUnsupported (countDiscard port s)
    else if endpoint && endpointMayNot m then turnAway port m stUnsupported (countDiscard port s)
    else if endpoint && msgClass m = .req && !galleryActive m.gallery.toNat s then turnAway port m stGalleryFault s
    else classified port m s

/-! ### Waiting messages -/

/-- Take the first waiting message of a VC. -/
def dropFirstWaiting (key : Nat) (s : Part) : Part :=
  onSwitch (fun x =>
    let rest := (tget x.waiting key []).drop 1
    { x with waiting := if rest.isEmpty then tdel x.waiting key else tset x.waiting key rest }) s

/-- The first message that waits on a VC is admitted if it can be (R357, R358). A port of 256 or more is an internal agent, 256 more
than its number. -/
def admitWaiting (port vc : Nat) (s : Part) : Part :=
  let key := waitKey port vc
  match tget s.sw.waiting key [] with
  | [] => s
  | w :: _ => if w.colour = .red then s else (passOn port w (dropFirstWaiting key s)).getD s

/-- An agent with an unsent request that need not wait any longer. -/
def readyUnsent (s : Part) : Option (Nat × Waiting × List Waiting) :=
  s.links.unsent.findSome? fun p => (takeUnsent p.1 s [] p.2).map fun r => (p.1, r)

/-- Accept, number and send one request that waited unsent (R66, R68). -/
def pumpUnsent (s : Part) : Option Part :=
  (readyUnsent s).map fun (agent, w, rest) =>
    let s := setUnsent agent rest s
    if !w.issued then acceptRequest agent w s
    else if w.msg.op = 0x10 then admitArrival agent w s
    else issueUnsent agent w s

/-- The port to which a discarded queued message is counted: the one it came by, or for a message of an agent the one it is queued
for. -/
def discardPort (port : Nat) (q : Queued) : Nat := if port < 256 then port else q.port

/-- A message whose bytes in the cell buffer cannot be corrected is discarded and counted (R319): of those that came by the crossbar
input of a port on a VC (port 256: from the agents) and wait or stand in a queue, a free choice. Its source sends an ordered one
again, and the requester of any other is left to its completion timeout. -/
def discardFirst (port vc : Nat) (s : Part) : Part :=
  let key := waitKey port vc
  let waits := tget s.sw.waiting key []
  let mine (q : Queued) : Bool := q.msg.vc.toNat = vc && (if port < 256 then q.input = port / 2 && q.space ≠ .engine else q.space = .engine)
  let queued := (allQueued s).filter mine
  let (n, s) := drawFree s
  let i := (Config.freeWord n).toNat % (waits.length + queued.length)
  match waits[i]? with
  | some w =>
    let rest := waits.eraseIdx i
    let s := onSwitch (fun x => { x with waiting := if rest.isEmpty then tdel x.waiting key else tset x.waiting key rest }) s
    countDiscard port ((if w.holds then freeMsg port w.msg else id) s)
  | none =>
    match queued[i - waits.length]? with
    | some q => countDiscard (discardPort port q) (copyGone q (onSwitch (fun x =>
        { x with
          voq := x.voq.erase q
          queues := tmap x.queues fun qs => qs.erase q }) s))
    | none => s

/-- The head of a VC, held red, is coloured again (R368). -/
def recolour (port vc : Nat) (s : Part) : Part :=
  let key := waitKey port vc
  match tget s.sw.waiting key [] with
  | [] => s
  | w :: rest =>
    if w.colour ≠ .red then s
    else
      let (c, s) := colourMsg port w.policer w.msg s
      if c = .red then s
      else admitWaiting port vc (onSwitch (fun x => { x with waiting := tset x.waiting key ({ w with colour := c } :: rest) }) s)

end Sys2Proof.Machine
end

