-- ==== Sys2Proof/Machine/Keccak.lean ====
section
/-!
DEFINITION. SHAKE256 and the other functions of FIPS 202 that the part computes (R397, R471, R475, R476, R482). The state is the 25 lanes of
64 bits, lane x + 5·y.
-/

namespace Sys2Proof.Machine

/-- A lane rotated left. -/
def rotLane (x r : Nat) : Nat := (x <<< r) % 2 ^ 64 ||| x >>> (64 - r)

/-- The rotation offset of each lane. -/
def laneOffsets : List Nat :=
  [0, 1, 62, 28, 27, 36, 44, 6, 55, 20, 3, 10, 43, 25, 39, 41, 45, 15, 21, 8, 18, 2, 61, 56, 14]

/-- The constant of each round. -/
def roundConstants : List Nat :=
  [0x0000000000000001, 0x0000000000008082, 0x800000000000808A, 0x8000000080008000, 0x000000000000808B, 0x0000000080000001,
   0x8000000080008081, 0x8000000000008009, 0x000000000000008A, 0x0000000000000088, 0x0000000080008009, 0x000000008000000A] ++
  [0x000000008000808B, 0x800000000000008B, 0x8000000000008089, 0x8000000000008003, 0x8000000000008002, 0x8000000000000080,
   0x000000000000800A, 0x800000008000000A, 0x8000000080008081, 0x8000000000008080, 0x0000000080000001, 0x8000000080008008]

/-- θ: each lane takes in the parity of two columns. -/
def keccakTheta (a : List Nat) : List Nat :=
  let c := (List.range 5).map fun x =>
    a.getD x 0 ^^^ a.getD (x + 5) 0 ^^^ a.getD (x + 10) 0 ^^^ a.getD (x + 15) 0 ^^^ a.getD (x + 20) 0
  a.mapIdx fun i v => v ^^^ c.getD ((i + 4) % 5) 0 ^^^ rotLane (c.getD ((i + 1) % 5) 0) 1

/-- ρ and π: the lane at (x, y) is rotated and goes to (y, 2x + 3y). -/
def keccakRhoPi (a : List Nat) : List Nat :=
  (List.range 25).map fun i =>
    let src := (i % 5 + 3 * (i / 5)) % 5 + 5 * (i % 5)
    rotLane (a.getD src 0) (laneOffsets.getD src 0)

/-- χ: each lane takes in the two lanes after it in its row. -/
def keccakChi (a : List Nat) : List Nat :=
  a.mapIdx fun i v =>
    let at_ := fun k => a.getD (i / 5 * 5 + (i + k) % 5) 0
    v ^^^ ((at_ 1 ^^^ (2 ^ 64 - 1)) &&& at_ 2)

/-- One round, ι last. -/
def keccakRound (rc : Nat) (a : List Nat) : List Nat :=
  (keccakChi (keccakRhoPi (keccakTheta a))).mapIdx fun i v => if i = 0 then v ^^^ rc else v

/-- The permutation KECCAK-f[1600]. -/
def keccakF (a : List Nat) : List Nat := roundConstants.foldl (fun a rc => keccakRound rc a) a

/-- A block of the input taken into the state. -/
def absorbBlock (block : List Byte) (a : List Nat) : List Nat :=
  keccakF (a.mapIdx fun i v => v ^^^ leAt block (8 * i) 8)

/-- The blocks of the input, the last one padded with a domain's suffix and the closing bit. -/
def absorb (rate suffix : Nat) : Nat → List Byte → List Nat → List Nat
  | 0, _, a => a
  | n + 1, bs, a =>
    if bs.length < rate then
      let pad := patchBytes (sliceBytes bs 0 rate) bs.length [BitVec.ofNat 8 suffix]
      absorbBlock (pad.mapIdx fun i b => if i + 1 = rate then b ^^^ 0x80#8 else b) a
    else absorb rate suffix n (bs.drop rate) (absorbBlock (bs.take rate) a)

/-- Blocks of the output. -/
def squeeze (rate : Nat) : Nat → List Nat → List Byte
  | 0, _ => []
  | n + 1, a => (a.flatMap (leBytes 8)).take rate ++ squeeze rate n (keccakF a)

/-- A sponge's output, `n` bytes of it. -/
def sponge (rate suffix n : Nat) (bs : List Byte) : List Byte :=
  (squeeze rate (n / rate + 1) (absorb rate suffix (bs.length / rate + 1) bs (List.replicate 25 0))).take n

/-- SHAKE128 and SHAKE256 with `n` bytes of output. -/
@[irreducible] def shake128 (n : Nat) (bs : List Byte) : List Byte := sponge 168 0x1F n bs
@[irreducible] def shake256 (n : Nat) (bs : List Byte) : List Byte := sponge 136 0x1F n bs

/-- SHA3-256 and SHA3-512. -/
@[irreducible] def sha3_256 (bs : List Byte) : List Byte := sponge 136 0x06 32 bs
@[irreducible] def sha3_512 (bs : List Byte) : List Byte := sponge 72 0x06 64 bs

/-- A SHAKE256 digest with 512 bits of output, as 64 bytes (R475, R482). -/
def digest (bs : List Byte) : List Byte := shake256 64 bs

end Sys2Proof.Machine
end

