-- ==== Sys2Proof/Machine/MlKem.lean ====
section
/-!
DEFINITION. Decapsulation of ML-KEM-1024 (FIPS 203, R397). A polynomial is the list of its 256 coefficients modulo 3,329.
-/

namespace Sys2Proof.Machine

open Sys2Proof

/-- The modulus. -/
def kemQ : Nat := 3329

/-- `n` values of `d` bits each, least significant bit of byte 0 first (ByteDecode). -/
def bitFields (d n : Nat) (bs : List Byte) : List Nat :=
  let x := ofLe bs
  (List.range n).map fun i => (x >>> (d * i)) % 2 ^ d

/-- The bytes of values of `d` bits each (ByteEncode). -/
def fieldBytes (d : Nat) (vs : List Nat) : List Byte :=
  leBytes (d * vs.length / 8) (vs.foldr (fun v x => v % 2 ^ d + 2 ^ d * x) 0)

/-- A coefficient to `d` bits, and back (Compress, Decompress). -/
def kemCompress (d x : Nat) : Nat := ((2 ^ d * x + kemQ / 2) / kemQ) % 2 ^ d
def kemDecompress (d y : Nat) : Nat := (kemQ * y + 2 ^ (d - 1)) / 2 ^ d

/-- `a ^ n` modulo `q`, by the bits of `n` from the lowest: `k` of them. -/
def powMod (q : Nat) : Nat → Nat → Nat → Nat
  | 0, _, _ => 1
  | k + 1, a, n => (if n % 2 = 1 then a else 1) * powMod q k (a * a % q) (n / 2) % q

/-- The seven low bits of a number in reverse. -/
def bitRev7 (n : Nat) : Nat := (List.range 7).foldl (fun r i => 2 * r + (n >>> i) % 2) 0

/-- A power of the 256th root of unity. -/
def kemZeta (n : Nat) : Nat := powMod kemQ 8 17 n

/-- Polynomials added, subtracted, and scaled. -/
def polyAdd (a b : List Nat) : List Nat := List.zipWith (fun x y => (x + y) % kemQ) a b
def polySub (a b : List Nat) : List Nat := List.zipWith (fun x y => (x + kemQ - y) % kemQ) a b
def polyScale (k : Nat) (a : List Nat) : List Nat := a.map fun x => k * x % kemQ

/-- The number-theoretic transform, from the block numbered `k` down: `d` layers over 2 ^ (d + 1) coefficients. -/
def kemNtt : Nat → Nat → List Nat → List Nat
  | 0, _, a => a
  | d + 1, k, a =>
    let l := a.take (2 ^ (d + 1))
    let r := polyScale (kemZeta (bitRev7 k)) (a.drop (2 ^ (d + 1)))
    kemNtt d (2 * k) (polyAdd l r) ++ kemNtt d (2 * k + 1) (polySub l r)

/-- Its inverse but for the factor 128. -/
def kemInvNtt : Nat → Nat → List Nat → List Nat
  | 0, _, a => a
  | d + 1, k, a =>
    let l := kemInvNtt d (2 * k) (a.take (2 ^ (d + 1)))
    let r := kemInvNtt d (2 * k + 1) (a.drop (2 ^ (d + 1)))
    polyAdd l r ++ polyScale (kemZeta (256 - bitRev7 k)) (polySub l r)

/-- The transform of a polynomial, and back: 3,303 is the inverse of 128. -/
def toNtt (a : List Nat) : List Nat := kemNtt 7 1 a
def ofNtt (a : List Nat) : List Nat := polyScale 3303 (kemInvNtt 7 1 a)

/-- The product of two transforms: 128 products of degree one, each modulo X² − ζ. -/
def nttMulFrom (i : Nat) : List Nat → List Nat → List Nat
  | a0 :: a1 :: a, b0 :: b1 :: b =>
    ((a0 * b0 + a1 * b1 % kemQ * kemZeta (2 * bitRev7 i + 1)) % kemQ) :: ((a0 * b1 + a1 * b0) % kemQ) :: nttMulFrom (i + 1) a b
  | _, _ => []

/-- The product of two transforms. -/
def nttMul (a b : List Nat) : List Nat := nttMulFrom 0 a b

/-- A vector of transforms times another. -/
def nttDot (a b : List (List Nat)) : List Nat :=
  (List.zipWith nttMul a b).foldl polyAdd (List.replicate 256 0)

/-- The values below the modulus in a stream of bytes, two candidates of 12 bits in every three (SampleNTT). -/
def rejectFrom : Nat → List Byte → List Nat
  | n + 1, a :: b :: c :: bs =>
    let d1 := a.toNat + 256 * (b.toNat % 16)
    let d2 := b.toNat / 16 + 16 * c.toNat
    (if d1 < kemQ then [d1] else []) ++ (if d2 < kemQ then [d2] else []) ++ rejectFrom n bs
  | _, _ => []

/-- Entry (i, j) of the public matrix. 840 bytes, 280 turns, are what FIPS 203 allows the sampling to be bounded at. -/
def matrixEntry (rho : List Byte) (i j : Nat) : List Nat :=
  (rejectFrom 280 (shake128 840 (rho ++ leBytes 1 j ++ leBytes 1 i))).take 256

/-- A small polynomial from a seed and a number: the difference of two sums of two bits (PRF, SamplePolyCBD). -/
def smallPoly (seed : List Byte) (n : Nat) : List Nat :=
  (bitFields 4 256 (shake256 128 (seed ++ leBytes 1 n))).map fun v =>
    (v % 2 + v / 2 % 2 + kemQ - v / 4 % 2 - v / 8 % 2) % kemQ

/-- The polynomials of a byte string, `n` of them with `d` bits a coefficient. -/
def polysOf (d n : Nat) (bs : List Byte) : List (List Nat) :=
  (List.range n).map fun i => bitFields d 256 (sliceBytes bs (32 * d * i) (32 * d))

/-- K-PKE.Encrypt for ML-KEM-1024: encapsulation key, message, randomness. -/
def kemEncrypt (ek m r : List Byte) : List Byte :=
  let t := polysOf 12 4 ek
  let rho := sliceBytes ek 1536 32
  let y := (List.range 4).map fun i => toNtt (smallPoly r i)
  let u := (List.range 4).map fun i =>
    polyAdd (ofNtt (nttDot ((List.range 4).map fun j => matrixEntry rho j i) y)) (smallPoly r (4 + i))
  let mu := (bitFields 1 256 m).map (kemDecompress 1)
  let v := polyAdd (polyAdd (ofNtt (nttDot t y)) (smallPoly r 8)) mu
  u.flatMap (fun p => fieldBytes 11 (p.map (kemCompress 11))) ++ fieldBytes 5 (v.map (kemCompress 5))

/-- K-PKE.Decrypt for ML-KEM-1024: secret key, ciphertext. -/
def kemDecrypt (dk c : List Byte) : List Byte :=
  let u := (polysOf 11 4 c).map fun p => p.map (kemDecompress 11)
  let v := (bitFields 5 256 (sliceBytes c 1408 160)).map (kemDecompress 5)
  let w := polySub v (ofNtt (nttDot (polysOf 12 4 dk) (u.map toNtt)))
  fieldBytes 1 (w.map (kemCompress 1))

/-- ML-KEM.Decaps: the shared secret of 32 bytes. The decapsulation key of 3,168 bytes holds the secret key, the encapsulation key, the digest
of that, and the value that stands in for a refused ciphertext. -/
def kemDecaps (dk c : List Byte) : List Byte :=
  let ek := sliceBytes dk 1536 1568
  let m := kemDecrypt (sliceBytes dk 0 1536) c
  let g := sha3_512 (m ++ sliceBytes dk 3104 32)
  if kemEncrypt ek m (sliceBytes g 32 32) = c then sliceBytes g 0 32 else shake256 32 (sliceBytes dk 3136 32 ++ c)

/-- The shared secret that the part's own key gives for a ciphertext (R397). -/
@[irreducible] def mlkemDecap (c : List Byte) : List Byte := kemDecaps (sliceBytes Config.decapKey 0 3168) c

end Sys2Proof.Machine
end

