-- ==== Sys2Proof/Machine/Telemetry.lean ====
section
/-!
DEFINITION. Counters as they are read (R505 to R511, R516 to R518) and the census (R512 to R515, R520). Which counters exist, and
their INDEX numbers, are the model's own: the spec leaves them to TEL_CAT.
-/

namespace Sys2Proof.Machine

/-! ### Which counters exist (R509, R510) -/

/-- Parts of an identifier (R509). -/
def ctrBlock (id : Nat) : Nat := field id 27 23
def ctrInst (id : Nat) : Nat := field id 22 8
def ctrIndex (id : Nat) : Nat := id % 256

/-- A family of counters: its block, its instances, the place of its first counter within a class, and how many WRAP64 and SAT32 counters
and histograms each instance has. -/
structure CtrFamily where
  block : Nat
  first : Nat
  insts : Nat
  at_   : Nat
  wraps : Nat
  sats  : Nat
  hists : Nat
  deriving DecidableEq, Repr

/-- The families of R510. Egress queues, policers and mirror sessions have the INSTANCEs that R509 gives them, so their INDEXes differ: a
queue's begin at 0 of each class, a policer's at 16, a mirror session's at 32. Instances 24 to 36 of MEM are the internal memories of R319,
whose corrected errors they count; no row of the table brings such an error, so they stay 0 (log entry 86). Instances 16 to 23 of PWR are
the throttle levels (log entry 8). -/
def ctrFamilies : List CtrFamily :=
  [⟨1, 0, 1, 0, 4, 1, 0⟩, ⟨2, 0, 1, 0, 1, 8, 0⟩, ⟨2, 1, 8, 0, 5, 1, 1⟩, ⟨3, 0, 256, 0, 6, 6, 0⟩, ⟨4, 0, 8192, 0, 2, 8, 1⟩,
   ⟨4, 0, 1024, 16, 6, 2, 0⟩, ⟨4, 0, 4, 32, 1, 1, 0⟩, ⟨5, 0, 1, 0, 1, 1, 0⟩, ⟨6, 0, 1, 0, 5, 2, 0⟩] ++
  [⟨7, 0, 4096, 0, 32, 8, 0⟩, ⟨8, 0, 32, 0, 3, 5, 0⟩, ⟨9, 0, 256, 0, 3, 8, 1⟩, ⟨10, 0, 80, 0, 5, 2, 0⟩, ⟨11, 0, 24, 0, 5, 4, 0⟩,
   ⟨11, 24, 13, 0, 0, 1, 0⟩, ⟨12, 0, 24, 0, 7, 1, 0⟩, ⟨13, 0, 8, 0, 5, 3, 1⟩, ⟨14, 0, 8, 0, 3, 2, 0⟩, ⟨15, 0, 16, 0, 4, 2, 0⟩,
   ⟨15, 16, 8, 0, 0, 0, 1⟩, ⟨17, 0, 1, 0, 6, 4, 0⟩, ⟨18, 0, 1, 0, 0, 2, 0⟩]

/-- The family of an identifier, if the counter exists. -/
def ctrFamily (id : Nat) : Option CtrFamily :=
  ctrFamilies.find? fun f =>
    f.block = ctrBlock id && f.first ≤ ctrInst id && ctrInst id < f.first + f.insts &&
    (if ctrIsWrap id then f.at_ ≤ ctrIndex id && ctrIndex id < f.at_ + f.wraps
     else if ctrIsSat id then 64 + f.at_ ≤ ctrIndex id && ctrIndex id < 64 + f.at_ + f.sats
     else f.at_ = 0 && (ctrIndex id - 128) / 32 < f.hists)

/-- Identifiers of the two PUBLIC counters (R517): the throttle level with its boundary, and the census state. -/
def idThrottle : Nat := ctrId 15 32 0
def idCensus : Nat := ctrId 16 0 0

/-- Is the counter PUBLIC? -/
def ctrPublic (id : Nat) : Bool := id = idThrottle || id = idCensus

/-- CLASS of a counter (R520): 0 none, 1 WRAP64, 2 SAT32, 3 HIST16. -/
def ctrClass (id : Nat) : Nat :=
  if ctrPublic id then 1
  else if (ctrFamily id).isNone then 0
  else if ctrIsWrap id then 1
  else if ctrIsSat id then 2
  else 3

/-- The gallery of a counter of scope GALLERY (R510, R516). -/
def ctrGallery (id : Nat) : Option Nat :=
  if ctrBlock id = 2 && 1 ≤ ctrInst id && ctrInst id ≤ 8 then some (ctrInst id - 1)
  else if ctrBlock id = 14 && ctrInst id < 8 then some (ctrInst id)
  else none

/-- TEL_CAT as it reads for an identifier (R520). -/
def catWord (id : Nat) : Nat :=
  let scope := if ctrPublic id then 2 else if ctrClass id ≠ 0 && (ctrGallery id).isSome then 1 else 0
  id + ctrClass id * 2 ^ 28 + scope * 2 ^ 30 + (if scope = 1 then (ctrGallery id).getD 0 else 0) * 2 ^ 32

/-! ### Reading (R511, R517, R518) -/

/-- STATE of the census (R520). -/
def censusNum : CensusState → Nat
  | .idle => 0 | .pending => 1 | .running => 2 | .done => 3 | .lost => 4

/-- The two PUBLIC counters as they stand (R517). -/
def throttleCounter (s : Part) : Nat := s.power.level + s.power.boundary * 8
def censusCounter (s : Part) : Nat := censusNum s.tel.census + s.tel.censusId.toNat * 2 ^ 16

/-- The value of a counter in a bank, as TEL_VAL_i returns it (R520). -/
def ctrValue (shadow : Bool) (id : Nat) (s : Part) : Nat :=
  let bank := if shadow then s.tel.shadow else s.tel.live
  if ctrPublic id && shadow then (tget bank id Counter.zero).value
  else if id = idThrottle then throttleCounter s
  else if id = idCensus then censusCounter s
  else if ctrClass id = 0 then 0
  else
    let c := tget bank id Counter.zero
    if ctrIsWrap id then c.value
    else if ctrIsSat id then c.value + bitOf c.ovf * 2 ^ 32
    else c.value + bitOf (tget bank (histBase id) Counter.zero).ovf * 2 ^ 16

/-- The value that function 0, the cores and MGMT_REQ read (R518). -/
def ctrSeen (shadow : Bool) (id : Nat) (s : Part) : Nat :=
  if s.gals.vitrine && ctrClass id = 3 && (ctrGallery id).isSome then 0 else ctrValue shadow id s

/-- TEL_VAL_i for a view (R511). -/
def telVal (view i : Nat) (s : Part) : Nat :=
  let sel := (s.views[view]?.map (·.telSel)).getD 0
  let id := sel % 2 ^ 28 + i
  ctrSeen (bitAt sel 28) (if id % 256 < i then 2 ^ 28 else id) s

/-- A write of TEL_CAT.ID by a view (R520). -/
def telCatQuery (view id : Nat) (s : Part) : Part := onView view (fun w => { w with telCat := id % 2 ^ 28 }) s

/-- A gallery's counters are zeroed, in both banks (R386). -/
def clearGalleryCounters (g : Nat) (s : Part) : Part :=
  let others (t : Table Counter) : Table Counter := t.filter fun p => ctrGallery p.1 ≠ some g
  onTelemetry (fun b => { b with live := others b.live, shadow := others b.shadow }) s

/-- TEL_CLEAR (R508): a SAT32 counter, or a histogram from its first bin. -/
def clearCounter (id : Nat) (s : Part) : Part :=
  if ctrClass id = 2 then onTelemetry (fun b => { b with live := tdel b.live id }) s
  else if ctrClass id = 3 && histBase id = id then
    onTelemetry (fun b => { b with live := b.live.filter fun p => !(128 ≤ p.1 % 256 && histBase p.1 = id) }) s
  else s

/-! ### TEL_REQ (R516) -/

/-- A tenant reads counters of its own gallery, or public ones, through the fabric. -/
def telRequest (m : Msg) (s : Part) : Part :=
  let w := m.oparg.toNat
  let id := field w 27 0
  let shadow := bitAt w 28
  let ids := (List.range (field w 31 29 + 1)).map (id + ·)
  let may (k : Nat) : Bool := ctrPublic k || (ctrClass k ≠ 0 && ctrGallery k = some m.gallery.toNat)
  if ids.all may then
    let data := ids.flatMap fun k => leBytes 8 (ctrValue shadow k s)
    emit (mkResponse m 0x75 data.length stOK (if shadow then s.tel.shadowId.toNat else 0) data false) s
  else
    let n := 8 * ids.length
    raiseNotice m stUnsupported m.dstPart.toNat m.dstPort.toNat 0 (emit (mkResponse m 0x75 n stUnsupported 0 [] false) s)

/-! ### The census (R512 to R515) -/

/-- Does a rinse run (R387)? -/
def rinsing (s : Part) : Bool := s.gals.gals.any fun g => g.state = .rinsing

/-- A TEL_CLEAR of a counter, among the commands of the census sequence (R527). -/
def telClearCmd (id : Nat) : Nat := 2 ^ 32 + id % 2 ^ 28

/-- START (R512, R514), or TEL_CLEAR (R508). -/
def telPerform (view cmd : Nat) (s : Part) : Part :=
  let done (result : Nat) (s : Part) : Part := onTelemetry (fun b => { b with seq := seqEnd view result 0 b.seq }) s
  if 2 ^ 32 ≤ cmd then done 0 (clearCounter (cmd % 2 ^ 28) s)
  else if s.tel.census = .pending || s.tel.census = .running then done 1 s
  else done 0 (onTelemetry (fun b => { b with census := .pending, censusId := b.censusId + 1 }) s)

/-- A write to the census sequence. -/
def writeTelSeq (view cmd : Nat) (s : Part) : Part :=
  writeSeq 16 (·.tel.seq) (fun q => onTelemetry fun b => { b with seq := q }) telPerform view cmd s

/-- A write of TEL_CENSUS_CMD: with START 0 it asks for nothing, but is recorded as any write is while BUSY reads 1 (R520). -/
def writeCensusCmd (view cmd : Nat) (s : Part) : Part :=
  if bitAt cmd 0 then writeTelSeq view cmd s
  else if s.tel.seq.busy.getD view false then note 16 1 none .commandWhileBusy [view, cmd] s
  else s

/-- A write of TEL_CLEAR by a view (R520, R527). -/
def writeTelClear (view id : Nat) (s : Part) : Part := writeTelSeq view (telClearCmd id) s

/-- The scheduler grants the census its turn (R512 steps 2 to 4), where the TELEMETRY class holds its energy (R454): every unit latches its
counters. It waits for a rinse to end (R387). -/
def censusGranted (s : Part) : Part :=
  if s.tel.census = .pending && !rinsing s && canSpend 13 lineCost s then
    let s := spend 13 lineCost s
    let s := onTelemetry (fun b => { b with census := .running, time := s.cur.timer }) s
    onTelemetry (fun b =>
      { b with
        shadow := tset (tset b.live idThrottle { value := throttleCounter s, ovf := false }) idCensus { value := censusCounter s, ovf := false }
        shadowId := b.censusId }) s
  else s

/-- Every unit has closed its shadow bank (R512 steps 5 and 6). -/
def censusCloses (s : Part) : Part :=
  if s.tel.census = .running then
    pushEvent .tel (3 * 2) (s.tel.censusId.toNat * 2 ^ 32) (onTelemetry (fun b => { b with census := .done }) s)
  else s

/-- What a fast reset leaves (R505, R514): SAT32 counters and CENSUS_ID. -/
def resetTelemetry (s : Part) : Part :=
  let lost := s.tel.census = .pending || s.tel.census = .running
  onTelemetry (fun b =>
    { b with
      live := b.live.filter fun p => ctrIsSat p.1
      shadow := [], shadowId := 0, census := if lost then .lost else .idle, time := 0, seq := CmdSeq.reset, events := EventQueue.empty }) s

end Sys2Proof.Machine
end

