-- ==== Sys2Proof/Machine/GalCmds.lean ====
section
/-!
DEFINITION. The gallery commands (R385 to R387, R401, R402, R406), keys and their rotation (R393, R396 to R400), and the
registers of the GAL block (R383, R407 to R410).
-/

namespace Sys2Proof.Machine

/-- Change one gallery. -/
def onGallery (g : Nat) (f : Gallery → Gallery) (s : Part) : Part :=
  onGalleries (fun b => { b with gals := lset b.gals g (f (b.gals.getD g Gallery.reset)) }) s

/-- Queue a gallery event (R412): 1 DRAIN_DONE, 2 RINSE_DONE, 3 ROTATE_DONE. -/
def galEvent (kind g : Nat) (s : Part) : Part := pushEvent .gal (kind * 2 + g * 8) 0 s

/-- A command of GAL_CMD ends for its view. -/
def galEnd (view result : Nat) (s : Part) : Part :=
  onGalleries (fun b => { b with seq := seqEnd view result 0 b.seq }) s

/-- A gallery has reached the state that a view waits for; the view's command ends when it waits for no other (R406). -/
def galReached (g : Nat) (s : Part) : Part :=
  let mine := (s.gals.waitViews.filter fun p => p.2 = g).map (·.1)
  let s := onGalleries (fun b => { b with waitViews := b.waitViews.filter fun p => p.2 ≠ g }) s
  (mine.filter fun v => !(s.gals.waitViews.any fun p => p.1 = v)).foldl (fun s v => galEnd v 0 s) s

/-! ### Rinse (R386, R387) -/

/-- Drop queued messages and waiting ones from the cell buffer; the credits of those in ingress space return. -/
def dropCells (pick : Msg → Bool) (s : Part) : Part :=
  let gone := (s.sw.voq ++ s.sw.queues.flatMap (·.2)).filter fun q => pick q.msg
  let waits := (s.sw.waiting.flatMap (·.2) ++ s.links.unsent.flatMap (·.2)).filter fun w => pick w.msg
  let multi := (s.sw.mcast.filter fun x => pick x.msg).filterMap (·.number)
  let s := onSwitch (fun w =>
    { w with
      mcast := w.mcast.filter fun x => !pick x.msg
      voq := w.voq.filter fun q => !pick q.msg
      queues := (tmap w.queues fun qs => qs.filter fun q => !pick q.msg).filter fun p => !p.2.isEmpty
      waiting := (tmap w.waiting fun ms => ms.filter fun m => !pick m.msg).filter fun p => !p.2.isEmpty }) s
  let s := multi.foldl (fun s n => dropShared n s) (gone.foldl (fun s q => copyGone q s) s)
  let s := onLinks (fun l =>
    { l with unsent := (tmap l.unsent fun ms => ms.filter fun m => !pick m.msg).filter fun p => !p.2.isEmpty }) s
  waits.foldl (fun s w => if w.holds then freeMsg w.entry.port w.msg s else s) s

/-- The gallery of the multicast group that holds member entry `m`. -/
def memberGallery (m : Nat) (s : Part) : Option Nat :=
  (s.clv.groups.find? fun p => groupFirst p.1 s ≤ m && m < groupFirst p.1 s + groupCount p.1 s).map fun p => groupGallery p.1 s

/-- Cells that are held for messages a test picks outside the queues: replay copies, and messages that the resequencer, a check or a
channel unit holds back (R386). -/
def dropHeldCells (pick : Msg → Bool) (s : Part) : Part :=
  let s := onLinks (fun l =>
    { l with
      streams := tmap l.streams fun x => { x with unacked := x.unacked.filter fun u => !pick u.msg }
      reseq := tmap l.reseq fun x => { x with held := x.held.filter fun m => !pick m } }) s
  onChannelUnits (fun b => { b with held := b.held.filter fun m => !pick m }) s

/-- Commands that are BUSY with an engine's work for galleries that a test picks end, since what they were bringing is cleared: a LOAD of a
program with BAD_PROGRAM, a LOAD of a table as one that cannot be read, a DROP as done, a START of an UNFOLD with BAD_STATE. DESIGN
CHOICE, log entry 54. -/
def endBusy (pick : Nat → Bool) (s : Part) : Part :=
  let s := match s.str.load with
    | some r => if pick (loadGallery r s) then strEnd r.view r.stream 3 (onStreaming (fun b => { b with load := none }) s) else s
    | none => s
  let s := match s.cmp.slotRun with
    | some r => if pick (foldSlot r.slot s).gallery then slotEnd r.view (if r.load then 5 else 0) s else s
    | none => s
  match s.cmp.check with
  | some c => if pick (jdGallery c.run.desc) then jobEnd c.view c.job 2 (onCompression (fun b => { b with check := none }) s) else s
  | none => s

/-- What the mending engines and the gather and filter units still hold of galleries that a test picks: the tile in work, the factor sets
of streams that are gone, panels, and line reads that nothing waits for. -/
def rinseScratch (pick : Nat → Bool) (s : Part) : Part :=
  let open_ (i : Nat) : Bool := s.str.streams.any fun p => p.1 = i && !pick p.2.gallery
  let ofGallery (unit tag : Nat) : Bool := s.links.tracked.any fun p =>
    p.2.msg.srcPort.toNat = (if unit < 16 then 0x111 else 0x112) && p.2.msg.tag.toNat = tag && pick p.2.msg.gallery.toNat
  let s := onGatherFilter (fun b => { b with loose := b.loose.filter fun l => !ofGallery l.1 l.2 }) s
  onCompression (fun b =>
    { b with
      mend := b.mend.map fun e =>
        { e with
          current := e.current.filter fun c => open_ c.1
          panels := e.panels.filter fun p => !((p.grant.head?.map pick).getD false) }
      mendSets := b.mendSets.filter fun m => open_ m.1 }) s

/-- Engine and service registers of a gallery (R386). -/
def rinseEngines (g : Nat) (s : Part) : Part :=
  let s := rinseScratch (· = g) (endBusy (· = g) s)
  let mcm := s.clv.members.filter fun p => memberGallery p.1 s ≠ some g
  let s := onCollectives (fun b =>
    { b with
      contexts := b.contexts.filter fun p => ctxGallery p.2.desc ≠ g
      waiting := b.waiting.filter fun m => m.gallery.toNat ≠ g
      groups := b.groups.filter fun p => field p.2.toNat 28 26 ≠ g
      members := mcm }) s
  let s := onStreaming (fun b => { b with streams := b.streams.filter fun p => p.2.gallery ≠ g }) s
  let s := onGatherFilter (fun b => { b with requests := b.requests.filter fun p => p.2.req.gallery.toNat ≠ g }) s
  let s := onChannelUnits (fun b => { b with cmds := b.cmds.filter fun c => chuGallery c.desc ≠ g }) s
  onCompression (fun b =>
    { b with
      jobs := b.jobs.filter fun p => jdGallery p.2.desc ≠ g
      slots := tmap b.slots fun x => if x.gallery = g then { x with old := none, new := none } else x }) s

/-- Both key slots and the binding entries of a gallery are zeroised (R386). -/
def rinseKeys (g : Nat) (s : Part) : Part :=
  onGallery g (fun x => { x with current := none, previous := none, rotating := false })
    (onGalleries (fun b => { b with bindings := b.bindings.filter fun p => p.2.gallery ≠ g }) s)

/-- What RINSE clears of a gallery (R386). -/
def rinseGallery (g : Nat) (s : Part) : Part :=
  let s := dropHeldCells (fun m => m.gallery.toNat = g) (dropCells (fun m => m.gallery.toNat = g) (rinseEngines g s))
  let s := clearGalleryCounters g s
  let s := onRecovery (fun b => { b with faults := lset b.faults g { b.faults.getD g FaultQueue.empty with entries := [], overflow := false } }) s
  rinseKeys g s

/-- What RINSE_ALL clears in addition (R386). -/
def rinsePart (s : Part) : Part :=
  let s := rinseScratch (fun _ => true) (endBusy (fun _ => true) s)
  let s := dropHeldCells (fun _ => true) (dropCells (fun _ => true) s)
  let s := onCollectives (fun b => { b with contexts := [], waiting := [], groups := [], members := [] }) s
  let s := onStreaming (fun b => { b with streams := [] }) s
  let s := onGatherFilter (fun b => { b with requests := [] }) s
  let s := onChannelUnits (fun b => { b with cmds := [] }) s
  let s := onCompression (fun b =>
    { b with
      jobs := [], slots := tmap b.slots fun x => { x with old := none, new := none } }) s
  let s := onTelemetry (fun b => { b with live := [], shadow := [] }) s
  let s := (List.range 8).foldl (fun s g => rinseKeys g s) s
  onGalleries (fun b => { b with colls := [] }) s

/-- A rinse of galleries starts (R386): all is cleared at its start, and it ends at RINSE_COMPLETE. -/
def rinseStarts (gs : List Nat) (all : Bool) (s : Part) : Part :=
  let s := onGalleries (fun b => { b with rinseFull := all && !gs.isEmpty }) s
  let s := gs.foldl (fun s g => onGallery g (fun x => { x with state := .rinsing }) (rinseGallery g s)) s
  if all then rinsePart s else s

/-- The command of a rinse with nothing to wait for ends at once. -/
def rinseIdle (view : Nat) (gs : List Nat) (s : Part) : Part := if gs.isEmpty then galEnd view 0 s else s

/-- RINSE or RINSE_ALL, which a running census delays (R387). -/
def rinse (view : Nat) (gs : List Nat) (all : Bool) (s : Part) : Part :=
  let s := onGalleries (fun b => { b with waitViews := b.waitViews ++ gs.map fun g => (view, g) }) s
  if s.tel.census = .running then onGalleries (fun b => { b with rinseWait := gs, rinseAll := all, rinseView := some view }) s
  else rinseIdle view gs (rinseStarts gs all s)

/-- RINSE_DEFERRED_START (R387): the census has ended. -/
def rinseDeferred (s : Part) : Part :=
  match s.gals.rinseView with
  | none => s
  | some v =>
    if s.tel.census = .running then s
    else
      let gs := s.gals.rinseWait
      let all := s.gals.rinseAll
      rinseIdle v gs (rinseStarts gs all (onGalleries (fun b => { b with rinseWait := [], rinseAll := false, rinseView := none }) s))

/-- RINSE_COMPLETE (R385, R387). -/
def rinseEnds (g : Nat) (s : Part) : Part :=
  if (gallery g s).state = .rinsing then
    let s := onGallery g (fun x => { x with state := .vacant }) (count 14 g 1 1 s)
    let s := if s.gals.gals.any fun x => x.state = .rinsing then s else onGalleries (fun b => { b with rinseFull := false }) s
    galReached g (galEvent 2 g s)
  else s

/-! ### Vitrine mode (R402, R403) -/

/-- Enter Vitrine mode: mirror sessions stop and their copies go (R370), the flip mask is disarmed (R318). -/
def enterVitrine (fromRecord : Bool) (s : Part) : Part :=
  if s.gals.vitrine then s
  else
    let s := onGalleries (fun b => { b with vitrine := true, fromRecord := fromRecord }) s
    let s := onSwitch (fun w =>
      { w with
        mirrors := w.mirrors.map fun m => { m with enable := false }
        voq := w.voq.filter fun q => !q.copy
        queues := (tmap w.queues fun qs => qs.filter fun q => !q.copy).filter fun p => !p.2.isEmpty }) s
    let s := onDram (fun d => { d with flipCtrl := BitVec.ofNat 32 (setField d.flipCtrl.toNat 25 25 0) }) s
    note 14 1 none .vitrineEntered [bitOf fromRecord] s

/-! ### Commands (R385, R401, R406) -/

/-- DISABLE of an ACTIVE gallery. -/
def disableGal (view g : Nat) (s : Part) : Part :=
  if (gallery g s).state ≠ .active then galEnd view 2 s
  else
    let s := onGallery g (fun x => { x with state := .draining }) s
    drainGallery g (onGalleries (fun b => { b with waitViews := b.waitViews ++ [(view, g)] }) s)

/-- GALLERY_DRAIN_END (R385): the last work of a draining gallery has ended. -/
def galDrainEnds (g : Nat) (s : Part) : Part :=
  if (gallery g s).state = .draining && galIdle g s then
    galReached g (galEvent 1 g (onGallery g (fun x => { x with state := .disabled }) s))
  else s

/-- ENABLE (R385). -/
def enableGal (view g : Nat) (s : Part) : Part :=
  let x := gallery g s
  let go (s : Part) : Part := galEnd view 0 (onGallery g (fun x => { x with state := .active }) s)
  match x.state with
  | .vacant => if x.current.isSome then go s else galEnd view 3 s
  | .disabled => go s
  | _ => galEnd view 2 s

/-- A binding entry. -/
def bindEntry (n : Nat) (s : Part) : Binding := tget s.gals.bindings n Binding.blank

/-- Perform a command of GAL_CMD (R385, R406). -/
def galPerform (view cmd : Nat) (s : Part) : Part :=
  let g := field cmd 6 4
  let n := field cmd 13 8
  match field cmd 3 0 with
  | 1 => disableGal view g s
  | 2 => enableGal view g s
  | 3 => if (gallery g s).state = .disabled then rinse view [g] false s else galEnd view 2 s
  | 4 =>
    let still (x : Gallery) : Bool := x.state = .disabled || x.state = .vacant
    if s.gals.gals.all still then
      rinse view ((List.range 8).filter fun g => (gallery g s).state = .disabled) true s
    else galEnd view 2 s
  | 5 => galEnd view 0 (enterVitrine false s)
  | 6 =>
    if (bindEntry n s).state = .importing then
      galEnd view 0 (onGalleries (fun b => { b with bindings := tset b.bindings n { bindEntry n s with state := .sealed } }) s)
    else galEnd view 2 s
  | 7 =>
    if (bindEntry n s).state = .free then galEnd view 2 s
    else galEnd view 0 (onGalleries (fun b => { b with bindings := tdel b.bindings n }) s)
  | _ => galEnd view 2 s

/-- A write of GAL_CMD. -/
def writeGalCmd (view cmd : Nat) (s : Part) : Part :=
  writeSeq 14 (·.gals.seq) (fun q => onGalleries fun b => { b with seq := q }) galPerform view cmd s

/-! ### Keys (R393, R396 to R401) -/

/-- Fields of a key message (R396). -/
def kmKind (p : List Byte) : Nat := leAt p 0 1
def kmGallery (p : List Byte) : Nat := field (leAt p 1 1) 2 0
def kmPrevious (p : List Byte) : Bool := bitAt (leAt p 1 1) 3
def kmStreamOnly (p : List Byte) : Bool := bitAt (leAt p 1 1) 4
def kmEpoch (p : List Byte) : Nat := leAt p 2 2
def kmColl (p : List Byte) : Nat := leAt p 4 1
def kmEntry (p : List Byte) : Nat := leAt p 5 1
def kmId (p : List Byte) : Nat := leAt p 8 8
def kmObject (p : List Byte) : Nat := leAt p 16 8
def kmWrapped (p : List Byte) : List Byte :=
  (p.drop 24).take 40 ++ (if kmKind p = 3 then [] else if kmKind p = 4 then (p.drop 64).take 32 else (p.drop 1632).take 32)
def kmCt (p : List Byte) : List Byte := if kmKind p = 4 then [] else (p.drop 64).take 1568

/-- Length of a key message (R566). -/
def kmLength (kind : Nat) : Nat := if kind = 3 then 1632 else if kind = 4 then 96 else 1664

/-- Are the fields of a key message within their values, and zero where R396 says zero (R566): EPOCH, OBJECT and the reserved bits? COLL,
ENTRY and ID of a kind that does not use them may hold anything. -/
def kmFieldsOk (p : List Byte) : Bool :=
  let k := kmKind p
  let keyed := decide (k ≤ 2)
  decide (field (leAt p 1 1) 7 5 = 0) && leAt p 6 2 = 0 &&
  (if keyed then kmEpoch p ≠ 0 && kmEpoch p ≠ 0xFFFF && kmObject p = 0
   else if k = 3 then kmEpoch p = 0 && decide (kmColl p < 16) && kmObject p = 0
   else kmEpoch p = 0 && decide (kmColl p < 16) && decide (kmEntry p < 64))

/-- The epoch that follows another, in the wrap of R393. -/
def nextEpoch (e : Nat) : Nat := if e = 0xFFFE then 1 else e + 1

/-- The 46 bytes from which the key-wrapping key of a message of kinds 1 to 3 is derived (R397). -/
def wrapInput (p : List Byte) (s : Part) : List Byte :=
  mlkemDecap (kmCt p) ++ leBytes 1 (kmKind p) ++ leBytes 1 (kmGallery p) ++ leBytes 2 (kmEpoch p) ++
  leBytes 8 (kmId p) ++ leBytes 2 (myPart s)

/-- The key of a message of kinds 1 to 3, unwrapped under the first 256 bits of SHAKE256 of that input (R397). -/
def kmKey (p : List Byte) (s : Part) : Option Nat := aesUnwrap (ofLe (shake256 32 (wrapInput p s))) (kmWrapped p)

/-- Count a BAD_KEY refusal (R412). -/
def badKey (p : List Byte) (s : Part) : Nat × Part := (5, count 14 (kmGallery p) 64 1 s)

/-- KEY_INSTALL (R398): its RESULT and what it does. -/
def keyInstall (p : List Byte) (s : Part) : Nat × Part :=
  let g := kmGallery p
  let x := gallery g s
  let e := kmEpoch p
  match kmKey p s with
  | none => badKey p s
  | some k =>
    let slot : KeySlot := { epoch := e, key := k }
    if !kmPrevious p then
      if x.state = .vacant || x.current.isNone then
        (0, onGallery g (fun x => { x with current := some slot, previous := none }) s)
      else (4, s)
    else
      match x.current with
      | some c =>
        if x.previous.isNone && nextEpoch e = c.epoch then (0, onGallery g (fun x => { x with previous := some slot }) s)
        else (4, s)
      | none => (4, s)

/-- ROTATE (R399). -/
def keyRotate (p : List Byte) (s : Part) : Nat × Part :=
  let g := kmGallery p
  let x := gallery g s
  match kmKey p s with
  | none => badKey p s
  | some k =>
    if x.rotating then (3, s)
    else
      match x.current with
      | some c =>
        if x.state = .active && x.previous.isNone && kmEpoch p = nextEpoch c.epoch then
          (0, onGallery g (fun x =>
            { x with previous := some c, current := some { epoch := kmEpoch p, key := k }, rotating := true }) s)
        else (4, s)
      | none => (4, s)

/-- COLLECTION_LOAD (R400). -/
def collectionLoad (p : List Byte) (s : Part) : Nat × Part :=
  match kmKey p s with
  | none => badKey p s
  | some k =>
    if thas s.gals.colls (kmColl p) then (4, s)
    else (0, onGalleries (fun b => { b with colls := tset b.colls (kmColl p) k }) s)

/-- The local extents of an object that are not FREE. -/
def localExtents (object : Nat) (s : Part) : List (Nat × Extent) :=
  s.pool.extents.filter fun p => p.2.state ≠ .free && p.2.object.toNat = object

/-- May the object be bound (R401)? -/
def bindOk (p : List Byte) (s : Part) : Bool :=
  let xs := localExtents (kmObject p) s
  !xs.isEmpty && xs.all fun q =>
    q.2.state = .live && (q.2.cls = .owned || q.2.cls = .edition) && (q.2.place = .interleaved || q.2.place = .channelLocal) &&
    q.2.gallery = kmGallery p

/-- BIND (R400, R401). -/
def bindMessage (p : List Byte) (s : Part) : Nat × Part :=
  match (tget? s.gals.colls (kmColl p)).bind fun c => aesUnwrap c (kmWrapped p) with
  | none => badKey p s
  | some k =>
    if (bindEntry (kmEntry p) s).state ≠ .free || !bindOk p s then (4, s)
    else
      let b : Binding :=
        { object := BitVec.ofNat 64 (kmObject p), bindId := kmId p, state := .importing, gallery := kmGallery p, coll := kmColl p,
          streamOnly := kmStreamOnly p, key := k }
      let s := onGalleries (fun x => { x with bindings := tset x.bindings (kmEntry p) b }) s
      (0, (localExtents (kmObject p) s).foldl (fun s q =>
        (List.range 4096).foldl (fun s i => setTag (q.1 * 4096 + i) 0 0 s) s) s)

/-! ### Rotation (R399, R408) -/

/-- The gallery of a page's data. -/
def pageGallery (page : Nat) (s : Part) : Nat := (pageUnit page s).1.gallery

/-- OLD_PAGES and OLD_FLASH of a gallery (R408). -/
def oldPages (g : Nat) (s : Part) : List Nat :=
  match (gallery g s).previous with
  | none => []
  | some k => (s.gals.tags.filter fun p => p.2.epoch = k.epoch && p.1 / 4096 < 0x4000 && pageGallery p.1 s = g).map (·.1)
def oldFlash (g : Nat) (s : Part) : List Nat :=
  match (gallery g s).previous with
  | none => []
  | some k =>
    (s.flt.bound.filter fun p =>
      p.2.keyEpoch = k.epoch && (extentAt p.1 s).state = .live && (extentAt p.1 s).gallery = g).map (·.1)

/-- REENCRYPT_PAGE (R399 step 4): a DRAM page, or the lines of a loan page at their lender; a page tagged PREVIOUS in a gallery that rotates, where the REENC class has energy (R456). -/
def reencryptsPage (page : Nat) (s : Part) : Part :=
  let (x, i) := pageUnit page s
  let g := gallery x.gallery s
  if canSpend 11 pageCost s && g.rotating && (g.previous.map (·.epoch)) = some (pageTag page s).epoch && thas s.gals.tags page then
    let s := spend 11 pageCost s
    if x.place = .loan then startLoanPage page s else reencryptPage x page i s
  else s

/-- A rotation that has nothing left to do ends (R399 step 6). -/
def pumpRotation (s : Part) : Option Part :=
  match (List.range 8).find? fun g => (gallery g s).rotating && (oldPages g s).isEmpty && (oldFlash g s).isEmpty with
  | some g => some (galEvent 3 g (onGallery g (fun x => { x with previous := none, rotating := false }) s))
  | none => none

/-! ### Registers (R383, R407, R409, R410) -/

/-- A write of GAL_CTRL_g (R403, R407): STATE is not written. -/
def writeGalCtrl (g v : Nat) (s : Part) : Part :=
  let x := gallery g s
  if field v 7 0 = 0 then note 14 1 (some g) .outOfRange [0x0100 + 4 * g, v] s
  else if s.gals.vitrine && x.priv && !bitAt v 9 then note 14 1 (some g) .privateKept [g, v] s
  else onGallery g (fun x => { x with slice := field v 7 0, strict := bitAt v 8, priv := bitAt v 9 }) s

/-- A write of GAL_PORT_n (R383), nibble by nibble. -/
def writeGalPort (n v : Nat) (s : Part) : Part :=
  (List.range 8).foldl (fun s k =>
    let p := 8 * n + k
    let new := field v (4 * k + 2) (4 * k)
    if new = portGallery p s then s
    else if tget s.links.enable (p / 2) false then note 14 1 none .galleryPort [p, new] s
    else onGalleries (fun b => { b with ports := tset b.ports p new }) s) s

/-- GAL_KEY_g word 0 (R408). -/
def galKeyWord (g : Nat) (s : Part) : Nat :=
  let x := gallery g s
  let ep (k : Option KeySlot) : Nat := (k.map (·.epoch)).getD 0
  ep x.current + ep x.previous * 2 ^ 16 + bitOf x.current.isSome * 2 ^ 32 + bitOf x.previous.isSome * 2 ^ 33 +
  bitOf x.rotating * 2 ^ 34 + (oldPages g s).length % 2 ^ 27 * 2 ^ 36

/-- The number of a gallery state (R407). -/
def galStateNum : GalState → Nat
  | .vacant => 0 | .active => 1 | .draining => 2 | .disabled => 3 | .rinsing => 4

/-- GAL_CTRL_g as it reads (R407). -/
def galCtrlWord (g : Nat) (s : Part) : Nat :=
  let x := gallery g s
  x.slice + bitOf x.strict * 2 ^ 8 + bitOf x.priv * 2 ^ 9 + galStateNum x.state * 2 ^ 10

/-- GAL_BIND_n word 1 (R411). -/
def galBindWord (n : Nat) (s : Part) : Nat :=
  let b := bindEntry n s
  let st := match b.state with | .free => 0 | .importing => 1 | .sealed => 2
  st + b.gallery * 2 ^ 2 + b.coll * 2 ^ 5 + bitOf b.streamOnly * 2 ^ 9

/-- What a fast reset leaves of the galleries (R385, R387): a DRAINING gallery becomes DISABLED, and DRAIN_DONE follows the
rejoin; a rinse starts again, a RINSE_ALL whole. The answer lists the galleries that have drained. -/
def resetGalleries (s : Part) : List Nat × Part :=
  let drained := (List.range 8).filter fun g => (gallery g s).state = .draining
  let s := drained.foldl (fun s g => onGallery g (fun x => { x with state := .disabled }) s) s
  let s := onGalleries (fun b =>
    { b with
      seq := CmdSeq.reset, events := EventQueue.empty, rinseWait := [], rinseAll := false, rinseView := none, waitViews := [] }) s
  let again := (List.range 8).filter fun g => (gallery g s).state = .rinsing
  (drained, rinseStarts again s.gals.rinseFull s)

end Sys2Proof.Machine
end

