-- ==== Sys2Proof/Machine/Links.lean ====
section
/-!
DEFINITION. Link bring-up, link-level replay and flit reception (R42 to R51, R78), and the start of messages at a transmitter
(R361).
-/

namespace Sys2Proof.Machine

/-! ### Enabling (R42, R47, R78) -/

/-- Is the physical port broken out? -/
def brokenOut (fp : Nat) (s : Part) : Bool := tget s.links.breakout fp false

/-- The logical ports of a physical port (R42). -/
def portsOf (fp : Nat) (s : Part) : List Nat := if brokenOut fp s then [2 * fp, 2 * fp + 1] else [2 * fp]

/-- Is the logical port's physical port enabled, and not taken down by Eco (R451)? -/
def portEnabled (port : Nat) (s : Part) : Bool := tget s.links.enable (port / 2) false && !(port / 2 ∈ s.power.ecoDown)

/-- Do links run: the core die is on with its clock, and boot step 10 has come (R478, R550)? -/
def linksRun (s : Part) : Bool := s.cur.power = .coreOn && s.cur.coreRefclk && 10 ≤ s.cur.phase && s.cur.phase ≤ 12

/-- A logical port that is down begins TRAIN (R47). -/
def beginTrain (port : Nat) (s : Part) : Part :=
  let lanes := if brokenOut (port / 2) s then 2 else 4
  onPort port (fun x =>
    if x.link = .down then { x with link := .train, lanes := lanes, retraining := false, startSeen := false } else x) s

/-- Set ENABLE of a physical port (R47, R78). -/
def linkEnable (fp : Nat) (s : Part) : Part :=
  let s := onLinks (fun l => { l with enable := tset l.enable fp true }) s
  if linksRun s && !(fp ∈ s.power.ecoDown) then (portsOf fp s).foldl (fun s p => beginTrain p s) s else s

/-- Take a logical port down because it is disabled. -/
def disablePort (port : Nat) (s : Part) : Part :=
  if (lport port s).link = .down then onPort port (fun x => { x with retryWait := false }) s
  else portGoesDown port .portDown false s

/-- Clear ENABLE of a physical port (R47, R371). -/
def linkDisable (fp : Nat) (s : Part) : Part :=
  let s := onLinks (fun l => { l with enable := tset l.enable fp false }) s
  (portsOf fp s).foldl (fun s p => disablePort p s) s

/-! ### Training (R47) -/

/-- The start ordered set (R43): a control block of type 0x4B, data bytes 0x58, 0x4C and 0x01, and O code 0xA; its other bytes are zero
(PRESUMED: the block's layout in IEEE 802.3, log entry 79). -/
def startOrderedSet : List Byte := [0x4B, 0x58, 0x4C, 0x01, 0x0A, 0, 0, 0]

/-- The NULL flit of a port that has nothing to acknowledge (R46). -/
def idleFlit (x : LPort) : List Byte := mkFlit (txHeader 0 0 255 false [] x) []

/-- Change the state of a port that is in a given state. In ALIGN, after PCS lock, the start ordered set goes out, and NULL flits follow
it (R43, R47). -/
def linkMoves (port : Nat) (src dst : LinkState) (s : Part) : Part :=
  if (lport port s).link = src then
    onPort port (fun x =>
      { x with link := dst, startSeen := false, out := if dst = .align then [startOrderedSet, idleFlit x] else x.out }) s
  else s

/-- What failed in bring-up, as the daybook names it (R47): TRAIN, or the parameter of INIT that does not suit, or its absence. -/
inductive BringUpFailure | train | version | kind | lanes | noInit
  deriving DecidableEq, Repr

/-- The detail of the daybook event of a failure. -/
def BringUpFailure.detail : BringUpFailure → Nat
  | .train => 0 | .version => 1 | .kind => 2 | .lanes => 3 | .noInit => 4

/-- TRAIN failed, or PARAM did (R47): DOWN and a daybook event that names the mismatch; a new attempt follows after 1 s. -/
def bringUpFails (port : Nat) (why : BringUpFailure) (s : Part) : Part :=
  let code : Note := if why = .train then .trainFailed else .paramMismatch
  if (lport port s).retraining then note 3 1 none code [port, why.detail] (portGoesDown port .portDown true s)
  else note 3 1 none code [port, why.detail] (onPort port (fun x => { x with link := .down, retryWait := true, startSeen := false }) s)

/-- TRAIN has not ended within 500 ms (R47). -/
def trainTimeout (port : Nat) (s : Part) : Part :=
  if (lport port s).link = .train then bringUpFails port .train s else s

/-- A new attempt, 1 s after the last (R47). -/
def trainRetry (port : Nat) (s : Part) : Part :=
  if portEnabled port s && linksRun s && (port % 2 = 0 || brokenOut (port / 2) s) then beginTrain port s else s

/-- The peer's start ordered set has come (R43): the INIT flit is sent. -/
def startSet (port : Nat) (s : Part) : Part :=
  if (lport port s).link = .align then
    let f := initFlit port s
    onPort port (fun x => { x with link := .param, startSeen := true, out := [f] }) s
  else s

/-- PARAM has not ended within 1 ms (R47). -/
def paramTimeout (port : Nat) (s : Part) : Part :=
  if (lport port s).link = .param then bringUpFails port .noInit s else s

/-- Retraining has not ended within 100 ms (R51, R371). -/
def retrainTimeout (port : Nat) (s : Part) : Part :=
  if (lport port s).retraining then portGoesDown port .portDown true s else s

/-- A port loses block, alignment-marker or FEC lock (R47, R51). -/
def lockLost (port : Nat) (s : Part) : Part :=
  match (lport port s).link with
  | .active => retrainPort port s
  | .lock | .align | .param => onPort port (fun x => { x with link := .train, startSeen := false }) s
  | _ => s

/-! ### INIT (R48, R49) -/

/-- Parameters of an INIT flit. -/
def initVersion (f : List Byte) : Nat := leAt (flitPayload f) 0 1
def initKind (f : List Byte) : Nat := leAt (flitPayload f) 1 1
def initLanes (f : List Byte) : Nat := leAt (flitPayload f) 6 1
def initFlags (f : List Byte) : Nat := leAt (flitPayload f) 7 1
def initCredits (f : List Byte) : List Nat := (List.range 8).map fun v => leAt (flitPayload f) (8 + 2 * v) 2

/-- Does the peer's INIT suit the port? -/
def initSuits (x : LPort) (f : List Byte) : Bool :=
  initVersion f = 1 && (initKind f = 1 || initKind f = 2) && initLanes f = x.lanes

/-- The first parameter of an INIT that does not suit. -/
def initMismatch (f : List Byte) : BringUpFailure :=
  if initVersion f ≠ 1 then .version else if initKind f ≠ 1 && initKind f ≠ 2 then .kind else .lanes

/-- A port that has just become ACTIVE from DOWN. -/
def freshActive (f : List Byte) (x : LPort) : LPort :=
  { x with
    link := .active, peerYp := initKind f = 1, peerPart := leAt (flitPayload f) 2 2, peerPort := leAt (flitPayload f) 4 2,
    txCredits := initCredits f, offered := initCredits f, rxTaken := List.replicate 8 0, rxReturn := List.replicate 8 0,
    maxTags := leAt (flitPayload f) 24 2, opMap := leAt (flitPayload f) 28 32, rxExp := 0, rxAny := false, txSeq := 0,
    replay := [], nakSent := false, replays := 0, unacked := 0, retryWait := false, rxPartial := none, needHdr := false,
    out := [] }

/-- A port that is ACTIVE again after retraining (R51): its peer's LAST_RX_SEQ acknowledges, and the rest is replayed. -/
def againActive (f : List Byte) (x : LPort) : LPort :=
  let x := if bitAt (initFlags f) 1 then takeAck (leAt (flitPayload f) 26 1) x else x
  { x with link := .active, retraining := false, nakSent := false, replays := 0, retryWait := false, out := x.replay }

/-- The peer's INIT flit has come (R48). Its link header counts too: credits return in any flit type (R54), so that they count of a
CONTROL flit that comes once the port is ACTIVE. -/
def takeInit (port : Nat) (f : List Byte) (s : Part) : Part :=
  let x := lport port s
  if !flitGood f || flitType f ≠ 2 then s
  else if x.link = .active then takeLinkHeader port f (countPort port 4 1 s)
  else if x.link ≠ .param then s
  else if !initSuits x f then bringUpFails port (initMismatch f) s
  else takeLinkHeader port f (zeroTimes port (onPort port (if x.retraining then againActive f else freshActive f) s))

/-! ### Flits (R44 to R46, R50, R51) -/

/-- A flit fails its CRC (R51): it is discarded, and one NAK is sent. -/
def badFlit (port : Nat) (s : Part) : Part :=
  let s := countPort port 66 1 s
  if (lport port s).nakSent then s
  else sendNull port true (onPort port (fun x => { x with nakSent := true }) s)

/-- The bytes of a payload are taken (R46, R59, R373, R374). -/
def takePayload (port first : Nat) (payload : List Byte) (s : Part) : Part :=
  let x := lport port s
  let r := parsePayload x.rxPartial x.needHdr first payload
  let s := onPort port (fun y => { y with rxPartial := r.begun, needHdr := y.needHdr && decide (58 < first) }) s
  let s := if r.orphans = 0 then s else count 2 0 66 r.orphans s
  let s := r.whole.foldl (fun s bs => ingress port (msgOfBytes bs) s) s
  if r.framing then framingError port s else s

/-- A DATA flit (R50): accepted only with a good CRC and the next expected SEQ; acknowledged at least every 16. -/
def takeData (port : Nat) (f : List Byte) (s : Part) : Part :=
  let x := lport port s
  if x.link ≠ .active then s
  else if !flitGood f then badFlit port s
  else if flitType f ≠ 1 || flitSeq f ≠ x.rxExp.toNat then s
  else
    let s := takeLinkHeader port f (countPort port 4 1 s)
    let s := onPort port (fun y => { y with rxExp := y.rxExp + 1, rxAny := true, nakSent := false, unacked := y.unacked + 1 }) s
    let s := if 16 ≤ (lport port s).unacked then sendNull port false s else s
    takePayload port (flitFirst f) (flitPayload f) s

/-- A NULL flit (R46). One that comes while a port trains again, after its lock, acknowledges and returns credits too (R51, R54); its
replay is left to the end of the training. -/
def takeNull (port : Nat) (f : List Byte) (s : Part) : Part :=
  let x := lport port s
  if x.retraining && (x.link = .align || x.link = .param) && flitGood f && flitType f = 0 then takeReturns port f s
  else if !portActive port s then s
  else if !flitGood f then badFlit port s
  else if flitType f ≠ 0 then s
  else takeLinkHeader port f (countPort port 4 1 s)

/-- An acknowledgement is due (R50): 256 ns after an accepted flit; credits return with it. -/
def ackDue (port : Nat) (s : Part) : Part :=
  if portActive port s && (0 < (lport port s).unacked || !(creditsNow port s).isEmpty) then sendNull port false s else s

/-- The oldest unacknowledged flit has waited ACK_TIMEOUT (R51). -/
def ackTimeout (port : Nat) (s : Part) : Part := if portActive port s then replayPort port s else s

/-- The stall timer of a begun message runs out (R373): it runs only while the port is ACTIVE and no replay is awaited (R51). -/
def stallExpires (port vc : Nat) (s : Part) : Part :=
  match (lport port s).rxPartial with
  | none => s
  | some p => if portActive port s && !(lport port s).nakSent && p.vc = vc then truncatePort port s else s

/-! ### Transmission (R361) -/

/-- The transmitter of a port starts a message, if one is eligible and the replay buffer holds its flits; with nothing to send it sends a
NULL flit (R43, R46). -/
def messageStart (port : Nat) (s : Part) : Part :=
  if !portActive port s then s
  else
    match chooseHead port s with
    | none => sendNull port false s
    | some q =>
      if 64 < (lport port s).replay.length + flitsOf q.msg then sendNull port false s
      else sendMessage port q.msg (headStarts q (mirrorOut q s))

end Sys2Proof.Machine
end

