-- ==== Sys2Proof/Machine/PowerCmds.lean ====
section
/-!
DEFINITION. Power modes, the work scheduler, heat and throttling (chapter 15), and the reaction to VIN48 while the core die runs (R545).
-/

namespace Sys2Proof.Machine

open Sys2Proof

/-- Queue a power event (R468). -/
def pwrEvent (kind cls level : Nat) (s : Part) : Part := pushEvent .pwr (kind * 2 + cls * 16 + level * 256) 0 s

/-! ### Modes (R450 to R452, R465) -/

/-- Fields of PWR_MODE (R465). -/
def pmMode (v : Nat) : Nat := field v 1 0
def pmBallast (v : Nat) : Bool := bitAt v 2
def pmPlateau (v : Nat) : Nat := field v 10 4
def pmPeak (v : Nat) : Nat := field v 17 11
def pmRamp (v : Nat) : Nat := field v 27 18

/-- Is every field of PWR_MODE within its range? -/
def pmOk (v : Nat) : Bool :=
  pmMode v ≠ 3 && 50 ≤ pmPlateau v && pmPlateau v ≤ 105 && 50 ≤ pmPeak v && pmPeak v ≤ 115 && 1 ≤ pmRamp v &&
  pmRamp v ≤ 1000

/-- Writable bits of PWR_MODE. -/
def pmMask (v : Nat) : Nat := setField (v % 2 ^ 28) 3 3 0

/-- Physical ports that PWR_ECO_PORTS_n name. -/
def ecoNamed (s : Part) : List Nat :=
  (List.range 128).filter fun fp => bitAt (s.power.ecoPorts.getD (fp / 32) 0).toNat (fp % 32)

/-- Entry into Eco: the named ports go down as if ENABLE were 0 (R451). -/
def ecoEnter (s : Part) : Part :=
  let ports := ecoNamed s
  let s := onPower (fun p => { p with ecoDown := ports }) s
  ports.foldl (fun s fp => (portsOf fp s).foldl (fun s p => disablePort p s) s) s

/-- Leaving Eco: those ports train again (R451). -/
def ecoLeave (s : Part) : Part :=
  let ports := s.power.ecoDown
  let s := onPower (fun p => { p with ecoDown := [] }) s
  ports.foldl (fun s fp => if tget s.links.enable fp false then linkEnable fp s else s) s

/-- The target of a mode in units of 10 µW (R450). -/
def modeTarget (v : Nat) : Nat := (if pmMode v = 1 then pmPlateau v else pmPeak v) * 1000000

/-- Is a physical port up: has it a logical port that is not DOWN? -/
def fpUp (fp : Nat) (s : Part) : Bool := (portsOf fp s).any fun p => (lport p s).link ≠ .down

/-- The floor F as internal energy of a tick (R448, R449): 99 W, 3.80 W for each port that is up, and the input power that the cores are measured
to draw. -/
def floorNow (coreW : Nat) (s : Part) : Nat :=
  (990 + 38 * ((List.range 128).filter fun fp => fpUp fp s).length) * 10 ^ 6 + coreW * 9 * 10 ^ 6

/-- F as it stands: until its first recomputation that of the ports alone. -/
def floorInForce (s : Part) : Nat := if s.power.floorPj = 0 then floorNow 0 s else s.power.floorPj

/-- A ramp from the draw of the moment, as it was measured last, to the plateau begins (R452): from the floor where nothing has been measured.
A unit of 10 µW of input is 90 pJ of a tick. -/
def startRamp (s : Part) : Part :=
  let from_ := s.power.draw.getD (floorInForce s / 90)
  onPower (fun p => { p with target := from_, ramping := from_ ≠ modeTarget p.mode.toNat }) s

/-- The target that follows a write of PWR_MODE: a ramp on entry into Iron and on a change of PLATEAU in it, else the mode's. -/
def newTarget (entered : Bool) (old v : Nat) (s : Part) : Part :=
  if pmMode v = 1 then (if entered || pmPlateau old ≠ pmPlateau v then startRamp s else s)
  else onPower (fun p => { p with target := modeTarget v, ramping := false, under := false, unreachable := false }) s

/-- A write of PWR_MODE (R450, R451, R465). -/
def writeMode (v : Nat) (s : Part) : Part :=
  if !pmOk v then note 15 1 none .outOfRange [0, v] s
  else
    let old := s.power.mode.toNat
    let was := s.power.modeNow
    let s := onPower (fun p => { p with mode := BitVec.ofNat 32 (pmMask v) }) s
    let changed : Bool := was ≠ pmMode v
    let s := if changed then pwrEvent 6 0 0 (onPower (fun p => { p with modeNow := pmMode v }) s) else s
    let s := newTarget changed old v s
    if changed && pmMode v = 2 then ecoEnter s else if changed && was = 2 then ecoLeave s else s

/-- A write of PWR_ECO (R465). -/
def writePwrEco (v : Nat) (s : Part) : Part :=
  if field v 1 0 = 3 || field v 3 2 = 3 then note 15 1 none .outOfRange [4, v] s
  else onPower (fun p => { p with eco := BitVec.ofNat 32 (v % 32) }) s

/-- A write of PWR_ECO_PORTS_n (R466); it applies at the next entry into Eco. -/
def writeEcoPorts (n v : Nat) (s : Part) : Part :=
  onPower (fun p => { p with ecoPorts := lset p.ecoPorts n (BitVec.ofNat 32 v) }) s

/-! ### Classes (R453 to R456, R466) -/

/-- PWR_CLASS_n as a number. -/
def classWord (n : Nat) (s : Part) : Nat := ((s.power.classes[n]?).map fun c => c.word.toNat).getD 0

/-- MIN_SHARE, WEIGHT and MAX_DEFER of a class word (R466). -/
def cwShare (w : Nat) : Nat := field w 7 0
def cwWeight (w : Nat) : Nat := field w 15 8
def cwDefer (w : Nat) : Nat := field w 31 16

/-- Sum of the foreground minimum shares when class `n` has the word `v`. -/
def shareSum (n v : Nat) (s : Part) : Nat :=
  ((List.range 6).map fun c => cwShare (if c = n then v else classWord c s)).sum

/-- A write of PWR_CLASS_n (R455, R466). -/
def writePwrClass (n v : Nat) (s : Part) : Part :=
  if n = 6 || n = 7 then s
  else if cwWeight v = 0 || (n < 6 && 256 < shareSum n v s) || (8 ≤ n && cwShare v ≠ 0) then
    note 15 1 none .outOfRange [0x100 + 4 * n, v] s
  else
    onPower (fun p => { p with classes := (p.classes.mapIdx fun i c =>
      if i = n then { c with word := BitVec.ofNat 32 v } else c) }) s

/-- The target in force in units of 10 µW: the mode's, and never above 28.75 A (R545). -/
def targetNow (s : Part) : Nat := min s.power.target (2875 * s.cur.vin48)

/-- The ramp moves the target by RAMP watts per second (R452). -/
def rampStep (s : Part) : Part :=
  if !s.power.ramping then s
  else
    let goal := modeTarget s.power.mode.toNat
    let step := pmRamp s.power.mode.toNat
    let old := s.power.target
    let new := if old < goal then min goal (old + step) else max goal (old - step)
    onPower (fun p => { p with target := new, ramping := new ≠ goal }) s

/-- A tick brings the 10 µs windows of fault notices nearer their end (R65). A closed one that has folded nothing is forgotten. -/
def ageNotices (s : Part) : Part :=
  let age (fs : List NoticeFold) : List NoticeFold :=
    (fs.map fun f => { f with window := f.window - 1 }).filter fun f => f.window ≠ 0 || f.count ≠ 0
  onLinks (fun l => { l with notices := tmap l.notices fun n => { n with folds := age n.folds } }) s

/-! ### The floor (R448, R449, R459) -/

/-- A watt of input power as internal energy of a tick, and such an energy in whole watts of input. -/
def inputWatt : Nat := 9 * 10 ^ 6
def wholeWatts (pj : Nat) : Nat := pj / inputWatt

/-- Is the plateau of Iron mode out of reach above a floor: less than 20 W above it (R459)? -/
def outOfReach (floor : Nat) (s : Part) : Bool :=
  s.power.modeNow = 1 && decide (pmPlateau s.power.mode.toNat * 10 * inputWatt ≤ floor + 20 * inputWatt)

/-- FLOOR_RECOMPUTE (R449, R459). -/
def floorRecompute (coreW : Nat) (s : Part) : Part :=
  if !running s then s
  else
    let f := floorNow coreW s
    let stuck := outOfReach f s
    let fresh := stuck && !s.power.unreachable
    let budget := wholeWatts (targetNow s * 90 - f)
    let s := onPower (fun p => { p with floorPj := f, budgetW := budget, unreachable := stuck }) s
    if fresh then pwrEvent 3 0 0 s else s

/-- IRON_SHORTFALL (R458). -/
def ironShortfall (s : Part) : Part :=
  if running s && s.power.modeNow = 1 then pwrEvent 4 0 0 (onPower (fun p => { p with under := true }) s) else s

/-! ### Heat (R460, R461, R519) -/

/-- Index of the last 100 ms boundary of the Curator timer (R467). -/
def boundaryIndex (s : Part) : Nat := s.cur.timer / 100000

/-- Set the throttle level. The time at the level that ends is a sample of that level's histogram, in boundaries (R507, R510; log entry
8). -/
def setLevel (l at_ : Nat) (s : Part) : Part :=
  let spent := (at_ + 2 ^ 29 - s.power.boundary) % 2 ^ 29
  onPower (fun p => { p with level := l, boundary := at_ % 2 ^ 29 }) (sample 15 (16 + s.power.level) 0 spent s)

/-- The sensor with the highest valid reading, and that reading (R460). -/
def hottest (r : Sensors) : Option (Nat × Nat) :=
  (List.range 64).foldl (fun best n =>
    if r.invalid.getD n false then best
    else match r.temps[n]?, best with
      | some t, some b => if b.2 < t then some (n, t) else best
      | some t, none => some (n, t)
      | none, _ => best) none

/-- TEL_TEMP_n as it reads (R520). -/
def tempWord (r : Sensors) (n : Nat) : Nat := r.temps.getD n 0 % 2 ^ 12 + (bitOf (r.invalid.getD n false)) * 2 ^ 12

/-- The module temperatures of a sample: HOT above 85 °C (R300). -/
def sampleModules (r : Sensors) (s : Part) : Part :=
  onDram (fun d => { d with channels := (d.channels.mapIdx fun n c =>
    match r.modules[n]? with
    | some t => if c.trained then { c with temp := t, hot := decide (85 < t) } else c
    | none => c) }) s

/-- VIN48 between 60.0 V and 62.0 V is recorded once per cold boot (R545). -/
def sampleVin (mv : Nat) (s : Part) : Part :=
  let s := onCurator (fun c => { c with vin48 := mv }) s
  if 60000 < mv && mv ≤ 62000 && !s.cur.vinHighSeen then
    note 0xFF 1 none .vinHigh [mv] (onCurator (fun c => { c with vinHighSeen := true }) s)
  else s

/-- A reading of 102 °C or more sets the level to 7 at once; EMERGENCY is queued where the level or the band is new (R460). -/
def sampleHeat (r : Sensors) (s : Part) : Part :=
  match hottest r with
  | none => s
  | some (n, t) =>
    let before := s.power.tempMax
    let s := onPower (fun p => { p with tempMax := t, tempSensor := n }) s
    if 408 ≤ t && s.cur.power = .coreOn then
      let fresh : Bool := s.power.level ≠ 7 || decide (before < 408)
      let s := if s.power.level ≠ 7 then setLevel 7 (boundaryIndex s) s else s
      if fresh then pwrEvent 2 0 7 s else s
    else s

/-- SENSOR_SAMPLE (R460, R519): 1 ms of the Curator timer has passed, and no write still waits in a cell buffer (log entry 62). -/
def sensorSample (r : Sensors) (s : Part) : Part :=
  if s.cur.power = .off then s
  else
    let s := creditWait 1000 (onCurator (fun c => { c with timer := c.timer + 1000 }) s)
    let s := onTelemetry (fun b =>
      { b with temps := (List.range 64).map (tempWord r), volts := (List.range 32).map fun n => r.volts.getD n 0 % 2 ^ 16 }) s
    let s := sampleVin r.vin48 (onPower (fun p => { p with inputW := r.inputW % 2 ^ 11, draw := some (r.inputW * 100000) }) s)
    sampleHeat r (onDram (fun d => { d with waiting := [] }) (if s.cur.power = .coreOn then sampleModules r s else s))

/-- The level after a boundary (R460); temperatures in units of 0.25 °C. -/
def nextLevel (t level : Nat) : Nat :=
  if t < 380 then level - 1 else if t < 392 then level else if t < 408 then min 7 (level + 1) else 7

/-- THROTTLE_BOUNDARY (R460, R461): the Curator timer is at the next multiple of 100,000 at which no boundary has been made, and is taken
there if it has not come so far. -/
def throttleBoundary (s : Part) : Part :=
  if s.cur.power = .off then s
  else
    let k := s.cur.boundaries + 1
    let next := max s.cur.timer (k * 100000)
    let s := creditWait (next - s.cur.timer) (onCurator (fun c => { c with timer := next, boundaries := k }) s)
    if s.cur.power ≠ .coreOn then s
    else
      let old := s.power.level
      let new := nextLevel s.power.tempMax old
      if new = old then s else pwrEvent 1 0 new (setLevel new k s)

/-! ### Reads (R465 to R467) -/

/-- PWR_STATUS (R467). -/
def pwrStatus (s : Part) : Nat :=
  let p := s.power
  p.inputW % 2 ^ 11 + wholeWatts p.floorPj % 2 ^ 11 * 2 ^ 11 + p.budgetW % 2 ^ 11 * 2 ^ 22 + p.modeNow * 2 ^ 33 + bitOf p.ramping * 2 ^ 35 +
  bitOf p.under * 2 ^ 36 + bitOf p.unreachable * 2 ^ 37 + p.overrun * 2 ^ 38

/-- PWR_THERMAL (R467). -/
def pwrThermal (s : Part) : Nat := s.power.tempMax / 4 % 256 + s.power.tempSensor * 256

/-- PWR_THROTTLE (R467). -/
def pwrThrottle (s : Part) : Nat := s.power.level + s.power.boundary * 8

/-- THERM_ALERT_N and FAULT_N (R501): true while the output is asserted, low. -/
def thermAlert (s : Part) : Bool := decide (0 < s.power.level)
def faultPin (s : Part) : Bool := s.cur.power ≠ .off && (s.cur.phase = 13 || s.cur.phase = 14)

end Sys2Proof.Machine
end

