-- ==== Sys2Proof/Machine/FastReset.lean ====
section
/-!
DEFINITION. The fast reset (R415 to R417, R419, R563): what it keeps and loses at its trigger, and the join of the fabric that ends it
and a cold boot (step 7 of R415, step 11 of R478).
-/

namespace Sys2Proof.Machine

/-! ### What the reset leaves of each block (R417, R531, R532) -/

/-- Links: the configuration stays; every port is down, and streams, tracking, fences, resequencer and atomic answers are lost. -/
def resetLinks (l : Links) : Links :=
  { l with
    ports := [], streams := [], tracked := [], fences := [], unsent := [], answered := [], fenceNo := [], reseq := [], reseqClock := 0, atomics := [],
    notices := [], resync := true, nextTag := [] }

/-- Switch core: the cell buffer is empty, and buckets are full as a change of configuration leaves them (R364, R381). -/
def resetSwitch (w : Switch) : Switch :=
  { w with
    waiting := [], voq := [], queues := [], fPrev := [], times := [], grantPtr := [], acceptPtr := [], rrPtr := [], oddCell := false,
    halfMatch := [], mcast := [], multi := [], nextMulti := 0,
    shapers := tmap w.shapers fun x => { x with tokens := shaperFill x, opening := shaperFill x, used := [] },
    policers := tmap w.policers fun x => { x with tokC := x.cbs * 1024, tokE := x.ebs * 1024 } }

/-- An extent that was REVOKING: its revocation is lost with the command, and it is LIVE with its epoch raised (R31). -/
def resetExtent (x : Extent) : Extent := if x.state = .revoking then { x with state := .live } else x

/-- A loan entry: an offer that was never answered is gone, and with it its entry. -/
def resetLoans (ls : Table Loan) : Table Loan :=
  (ls.filter fun p => p.2.state ≠ .offered).map fun p => (p.1, { p.2 with offer := none, notice := none })

/-- Pool tables: reloaded from the system region, with no copy, revocation or lender request running. -/
def resetPool (p : Pool) : Pool :=
  { p with
    extents := tmap p.extents resetExtent, loans := resetLoans p.loans, copies := [], revokes := [], lenderReqs := [], loanPages := [],
    extSeq := CmdSeq.reset, tblData := List.replicate 4 (List.replicate 8 0), tblSeq := CmdSeq.reset }

/-- Regions. -/
def resetRegions (r : Regions) : Regions :=
  { r with obj := List.replicate 4 0, seq := CmdSeq.reset, wait := none, starved := [], events := EventQueue.empty }

/-- Catalogue: the directory is reloaded, with BUSY on the lines whose transactions were cut off; its cache is empty. -/
def resetCatalogue (c : Catalogue) : Catalogue :=
  { c with
    dirCache := [], initBusy := [], txns := [], waiting := [], obj := List.replicate 4 0, cmdExt := List.replicate 4 0, seq := CmdSeq.reset,
    walks := [], events := EventQueue.empty, nextTag := 0 }

/-- A channel after its modules have left self-refresh and have been trained again. -/
def resetChannel (c : Channel) : Channel := { c with hot := false, retraining := false, temp := 0 }

/-- The FLR block: ST fields, the hold table, marks and fault queues stay. -/
def resetRecovery (cause : Nat) (b : Recovery) : Recovery :=
  { b with
    seq := CmdSeq.reset, cmdArg := List.replicate 4 0, sends := [], standIns := [], senders := [], resetCause := cause,
    standExts := b.standExts.map fun p => (p.1, { p.2 with counted := false }), twinDown := [], mismatches := [],
    resetCount := min 0xFFFF (b.resetCount + 1), reDraining := List.replicate 64 false, checks := [], selftests := [], throughs := [],
    mirrors := [], events := EventQueue.empty }

/-- A host port: its link is down, and its mailbox channel is empty. -/
def resetHost (h : HostPort) : HostPort :=
  { h with link := false, retry := true, draining := false, vectors := [], lastCpl := none, unsupported := false }

/-- The register views: held halves and latched entries are lost (R525). -/
def resetView (v : View) : View := { v with held := [], latched := [] }

/-- The power block: registers that only report return to zero. The draw as it was measured last is kept for the ramp (R452). -/
def resetPower (p : Power) : Power :=
  { p with
    classes := p.classes.map fun c => PwrClass.start c.word, turns := [], ramping := false, under := false,
    unreachable := false, overrun := 0, inputW := 0, floorPj := 0, budgetW := 0, ballastPj := 0, spare := 0,
    expUsed := 0, expHeld := none, owed := 0, lastClass := 15, due := [], spans := [], spanSum := 0, spanCount := 0, integral := 0, tempMax := 0, tempSensor := 0,
    level := 0, boundary := 0, events := EventQueue.empty }

/-- Collectives: the multicast tables are reloaded, contexts are lost (R175, R182). -/
def resetCollectives (b : Collectives) : Collectives :=
  { b with
    descs := List.replicate 4 (List.replicate 8 0), seq := CmdSeq.reset, contexts := [], events := EventQueue.empty, crossed := [], waiting := [] }

/-- Gather and filter units (R189). -/
def resetGather (b : GatherFilter) : GatherFilter := { b with draining := List.replicate 32 false, requests := [], loose := [] }

/-- Weight streams (R234). -/
def resetStreaming (b : Streaming) : Streaming :=
  { b with
    progAddr := List.replicate 4 0, progArg := List.replicate 4 0, seq := CmdSeq.reset, query := 0, load := none,
    streams := [], events := EventQueue.empty }

/-- Folding and mending: the slots are reloaded (R254). -/
def resetCompression (b : Compression) : Compression :=
  { b with
    tblAddr := List.replicate 4 0, tblArg := List.replicate 4 0, jobDescs := List.replicate 4 (List.replicate 6 0),
    events := EventQueue.empty, mend := b.mend.map fun m => { m with draining := false, current := none, panels := [] }, mendSets := [], check := none }

/-- Channel units (R282). -/
def resetUnits (b : ChannelUnits) : ChannelUnits :=
  { b with
    descs := List.replicate 4 (List.replicate 8 0), draining := List.replicate 24 false, tickets := List.replicate 24 0,
    events := EventQueue.empty }

/-! ### The trigger (steps 1 to 5 of R415) -/

/-- The engines and the DRAM at the trigger. -/
def resetEngines (s : Part) : Part :=
  let s := onChannelUnits resetUnits (resetChu s)
  let s := onDram (fun d => { d with channels := d.channels.map resetChannel, waiting := [] }) (resetFills s)
  let s := onCompression resetCompression (resetJobs s)
  let s := onStreaming resetStreaming (onGatherFilter resetGather (onCollectives resetCollectives s))
  resetFlash s

/-- The Curator's side: host links and mailbox channels of the hosts and cores. -/
def resetManagement (s : Part) : Part :=
  let s := emptyChannel 2 (function0Reset 1 (function0Reset 0 s))
  resetCores (onManagement (fun m => 
    { m with
      hosts := m.hosts.map resetHost, channels := m.channels.map fun x => { x with norDone := false } }) s)

/-- The galleries, and those whose drain the reset has ended. -/
def resetGals (s : Part) : Part :=
  let r := resetGalleries s
  onGalleries (fun b => { b with resetDrained := b.resetDrained ++ r.1 }) r.2

/-- Every port that may train begins to (step 6). -/
def trainPorts (s : Part) : Part :=
  if linksRun s then
    (List.range 128).foldl (fun s fp =>
      if portEnabled (2 * fp) s then (portsOf fp s).foldl (fun s p => beginTrain p s) s else s) s
  else s

/-- Every block at the trigger. -/
def resetBlocks (cause : Nat) (s : Part) : Part :=
  let s := resetGals (resetEngines s)
  let s := onCatalogue resetCatalogue (onRegions resetRegions (onPool resetPool s))
  let s := onSwitch resetSwitch (onLinks resetLinks s)
  let s := resetTelemetry (onPower resetPower (onRecovery (resetRecovery cause) s))
  let s := onTelemetry (fun t => { t with temps := List.replicate 64 0, volts := List.replicate 32 0 }) s
  let s := resetManagement s
  { s with views := s.views.map resetView, inbox := [] }

/-- Can a fast reset begin: the core die is on, and none runs (R413, R469)? A part whose boot has halted cannot join afterwards, so that
the 2.5 s of R415 end its fast reset in a cold boot. -/
def mayReset (s : Part) : Bool := s.cur.power = .coreOn && !s.cur.fastPending

/-- The reset has changed entries of mirrored extents: their twins are told once the links run again (R425). -/
def tellTwins (before : Part) (s : Part) : Part :=
  s.pool.extents.foldl (fun s p =>
    if p.2.twinValid && !isTwinDown p.2.twinPart s && entryDiffers (extentAt p.1 before) p.2 then
      sendEntry p.2.twinPart (homePart s) p.1 p.1 p.2 false s
    else s) s

/-- The trigger of a fast reset (R413, R415): 1 uncorrectable internal memory, 2 FAST_RESET, 3 heartbeat lost. -/
def fastReset (cause : Nat) (s : Part) : Part :=
  if !mayReset s then s
  else
    let s := onCurator (fun c => { c with fastPending := true }) s
    let t := onTelemetry (fun b => { b with later := [] }) (resetBlocks cause s)
    trainPorts (tellTwins s (note 255 2 none .fastReset [cause] t))

/-! ### The join (step 7 of R415, step 11 of R478) -/

/-- Has every enabled port become ACTIVE or failed a TRAIN attempt? -/
def portsSettled (s : Part) : Bool :=
  (List.range 128).all fun fp =>
    !portEnabled (2 * fp) s || (portsOf fp s).all fun p => portActive p s || (lport p s).retryWait

/-- What follows RESET_DONE: DRAIN_DONE of the galleries whose drain the reset ended, events of the reset's time, leases, the directory, the
cores (R103, R137, R563). -/
def rejoined (s : Part) : Part :=
  let s := flrEvent 10 0 0 0 s
  let s := s.gals.resetDrained.foldl (fun s g => galEvent 1 g s) s
  let s := s.tel.later.foldl (fun s e => pushEvent e.1 e.2.1 e.2.2 s) s
  let s := onTelemetry (fun b => { b with later := [] }) (onGalleries (fun b => { b with resetDrained := [] }) s)
  scanDirectory (extendLeases (trainHosts (onManagement (fun m => { m with coresOn := isTray s }) s)))

/-- The part joins the fabric (R415 step 7, R478 step 11): in Iron mode the scheduler ramps from the measured draw (R452). -/
def joins (s : Part) : Part :=
  let fast := s.cur.fastPending
  let s := reachPhase 12 (onCurator (fun c => { c with fastPending := false }) (if fast then s else reachPhase 11 s))
  let s := if fast then rejoined s else s
  if s.power.modeNow = 1 then startRamp s else s

/-- The join, when it is due. -/
def pumpJoin (s : Part) : Option Part :=
  let waits := s.cur.fastPending || s.cur.phase = 10 || s.cur.phase = 11
  if s.cur.power = .coreOn && waits && linksRun s && portsSettled s then some (joins s) else none

/-- RESYNC_WINDOW_END (R70): the first two stream-idle times have passed. -/
def resyncEnds (s : Part) : Part := if running s then onLinks (fun l => { l with resync := false }) s else s

end Sys2Proof.Machine
end

