-- ==== Sys2Proof/Machine/Falcon.lean ====
section
/-!
DEFINITION. Verification of a Falcon-1024 signature (R476), as the Falcon specification gives it: degree 1,024, modulus 12,289, squared norm at
most 70,265,242, signatures of 1,280 bytes.
-/

namespace Sys2Proof.Machine

open Sys2Proof

/-- The modulus. -/
def falconQ : Nat := 12289

/-- The bits of bytes, most significant first. -/
def bitsOf (bs : List Byte) : List Bool := bs.flatMap fun b => (List.range 8).map fun i => bitAt b.toNat (7 - i)

/-- The number that bits spell, most significant first. -/
def ofBits (bs : List Bool) : Nat := bs.foldl (fun n b => 2 * n + bitOf b) 0

/-- `n` numbers of 14 bits each. -/
def keyFields : Nat → List Bool → List Nat
  | 0, _ => []
  | n + 1, bs => ofBits (bs.take 14) :: keyFields n (bs.drop 14)

/-- The polynomial of a public key: a byte that names degree 1,024, and 1,024 coefficients of 14 bits below the modulus. -/
def falconKey (key : List Byte) : Option (List Nat) :=
  let h := keyFields 1024 (bitsOf (sliceBytes key 1 1792))
  if key.length = 1793 && leAt key 0 1 = 0x0A && h.all (· < falconQ) then some h else none

/-- Values of a stream of bytes taken two at a time, most significant first, that lie below five times the modulus, each modulo it. -/
def hashFields : Nat → List Byte → List Nat
  | n + 1, a :: b :: bs =>
    let t := 256 * a.toNat + b.toNat
    (if t < 5 * falconQ then [t % falconQ] else []) ++ hashFields n bs
  | _, _ => []

/-- HashToPoint: the polynomial of a salt and a message, from as much of the stream as 1,024 accepted values can need with any likelihood. -/
def hashToPoint (bs : List Byte) : List Nat := (hashFields 2048 (shake256 4096 bs)).take 1024

/-- The zeros up to the next one, and the bits after it. -/
def unaryRun : Nat → List Bool → Option (Nat × List Bool)
  | _, [] => none
  | k, true :: bs => some (k, bs)
  | k, false :: bs => unaryRun (k + 1) bs

/-- Decompress: `n` coefficients, each a sign, seven low bits and the rest in unary; zero with a minus sign is refused, and so is a bit set
after the last. -/
def falconCoeffs : Nat → List Bool → Option (List Int)
  | 0, bs => if bs.all (! ·) then some [] else none
  | n + 1, sign :: bs =>
    match unaryRun 0 (bs.drop 7) with
    | some (k, rest) =>
      let v := ofBits (bs.take 7) + 128 * k
      if bs.length < 8 || (sign && v = 0) then none
      else (falconCoeffs n rest).map fun xs => (if sign then -(v : Int) else (v : Int)) :: xs
    | none => none
  | _ + 1, [] => none

/-- A polynomial times X modulo X ^ 1024 + 1. -/
def timesX (a : List Nat) : List Nat := (falconQ - a.getLast?.getD 0) % falconQ :: a.dropLast

/-- The product of two polynomials modulo X ^ 1024 + 1. -/
def falconMul : List Nat → List Nat → List Nat
  | [], b => List.replicate b.length 0
  | x :: xs, b => List.zipWith (fun p y => (p + x * y) % falconQ) (falconMul xs (timesX b)) b

/-- A coefficient as the number nearest zero. -/
def centred (x : Nat) : Int := if 2 * x < falconQ then x else (x : Int) - falconQ

/-- The squared norm. -/
def normSq (xs : List Int) : Nat := (xs.map fun x => x.natAbs * x.natAbs).sum

/-- Does a signature verify: key, signed bytes, signature of at most 1,280 bytes, zeros standing for those up to that length? -/
@[irreducible] def falconVerify (key msg sig : List Byte) : Bool :=
  let sig := sliceBytes sig 0 1280
  match falconKey key, falconCoeffs 1024 (bitsOf (sig.drop 41)) with
  | some h, some s2 =>
    let c := hashToPoint (sliceBytes sig 1 40 ++ msg)
    let p := falconMul (s2.map fun x => (x % (falconQ : Int)).toNat) h
    let s1 := List.zipWith (fun a b => centred ((a + falconQ - b) % falconQ)) c p
    leAt sig 0 1 = 0x3A && c.length = 1024 && normSq s1 + normSq s2 ≤ 70265242
  | _, _ => false

end Sys2Proof.Machine
end

