-- ==== Sys2Proof/Machine/Images.lean ====
section
/-!
DEFINITION. Boot NOR (R472 to R476, R487, R496): the directory, the images and their checks, the daybook ring.
-/

namespace Sys2Proof.Machine

open Sys2Proof

/-! ### The directory (R474) -/

/-- What the Curator boots from where neither copy is good. -/
def Directory.none : Directory := { seq := 0, active := 0, trial := 0, record := 0 }

/-- What the bytes of a directory copy say, if their CRC is good. -/
def readDirectory (bs : List Byte) : Option Directory :=
  if bs.length = 32 && leAt bs 24 8 = crc64 (bs.take 24) then
    some { seq := leAt bs 0 8, active := leAt bs 8 1, trial := leAt bs 9 1, record := leAt bs 10 1 }
  else none

/-- The directory in use, and its place: a good copy with the higher SEQ; without one, slot A and record copy 0. -/
def findDirectory (m : Management) : Nat × Directory :=
  match readDirectory (m.dirs.getD 0 []), readDirectory (m.dirs.getD 1 []) with
  | some a, some b => if a.seq < b.seq then (1, b) else (0, a)
  | none, some b => (1, b)
  | some a, none => (0, a)
  | none, none => (0, Directory.none)

/-- The directory in use. -/
def directory (m : Management) : Directory := (findDirectory m).2

/-- Change the directory: the other copy is written with SEQ + 1. -/
def writeDirectory (f : Directory → Directory) (m : Management) : Management :=
  let d := f (directory m)
  { m with dirs := lset m.dirs (1 - (findDirectory m).1) (dirBytes { d with seq := (d.seq + 1) % 2 ^ 64 }) }

/-- Does the boot NOR answer (R472, R547)? -/
def norUsable (s : Part) : Bool := s.cur.norOk && s.cur.aux1v8

/-! ### Images (R475, R476) -/

/-- The bytes of an image slot. -/
def imageBytes (slot : Nat) (m : Management) : List Byte := ((m.images[slot]?).map (·.bytes)).getD []

/-- Are all bytes of a range zero? -/
def zeroBytes (bs : List Byte) (off n : Nat) : Bool := (sliceBytes bs off n).all fun b => b = 0

/-- Header fields of an image. -/
def imgBody (bs : List Byte) : Nat := leAt bs 4 4
def imgVersion (bs : List Byte) : Nat := leAt bs 8 4
def imgSvn (bs : List Byte) : Nat := leAt bs 12 1
def imgFlags (bs : List Byte) : Nat := leAt bs 13 1
def imgSigner (bs : List Byte) : Nat := leAt bs 0x11 1
def imgSigBytes (bs : List Byte) : Nat := leAt bs 0x12 2

/-- A component entry: its type, offset and length. -/
def imgComponent (bs : List Byte) (i : Nat) : Nat × Nat × Nat :=
  (leAt bs (0x40 + 32 * i) 1, leAt bs (0x44 + 32 * i) 4, leAt bs (0x48 + 32 * i) 4)

/-- The body of an image. -/
def imgBodyBytes (bs : List Byte) : List Byte := sliceBytes bs 0x2000 (imgBody bs)

/-- The bytes of the component of a type, empty where the image has none. -/
def imgPart (kind : Nat) (bs : List Byte) : List Byte :=
  match ((List.range 8).map (imgComponent bs)).find? fun c => c.1 = kind with
  | some c => sliceBytes (imgBodyBytes bs) c.2.1 c.2.2
  | none => []

/-- Check 1 of R476: FORMAT, PART and every reserved field. -/
def imgFormOk (bs : List Byte) : Bool :=
  leAt bs 0 4 = 1 && leAt bs 14 2 = 0x2400 && imgBody bs ≤ 25157632 && imgSvn bs < 64 && imgFlags bs < 4 &&
  zeroBytes bs 0x14 44 && zeroBytes bs 0x881 127 && zeroBytes bs 0xE00 4608 &&
  ((List.range 8).all fun i => (imgComponent bs i).1 ≤ 5 && zeroBytes bs (0x41 + 32 * i) 3 && zeroBytes bs (0x4C + 32 * i) 20)

/-- Check 7 of R476: components within the body, and the four that must be there once each. -/
def imgPartsOk (bs : List Byte) : Bool :=
  let cs := ((List.range 8).map (imgComponent bs)).filter fun c => c.1 ≠ 0
  (cs.all fun c => c.2.1 + c.2.2 ≤ imgBody bs) && ([1, 2, 3, 4].all fun k => (cs.filter fun c => c.1 = k).length = 1)

/-- Does an image pass every check of R476? -/
def imageOk (c : Curator) (bs : List Byte) : Bool :=
  let key := sliceBytes bs 0x180 1793
  imgFormOk bs && leAt bs 0x10 1 ≤ 0xB0 && c.floor ≤ imgSvn bs &&
  imgSigner bs < 4 && !(imgSigner bs ∈ c.revoked) && ofLe (digest key) = c.signers.getD (imgSigner bs) 0 &&
  1 ≤ imgSigBytes bs && imgSigBytes bs ≤ 1280 &&
  falconVerify key (sliceBytes bs 0 0x900) (sliceBytes bs 0x900 (imgSigBytes bs)) &&
  (imgBodyBytes bs).length = imgBody bs && digest (imgBodyBytes bs) = sliceBytes bs 0x140 64 && imgPartsOk bs

/-! ### The daybook ring (R496) -/

/-- Write the daybook entries that a test picks, and that are not in NOR yet, into the ring. -/
def flushDaybook (pick : DaybookEntry → Bool) (s : Part) : Part :=
  if norUsable s then
    onManagement (fun m =>
      let new := m.daybook.filter fun e => pick e && !(m.norRing.any fun x => x.seq = e.seq)
      { m with norRing := (new ++ m.norRing).take 131072 }) s
  else s

/-- DAYBOOK_FLUSH: every entry that is due reaches NOR. -/
def daybookFlush (s : Part) : Part := if s.cur.power = .off then s else flushDaybook (fun _ => true) s

end Sys2Proof.Machine
end

