-- ==== Sys2Proof/Machine/Boot.lean ====
section
/-!
DEFINITION. Power, reset and the cold boot (R469, R470, R477 to R481, R487, R545, R547, R550 to R553, R564): one command carries a boot
to step 10, and the join follows when the ports have settled (FastReset.lean).
-/

namespace Sys2Proof.Machine

open Sys2Proof

/-! ### The core die dark -/

/-- The flash-home part of the memory: what power does not keep goes. No fill reaches a flash-home line (R308). -/
def flashMemory (m : Memory) : Memory :=
  let flash (line : Nat) : Bool := inFlashWindow (line / linesPerExtent)
  { cells := m.cells.filter fun c => flash (c.1 / 128) && c.2 ≠ 0, attrs := m.attrs.filter fun p => flash p.1, fills := [] }

/-- Every block of the core die and the I/O chiplets as a record sets it at step 5 of a boot, the drives as the board shows them. -/
def coldBlocks (r : Record) (drives : List Bool) (s : Part) : Part :=
  { s with
    links := coldLinks r, sw := coldSwitch r, pool := coldPool r, regions := coldRegions, cat := coldCatalogue r,
    dram := coldDram (flashMemory s.dram.memory), gals := coldGalleries r, flr := coldRecovery, views := coldViews, tel := coldTelemetry,
    power := coldPower r, clv := coldCollectives r, gfu := coldGather, str := coldStreaming, cmp := coldCompression,
    chu := coldChannelUnits,
    flt := coldFlash r ((List.range 8).map fun d => { Drive.blank with present := drives.getD d false }), inbox := [] }

/-- The drives that the board shows now. -/
def drivesSeen (s : Part) : List Bool := s.flt.drives.map (·.present)

/-- Every block while the core die is dark. Only a cold boot ends Vitrine mode (R402). -/
def darkBlocks (s : Part) : Part :=
  let g := s.gals
  onGalleries (fun b => { b with vitrine := g.vitrine, fromRecord := g.fromRecord }) (coldBlocks s.mgmt.record (drivesSeen s) s)

/-- Host links, mailbox, sessions and cores with the core die off or in reset; boot NOR and the daybook's numbering stay. -/
def darkManagement (m : Management) : Management :=
  { coldManagement with
    dirs := m.dirs, records := m.records, images := m.images, norRing := m.norRing, nextSeq := m.nextSeq, daybook := m.daybook,
    inForce := m.inForce, record := m.record, codeKey := m.codeKey, partKey := m.partKey, debugSeen := m.debugSeen,
    extends7 := m.extends7, uart := m.uart,
    hosts := m.hosts.map fun h => { HostPort.reset with perst := h.perst, refclk := h.refclk } }

/-- The core die is switched off and the island runs on (R545, R552, R564): part loss. -/
def coreDown (cause : Nat) (s : Part) : Part :=
  if s.cur.power ≠ .coreOn then s
  else
    let s := darkBlocks (onManagement darkManagement s)
    let s := onCurator (fun c =>
      { c with power := .islandOnly, phase := 13, haltCause := cause, fastPending := false, waitVin := false }) s
    note 255 3 none .partLoss [cause] s

/-! ### Steps 1 to 4 (R470, R474, R476, R480, R487) -/

/-- Boot slot A or B: its image's fields become IDN_FW. -/
def runImage (slot : Nat) (s : Part) : Part :=
  let bs := imageBytes slot s.mgmt
  onCurator (fun c =>
    { c with
      runSlot := slot, fwVersion := imgVersion bs, fwSvn := imgSvn bs, trialBoot := (directory s.mgmt).trial ≠ 0,
      recovery := false }) s

/-- The trial slot was not confirmed, or does not pass: the directory names the other slot (R487). -/
def endTrial (s : Part) : Part :=
  let s := onManagement (writeDirectory fun d => { d with active := 1 - d.active, trial := 0 }) s
  note 255 2 none .trialFailed [(directory s.mgmt).active] s

/-- The directory before the image is chosen (R487). -/
def beginTrial (s : Part) : Part :=
  match (directory s.mgmt).trial with
  | 0 => s
  | 1 => onManagement (writeDirectory fun d => { d with trial := 2 }) s
  | _ => endTrial s

/-- Step 3: the image of the chosen slot, else of the other; none puts the part in RECOVERY (R476, R477, R487). -/
def chooseImage (s : Part) : Nat × Part :=
  let s := beginTrial s
  let d := directory s.mgmt
  let ok (slot : Nat) (s : Part) : Bool := imageOk s.cur (imageBytes slot s.mgmt)
  if ok d.active s then (0, runImage d.active s)
  else
    let s := if d.trial ≠ 0 then endTrial s else s
    if ok (1 - d.active) s then (0, runImage (1 - d.active) s)
    else (0x0B, onCurator (fun c => { c with recovery := true, runSlot := (directory s.mgmt).active % 2 }) s)

/-- Put a record in force. -/
def takeRecord_ (bs : List Byte) (s : Part) : Part :=
  onManagement (fun m => { m with inForce := bs, record := recordOfBytes bs }) s

/-- Step 4: the record copy that RECORD names, or the other where its CRC is bad; Merforoth's default record on a halt (R479, R480). -/
def chooseRecord (s : Part) : Nat × Part :=
  let k := (directory s.mgmt).record % 2
  let copy (i : Nat) : List Byte := s.mgmt.records.getD i []
  let use (bs : List Byte) (s : Part) : Nat × Part :=
    if recordOk (recordOfBytes bs) then (0, takeRecord_ bs s) else (2, takeRecord_ (recordBytes defaultRecord) s)
  if recordCrcOk (copy k) then use (copy k) s
  else if recordCrcOk (copy (1 - k)) then use (copy (1 - k)) (note 255 2 none .recordFallback [k] s)
  else (1, takeRecord_ (recordBytes defaultRecord) s)

/-- Steps 2 to 4 over the board's state; the answer is the halt cause, 0 for none. A halt before step 4 leaves the default record. -/
def bootSteps (rngOk : Bool) (s : Part) : Nat × Part :=
  let s := reachPhase 2 (reachPhase 1 s)
  if !rngOk then (0x0A, takeRecord_ (recordBytes defaultRecord) s)
  else if !norUsable s then (0x09, takeRecord_ (recordBytes defaultRecord) s)
  else
    let (c, s) := chooseImage (reachPhase 3 s)
    if c ≠ 0 then (c, takeRecord_ (recordBytes defaultRecord) s) else chooseRecord (reachPhase 4 s)

/-! ### Steps 7 and 8 (R2, R19, R20, R296 to R298, R307) -/

/-- MEM_CH_STATUS_n.CAPACITY of a module's GiB. -/
def capacityCode (gib : Nat) : Nat := if gib = 64 then 0 else if gib = 96 then 1 else 2

/-- A channel without a module. -/
def Module.none : Module :=
  { present := false, mrdimm := false, by4 := false, gib := 0, rate := 0, ranks := 1, trains := false }

/-- The module of a channel. -/
def moduleOf (ms : List Module) (n : Nat) : Module := ms.getD n Module.none

/-- The channels, among MC00 to MC23, whose module has a property. -/
def channelsWith (ms : List Module) (p : Module → Bool) : List Nat := (List.range 24).filter fun n => p (moduleOf ms n)

/-- The channels that halt the boot under R19 or R297: those without a module, before anything is compared; else those whose SPD
fails R297, with those that differ from MC00 in capacity; else those that fail training or differ so. -/
def badModules (ms : List Module) : List Nat :=
  let m0 := moduleOf ms 0
  let absent := channelsWith ms fun m => !m.present
  let unfit (m : Module) : Bool := !m.by4 || !(m.gib ∈ [64, 96, 128]) || m.mrdimm ≠ m0.mrdimm
  if absent ≠ [] then absent
  else if channelsWith ms unfit ≠ [] then channelsWith ms fun m => unfit m || m.gib ≠ m0.gib
  else channelsWith ms fun m => m.gib ≠ m0.gib || !m.trains

/-- The speeds offered for the type of the fitted modules, slowest first (R296, R298). -/
def offeredRates (ms : List Module) : List Nat := if (moduleOf ms 0).mrdimm then [1, 2] else [0]

/-- The speed of R298, if one is rated by every module. -/
def trainRate (ms : List Module) (limit : Nat) : Option Nat :=
  let rated := (offeredRates ms).filter fun r => ms.all fun m => r ≤ m.rate
  ((rated.filter fun r => r ≤ limit).getLast?).or rated.head?

/-- What a speed other than DDR_RATE concerns (R298): the channels whose modules do not rate it; 24 (RDIMM) or 25 (MRDIMM) where the
type does not offer it. -/
def rateConcerns (ms : List Module) (limit : Nat) : List Nat :=
  if limit ∈ offeredRates ms then channelsWith ms fun m => m.rate < limit
  else [24 + bitOf (moduleOf ms 0).mrdimm]

/-- Halt in a step of the boot: PHASE reads HALTED, or RECOVERY for 0x0B, and a daybook event names the cause (R479). -/
def bootHalts (cause : Nat) (s : Part) : Part :=
  note 255 3 none .bootHalt [cause]
    (reachPhase (if cause = 0x0B then 14 else 13) (onCurator (fun c => { c with haltCause := cause }) s))

/-- The channels as training leaves them. -/
def trainChannels (ms : List Module) (rate : Nat) : List Channel :=
  (ms.take 24).map fun m =>
    { Channel.blank with trained := true, mrdimm := m.mrdimm, rate := rate, capacity := capacityCode m.gib, ranks := m.ranks - 1 }

/-- Step 8: the reserved extents are filled with zeros; every table is empty and every page tag UNKEYED already. -/
def fillReserved (s : Part) : Part :=
  onMemory (fillLines { first := systemFirst s * linesPerExtent, lines := 320 * linesPerExtent, pattern := 0, poison := false,
                        pick := none }) s

/-- Lines that the component of a type takes. -/
def componentLines (kind : Nat) (s : Part) : Nat := ceilDiv (imgPart kind (imageBytes s.cur.runSlot s.mgmt)).length 128

/-- Step 9: a component of the running image is copied into the working region (R478): APC_BOOT to its start, where the cores start
(R498), REGISTRAR to a place behind it that the spec leaves open (log entry 77). -/
def loadComponent (kind : Nat) (s : Part) : Part :=
  let bs := imgPart kind (imageBytes s.cur.runSlot s.mgmt)
  let n := componentLines kind s
  let boot := componentLines 4 s
  let first := workingFirst s * linesPerExtent + if kind = 4 then 0 else boot + Config.corePlace % (256 * linesPerExtent - boot - n)
  (List.range n).foldl (fun s i =>
    let piece := bs.drop (128 * i)
    storeLine (first + i) (sliceBytes (piece ++ List.replicate 128 0) 0 128) false (partCipher (first + i) s) s) s

/-- Steps 7 to 9 in the tray role; the answer is the halt cause, 0 for none. DESIGN CHOICE: where a channel fails and L exceeds P − 14
too, cause 0x04 wins over 0x02; R19 and R20 give no order (log entry 77). -/
def trainMemory (ms : List Module) (s : Part) : Nat × Part :=
  let s := reachPhase 7 s
  let r := s.mgmt.record
  let p := (moduleOf ms 0).gib * 4
  if ms.all fun m => !m.present then (3, s)
  else if badModules ms ≠ [] then (4, note 11 3 none .channelFault (badModules ms) s)
  else
    match trainRate ms r.ddrRate with
    | none => (4, note 11 3 none .channelFault (channelsWith ms fun m => (offeredRates ms).all fun r => m.rate < r) s)
    | some rate =>
      let s := if rate ≠ r.ddrRate then note 11 1 none .ddrRate (rate :: rateConcerns ms r.ddrRate) s else s
      if p < r.localSlots + 14 then (2, s)
      else
        let s := onPool (fun b => { b with perChannel := p }) (onDram (fun d => { d with channels := trainChannels ms rate }) s)
        (0, onManagement (fun m => { m with coresOn := true }) (loadComponent 5 (loadComponent 4 (reachPhase 9 (fillReserved (reachPhase 8 s))))))

/-! ### Steps 5 to 10 -/

/-- Step 10: every enabled fabric port trains. A spine records each fitted module that it ignores (R3). -/
def reachStep10 (ms : List Module) (s : Part) : Part :=
  let fitted := if isTray s then [] else channelsWith ms fun m => m.present
  let s := fitted.foldl (fun s n => note 255 1 none .ignoredModule [n] s) s
  trainPorts (reachPhase 10 s)

/-- Steps 5 to 10: the core die is powered and every block takes the record, the host ports train, then memory and fabric. -/
def bootCore (env : BootEnv) (s : Part) : Part :=
  let s := coldBlocks s.mgmt.record env.drives s
  let s := reachPhase 6 (reachPhase 5 (onCurator (fun c => { c with power := .coreOn, coreRefclk := true }) s))
  let s := if bitAt s.mgmt.record.flags 0 then enterVitrine true s else s
  let s := onManagement (fun m => { m with hosts := m.hosts.mapIdx fun i h => { h with perst := env.perst.getD i false } }) s
  let s := trainHosts s
  if s.cur.haltCause ≠ 0 then bootHalts s.cur.haltCause s
  else if !isTray s then reachStep10 env.modules s
  else
    let (c, s) := trainMemory env.modules s
    if c ≠ 0 then bootHalts c s else reachStep10 env.modules s

/-- Step 5 needs CORE_REFCLK (R550). -/
def bootStep5 (env : BootEnv) (s : Part) : Part :=
  if env.coreRefclk then bootCore env s
  else note 255 2 none .pllRetry [] (reachPhase 4 (onCurator (fun c => { c with coreRefclk := false }) s))

/-! ### Time 0 (R469, R478, R551) -/

/-- The island at time 0: its SRAM is cleared, the timer is zero, and the keys are drawn anew; a latched cause is recorded. -/
def islandReset (s : Part) : Part :=
  let (a, s) := drawFree s
  let (b, s) := drawFree s
  let s := onManagement (fun m =>
    { darkManagement m with
      daybook := [], debugSeen := false, extends7 := [], codeKey := Config.random a % 2 ^ 64, partKey := Config.random b % 2 ^ 512 }) s
  let cause := s.cur.latchedCause
  let s := onCurator (fun c =>
    { c with
      power := .islandOnly, vinHighSeen := false, aonExternal := true, waitVin := false, timer := 0, boundaries := 0, phase := 0, haltCause := 0,
      coldBoots := c.coldBoots + 1, fastPending := false, latchedCause := 0, trialBoot := false, recovery := false }) s
  if cause = 0 then s else note 255 2 none .latchedCause [cause] s

/-- A cold boot waits for VIN48 at 39.0 V (R551): the core die is off, and the phase and cause of a halt hold (R564). -/
def bootWaits (s : Part) : Part :=
  let held : Bool := s.cur.phase = 13 || s.cur.phase = 14
  darkBlocks (onCurator (fun c =>
    { c with
      power := .islandOnly, phase := if held then c.phase else 0, haltCause := if held then c.haltCause else 0, waitVin := true
      fastPending := false }) (onManagement darkManagement s))

/-- A cold boot from time 0 (R478), at which the straps are sampled (R551). -/
def coldBoot (env : BootEnv) (s : Part) : Part :=
  let s := onCurator (fun c => { c with vin48 := env.vin48 }) s
  if env.vin48 < 39000 then bootWaits s
  else
    let s := islandReset (coldBlocks s.mgmt.record env.drives s)
    let s := onCurator (fun c => { c with norOk := env.norOk, i3cAddr := 0x28 + env.straps % 4 }) s
    let (c, s) := bootSteps env.rngOk s
    bootStep5 env (onCurator (fun k => { k with haltCause := c }) s)

/-! ### Commands -/

/-- ISLAND_POWER_UP (R551 steps 1 and 2). -/
def islandPowerUp (s : Part) : Part :=
  if s.cur.power ≠ .off then s
  else onCurator (fun c => { c with power := .islandOnly, vin48 := 30000, aonExternal := true, aux1v8 := true, phase := 0, haltCause := 0 }) s

/-- PWRGD rises (R551): time 0, unless RESET_N is still low. -/
def pwrgdRise (env : BootEnv) (s : Part) : Part :=
  if s.cur.power = .off || s.cur.pwrgd then s
  else
    let s := onCurator (fun c => { c with pwrgd := true }) s
    if env.resetN then coldBoot env s else s

/-- RESET_N has been low for 10 µs or more and rises (R469, R551, R552). -/
def resetPulse (env : BootEnv) (s : Part) : Part := if s.cur.power ≠ .off && s.cur.pwrgd then coldBoot env s else s

/-- VIN48 reaches 39.0 V with PWRGD up (R551). -/
def vinReaches (env : BootEnv) (s : Part) : Part :=
  if s.cur.power = .islandOnly && s.cur.pwrgd && s.cur.waitVin then coldBoot { env with vin48 := max env.vin48 39000 } s else s

/-- PWRGD falls (R552): the core die stops, and ERROR and FATAL entries reach NOR. A boot that waits is given up. -/
def pwrgdFall (s : Part) : Part :=
  if s.cur.power = .off || !s.cur.pwrgd then s
  else
    let s := onCurator (fun c => { c with pwrgd := false }) s
    let s := if s.cur.power = .coreOn then coreDown 0x13 s
      else onCurator (fun c => { c with waitVin := false, phase := if c.phase = 4 then 0 else c.phase }) s
    flushDaybook (fun e => decide (2 ≤ e.severity)) s

/-- VIN48 has been below 38.0 V for 100 µs (R545). -/
def vinLow (s : Part) : Part := coreDown 0x10 s

/-- VIN48 has been above 62.0 V for 10 µs (R545). -/
def vinHigh (mv : Nat) (s : Part) : Part := if 62000 < mv then coreDown 0x11 s else s

/-- VIN48 has fallen below 30.0 V (R545): only the boot NOR, the fuses and the count of cold boots remain. -/
def islandLoss (s : Part) : Part :=
  let s := coldBlocks s.mgmt.record (drivesSeen s) (onManagement darkManagement s)
  let s := onManagement (fun m =>
    { m with daybook := [], debugSeen := false, extends7 := [], codeKey := 0, partKey := 0 }) s
  onCurator (fun c =>
    { coldCurator with coldBoots := c.coldBoots, floor := c.floor, revoked := c.revoked }) s

/-- AON_CLK is lost during operation (R550). -/
def aonLoss (s : Part) : Part :=
  if s.cur.power = .off || !s.cur.aonExternal then s
  else note 255 1 none .clockLost [0, 0] (onCurator (fun c => { c with aonExternal := false }) s)

/-- The Curator tries the core PLL again (R550). -/
def pllRetries (env : BootEnv) (s : Part) : Part :=
  if s.cur.power = .islandOnly && s.cur.phase = 4 && s.cur.pwrgd then bootStep5 env s else s

/-- A reference of chiplet `k` is lost (R550): its ports fail TRAIN and retry, and one daybook event is written. -/
def sdsLoss (k : Nat) (s : Part) : Part :=
  if s.cur.power ≠ .coreOn || 4 ≤ k then s
  else
    let ports := (List.range 64).map fun i => 64 * k + i
    let s := ports.foldl (fun s p =>
      match (lport p s).link with
      | .down => s
      | .active => portGoesDown p .portDown true s
      | _ => bringUpFails p .train s) s
    note 255 1 none .clockLost [1, k] s

/-- AUX1V8 is overloaded (R547). -/
def auxOverload (s : Part) : Part :=
  if s.cur.power = .off then s else onCurator (fun c => { c with aux1v8 := false }) s

/-- The overload of AUX1V8 is removed (R547). -/
def auxRestore (s : Part) : Part :=
  if s.cur.power = .off then s else onCurator (fun c => { c with aux1v8 := true }) s

/-- The Curator island is reset by an error of its own (R469): 1 lockstep mismatch, 2 SRAM error. The core die that part loss has
switched off stays off (R545). -/
def islandError (cause : Nat) (env : BootEnv) (s : Part) : Part :=
  let s := onCurator (fun c => { c with latchedCause := cause }) s
  if s.cur.power = .off then onCurator (fun c => { c with latchedCause := 0 }) s
  else if s.cur.pwrgd && !(s.cur.power = .islandOnly && s.cur.phase = 13) then coldBoot env s
  else onManagement (fun m => { m with daybook := [], debugSeen := false, extends7 := [] }) s

/-- 2.5 s have passed since the trigger of a fast reset that has not rejoined (R415). -/
def fastWatchdog (env : BootEnv) (s : Part) : Part := if s.cur.fastPending then coldBoot env s else s

/-- The core-die heartbeat has been missing for 100 ms (R469, R550). -/
def heartbeatLost (refclk : Bool) (s : Part) : Part :=
  if mayReset s then fastReset 3 (onCurator (fun c => { c with coreRefclk := refclk }) s) else s

/-- TEMP_MAX has been 105 °C or above for 1 ms (R460). -/
def thermalTrip (s : Part) : Part :=
  if s.cur.power = .coreOn && 420 ≤ s.power.tempMax then coreDown 0x12 (note 255 3 none .thermal [s.power.tempMax] s) else s

/-- The 10 ms after COLD_RESET have passed (R493). -/
def coldResetExpires (env : BootEnv) (s : Part) : Part := if s.mgmt.coldPending then coldBoot env s else s

/-- A JTAG instruction (R403, R482): 0 IDCODE, 1 BYPASS; the TAP answers no other in Vitrine mode. -/
def jtagInstruction (code : Nat) (s : Part) : Part :=
  if s.cur.power = .off then s
  else if code < 2 then onManagement (fun m => { m with jtagLast := code }) s
  else if s.gals.vitrine then onManagement (fun m => { m with debugSeen := true }) s
  else onManagement (fun m => { m with debugSeen := true, jtagLast := code }) s

end Sys2Proof.Machine
end

