-- ==== Sys2Proof/Machine/FlrCmds.lean ====
section
/-!
DEFINITION. The commands of the FLR block (R420, R427 to R435, R442 to R447), spot checks and quarantine (R438 to R441), the drain
bound (R436) and the gallery fault queues (R414, R446, R528).
-/

namespace Sys2Proof.Machine

/-! ### Twins (R420, R427, R428) -/

/-- HOLD (R38, R420): BAD_EXTENT also for the reserved destination of a recall copy. -/
def holdExt (view e part src : Nat) (s : Part) : Part :=
  if !isDramHome e s || isReserved e s || isCopyDest e s then flrEnd view 3 s
  else if (extentAt e s).state ≠ .free || inUse e s || (holdOf part src s).isSome then flrEnd view 2 s
  else
    let h : HoldEntry :=
      { object := 0, srcPart := part, srcExt := src, epoch := 0, gallery := 0, state := .free, cls := .owned, opset := 0,
        synced := false, next := 0 }
    flrEnd view 0 (onRecovery (fun b => { b with holds := tset b.holds e h }) s)

/-- RELEASE_HOLD (R442). -/
def releaseHold (view e : Nat) (s : Part) : Part :=
  if !isDramHome e s then flrEnd view 3 s
  else if !isHeld e s then flrEnd view 2 s
  else flrEnd view 0 (onRecovery (fun b => { b with holds := tdel b.holds e }) s)

/-- MIRROR_COPY (R427). -/
def mirrorCopy (view e : Nat) (s : Part) : Part :=
  let x := extentAt e s
  if !isBacked e s then flrEnd view 3 s
  else if !x.twinValid || isTwinDown x.twinPart s then flrEnd view 2 s
  else if s.flr.mirrors.any fun r => r.ext = e then flrEnd view 1 s
  else flrEnd view 0 (startMirror e x.twinPart false s)

/-- A write of FLR_SYS_TWIN (R421, R427, R444). -/
def writeSysTwin (v : Nat) (s : Part) : Part :=
  let part := field v 11 0
  let valid := bitAt v 12
  let begin_ := valid && !(s.flr.sysValid && s.flr.sysTwin = part) && isTray s
  let s := onRecovery (fun b =>
    { b with
      sysTwin := part, sysValid := valid, sysLines := if begin_ || !valid then [] else b.sysLines
      mirrors := b.mirrors.filter fun r => !r.system }) s
  if begin_ then (List.range 64).foldl (fun s i => startMirror (systemFirst s + i) part true s) s else s

/-! ### Stand-ins (R429 to R434) -/

/-- May the part become a stand-in (R429)? Every extent is FREE, and no loan runs. -/
def isSpare (s : Part) : Bool :=
  isTray s && (s.flr.standIn = .none || s.flr.standIn = .spare) && (s.pool.extents.all fun p => p.2.state = .free) && s.pool.loans.isEmpty

/-- BEGIN (R430 step 1). -/
def beginStand (view h : Nat) (s : Part) : Part :=
  if s.flr.standIn ≠ .none && s.flr.standIn ≠ .spare || h = myPart s then flrEnd view 2 s
  else if !isSpare s then flrEnd view 5 s
  else
    let s := onLinks (fun l => { l with resync := true }) s
    flrEnd view 0 (onRecovery (fun b =>
      { b with standIn := .shadow, forPart := h, standExts := [], tablesIn := false, senders := [] }) s)

/-- Local extents that hold the copies of a part's extents, its system region first (R430 steps 3 to 5). -/
def heldFor (h : Nat) (s : Part) : List Nat :=
  let mine := s.flr.holds.filter fun p => p.2.srcPart = h
  let sys (p : Nat × HoldEntry) : Bool := systemFirst s ≤ p.2.srcExt && p.2.srcExt < workingFirst s
  (mine.filter sys ++ mine.filter fun p => !sys p).map (·.1)

/-- SEND (R430 steps 3 to 5). -/
def sendCopies (view h standIn : Nat) (s : Part) : Part :=
  if s.flr.sends.any fun r => r.standIn = standIn then flrEnd view 1 s
  else
    let r : SendRun := { failed := h, standIn := standIn, exts := heldFor h s, next := none, out := 0, view := some view }
    let (r, s) := sendGo 1024 r (onRecovery (fun b => { b with standIns := tset b.standIns h standIn }) s)
    sendPut r s

/-- Is the copy of an extent complete on the stand-in? -/
def copyComplete (c : CopyState) : Bool := c = .done || c = .checking || c = .compared || c = .unchecked

/-- An extent of the failed part that will not be copied (R430, R434): LOST, or FREE where its home is flash. -/
def copyLost (e : Nat) (s : Part) : Part :=
  if inFlashWindow e then
    let x := extentAt e s
    onRecovery (fun b => { b with standExts := tdel b.standExts e }) (putExtent e { Extent.blank with epoch := x.epoch } s)
  else onStandExt e (fun c => { c with state := .lost }) (putExtent e { extentAt e s with state := .lost } s)

/-- ABANDON_TWIN (R434). -/
def abandonTwin (view twin : Nat) (s : Part) : Part :=
  if s.flr.standIn ≠ .shadow && s.flr.standIn ≠ .compare then flrEnd view 2 s
  else
    let mine := s.flr.standExts.filter fun p => p.2.twin = twin && !isSystem p.1 s
    let s := mine.foldl (fun s p =>
      if p.2.state = .done || p.2.state = .checking then
        count 17 0 2 1 (onStandExt p.1 (fun c => { c with state := .unchecked }) s)
      else if p.2.state = .notReady || p.2.state = .copying then copyLost p.1 s
      else s) s
    let s := onRecovery (fun b => { b with senders := b.senders.filter fun p => p ≠ twin }) s
    flrEnd view 0 (if s.flr.standIn = .compare then goCompare s else checkShadow s)

/-- Requests of the part's own agents go on under a new part number: each of their streams, which that number makes another
stream, starts at SSEQ 0 with SYN (R69, R70), and its unacknowledged messages are sent again. -/
def restartOwn (number : Nat) (s : Part) : Part :=
  let mine (m : Msg) : Msg := { m with srcPart := BitVec.ofNat 12 number }
  let wait (w : Waiting) : Waiting := if w.issued && longHeader (msgClass w.msg) then { w with msg := mine w.msg } else w
  let s := onSwitch (fun x => { x with waiting := tmap x.waiting fun ws => ws.map wait }) s
  let s := onLinks (fun l =>
    { l with
      unsent := tmap l.unsent fun ws => ws.map wait
      streams := l.streams.map fun p => (p.1, { p.2 with unacked := p.2.unacked.map fun u => { u with msg := mine u.msg } })
      tracked := l.tracked.map fun p => (p.1, { p.2 with msg := mine p.2.msg })
      fences := l.fences.map fun f =>
        { f with msg := { mine f.msg with dstPart := BitVec.ofNat 12 number }, waits := f.waits.map fun m => if f.agent < 256 then m else mine m } }) s
  (s.links.streams.map (·.1)).foldl (fun s k => restartStream (k / 4096) (k % 4096) s) s

/-- The streams that were addressed to the failed part go on under the part's new number (R430 step 7, R432), and the part's
own start anew. -/
def adoptStreams (s : Part) : Part :=
  let s := onLinks (fun l =>
    { l with reseq := (l.reseq.filter fun p => decide (2 ^ 21 ≤ p.1)).map fun p => (p.1 - 2 ^ 21, p.2) }) s
  restartOwn (myPart s) s

/-- TAKE (R430 step 7). -/
def takeIdentity (view : Nat) (force : Bool) (s : Part) : Part :=
  let st := s.flr.standIn
  let ok := (st = .compare && compareOver s) || (force && (st = .shadow || st = .compare))
  if !ok then flrEnd view 2 s
  else
    let late := s.flr.standExts.filter fun p => !copyComplete p.2.state && p.2.state ≠ .lost && !isSystem p.1 s
    let s := if force then late.foldl (fun s p => copyLost p.1 s) s else s
    let h := s.flr.forPart
    let s := adoptStreams (onPool (fun p => { p with partNumber := h }) s)
    let s := scanDirectory (onRecovery (fun b => { b with standIn := .taken, forPart := 0 }) s)
    flrEnd view 0 (flrEvent 6 0 h 0 s)

/-- ABORT_STANDIN (R442). -/
def abortStand (view : Nat) (s : Part) : Part :=
  if s.flr.standIn ≠ .shadow && s.flr.standIn ≠ .compare then flrEnd view 2 s
  else
    let s := onPool (fun p => { p with extents := [], objects := [], loans := [] }) s
    let s := onRegions (fun r => { r with owners := [], editions := [], spares := [], leases := [] }) s
    let s := onCatalogue (fun c => { c with regions := [], members := [], dir := [], dirCache := [], dirInit := [], txns := [], waiting := [] }) s
    let s := onFlash (fun f => { f with staged := f.staged.filter fun p => !p.2.kept }) s
    let s := onLinks (fun l => { l with reseq := l.reseq.filter fun p => decide (p.1 < 2 ^ 21) }) s
    flrEnd view 0 (onRecovery (fun b =>
      { b with standIn := .spare, forPart := 0, standExts := [], tablesIn := false, senders := [] }) s)

/-- SEND_STALL (R434): a SEND has made no progress for the completion timeout. -/
def sendStalls (twin : Nat) (s : Part) : Part :=
  if s.flr.standIn = .shadow && twin ∈ s.flr.senders && !shadowOver s then flrEvent 3 0 twin 0 s else s

/-! ### Spot checks (R438 to R441) -/

/-- Mismatches charged to an engine within WINDOW_H hours (R440, R445). -/
def recentMismatches (e : Nat) (s : Part) : Nat :=
  let window := field s.flr.spotCtrl.toNat 63 48 * 3600000000
  (s.flr.mismatches.filter fun m => m.engine = e && s.cur.timer < m.time + window).length

/-- Put an engine out of service (R440): its work moves (R145, R273). -/
def quarantine (e : Nat) (s : Part) : Part :=
  if e ∈ s.flr.quarantined then s
  else
    let s := flrEvent 8 0 0 e (onRecovery (fun b => { b with quarantined := b.quarantined ++ [e] }) s)
    if e < 64 then (if bayOut (e / 8) s then failBay (e / 8) s else s)
    else onCompression (fun b => { b with mendSets := b.mendSets.filter fun m => m.2.2 ≠ e - 64 }) s

/-- WHAT of a mismatch record (R439): the context and chunk, or the stream and tile, of a spot check; a self-test has none. -/
def whatOf (what : Option SpotItem) : Nat :=
  match what with
  | some c => c.unit * 2 ^ 32 + c.number % 2 ^ 32
  | none => 0

/-- The daybook record of a mismatch (R439): ENGINE, KIND (1 for a self-test), WHAT, TEMP, and MODE with LOAD in bits [15:8]. The engine use
of LOAD is a free value, which no row of the table brings (log entry 55). -/
def mismatchNote (what : Option SpotItem) (e : Nat) (s : Part) : Part :=
  let temp := s.tel.temps.getD (Config.nearSensor e) 0 % 2 ^ 12
  let (n, s) := drawFree s
  let load := if what.isNone && s.power.modeNow = 1 then 4 else (Config.freeWord n).toNat % 4
  note 17 1 none .mismatch [e, bitOf what.isNone, whatOf what, temp, s.power.modeNow + load * 256] s

/-- Charge an engine with a mismatch (R439, R440). -/
def charge (what : Option SpotItem) (e : Nat) (s : Part) : Part :=
  let s := count 17 0 67 1 (onRecovery (fun b =>
    { b with mismatches := b.mismatches ++ [{ engine := e, time := s.cur.timer }] }) s)
  let s := flrEvent 7 0 0 e (mismatchNote what e s)
  if field s.flr.spotCtrl.toNat 47 40 ≤ recentMismatches e s then quarantine e s else s

/-- May these engines check one another (R438): two reduce engines of one bay, or mending engines of two bays? -/
def checkPair (a b : Nat) : Bool :=
  a ≠ b && (if a < 64 then decide (b < 64) && a / 8 = b / 8 else 64 ≤ b && a < 80 && b < 80 && (a - 64) / 2 ≠ (b - 64) / 2)

/-- May a check of `a` by `b` charge these engines (R438): neither, either, or both with the third that computed the work? -/
def chargesOk (a b : Nat) (xs : List Nat) : Bool :=
  match xs with
  | [] => true
  | [x] => x = a || x = b
  | [x, y, z] => x = a && y = b && z ≠ a && z ≠ b && decide (z < 80) && decide (z / 64 = a / 64)
  | _ => false

/-- Does the part still hold the work of a check: the chunk of its context, or the tile of its stream? -/
def checkHeld (c : SpotItem) (s : Part) : Bool :=
  if c.engine < 64 then (ctxAt c.unit s).any fun x => thas x.chunks c.number
  else (strAt c.unit s).any fun x => x.tiles.any fun t => t.number = c.number

/-- Has the work of a check been computed, and is it still held? -/
def checkReady (c : SpotItem) (s : Part) : Bool :=
  if c.engine < 64 then (ctxAt c.unit s).any fun x => (tget? x.chunks c.number).any fun k => k.complete
  else (strAt c.unit s).any fun x => x.tiles.any fun t => t.number = c.number && t.stage = .ready

/-- The oldest check of an engine's work that can be made. -/
def dueCheck (a : Nat) (s : Part) : Option SpotItem := s.flr.checks.find? fun c => c.engine = a && checkReady c s

/-- SPOT_CHECK (R438): the oldest chunk or tile of engine `a` that has been chosen is computed again by `b`, and the engines that disagree
with the majority are charged. The check waits while the CHECK class has no energy. -/
def spotCheck (a b : Nat) (charged : List Nat) (s : Part) : Part :=
  match dueCheck a s with
  | none => s
  | some c =>
    if !(checkPair a b && chargesOk a b charged) || !canSpend 14 (testCost a) s then s
    else
      let s := spend 14 (testCost a) s
      let s := count 17 0 3 1 (onRecovery (fun r => { r with checks := r.checks.erase c }) s)
      charged.foldl (fun s e => charge (some c) e s) s

/-- A check deferred past its chunk or tile is skipped, and counted (R438). -/
def pumpChecks (s : Part) : Option Part :=
  match s.flr.checks.find? fun c => !checkHeld c s with
  | none => none
  | some c => some (count 17 0 5 1 (onRecovery (fun r => { r with checks := r.checks.erase c }) s))

/-- SELFTEST (R441). -/
def selftest (view e : Nat) (s : Part) : Part :=
  if 80 ≤ e then flrEnd view 2 s
  else flrEnd view 0 (onRecovery (fun b => { b with selftests := if e ∈ b.selftests then b.selftests else b.selftests ++ [e] }) s)

/-- SELFTEST_RUN (R441): on request in any mode, in a turn of the CHECK class; and by itself in Iron mode, where the patterns are run in the
valleys that the scheduler leaves and are ballast (R458). -/
def selftestRuns (e wrong : Nat) (s : Part) : Part :=
  let asked : Bool := e ∈ s.flr.selftests
  if e < 80 && (if asked then canSpend 14 (testCost e) s else decide (s.power.modeNow = 1)) then
    (List.range wrong).foldl (fun s _ => charge none e s)
      (onRecovery (fun b => { b with selftests := b.selftests.filter fun x => x ≠ e }) (if asked then spend 14 (testCost e) s else s))
  else s

/-- UNQUARANTINE (R440). -/
def unquarantine (view e : Nat) (s : Part) : Part :=
  if 80 ≤ e then flrEnd view 2 s
  else flrEnd view 0 (onRecovery (fun b => { b with quarantined := b.quarantined.filter fun x => x ≠ e }) s)

/-! ### The command register (R442) -/

/-- Perform a command of FLR_CMD. -/
def flrPerform (view cmd : Nat) (s : Part) : Part :=
  let e := field cmd 25 8
  let p := field cmd 37 26
  let arg := s.flr.cmdArg.getD view 0
  match field cmd 3 0 with
  | 1 => fastReset 2 s
  | 2 => holdExt view e p (field arg 17 0) s
  | 3 => releaseHold view e s
  | 4 => mirrorCopy view e s
  | 5 => flrEnd view 0 (onRecovery (fun b => { b with twinDown := b.twinDown.filter fun x => x ≠ p }) s)
  | 6 => beginStand view p s
  | 7 => sendCopies view p (field cmd 49 38) s
  | 8 => abandonTwin view p s
  | 9 => takeIdentity view (bitAt cmd 4) s
  | 10 => abortStand view s
  | 11 => unquarantine view (field arg 24 18) s
  | 12 => selftest view (field arg 24 18) s
  | _ => flrEnd view 2 s

/-- A write of FLR_CMD. -/
def writeFlrCmd (view cmd : Nat) (s : Part) : Part :=
  writeSeq 17 (·.flr.seq) (fun q => onRecovery fun b => { b with seq := q }) flrPerform view cmd s

/-! ### Gallery fault queues (R414, R446, R528) -/

/-- Number of a gallery's fault queue among the latches. -/
def faultLatch (g : Nat) : Nat := 64 + g

/-- A fault queue entry as a view latches it. -/
def faultEvent (e : FaultEntry) : Event := { word := e.addr + e.notice * 2 ^ 64, info := e.ident, num := e.num }

/-- A fault queue. -/
def faultQueue (g : Nat) (s : Part) : FaultQueue := s.flr.faults.getD g FaultQueue.empty

/-- A read of FLR_FAULT_POP_g (R446, R528). -/
def popFault (view g : Nat) (s : Part) : Part :=
  let q := faultQueue g s
  let latched := (s.views[view]?).bind fun w => tget? w.latched (faultLatch g)
  let hit := match latched with
    | some v => q.entries.find? fun e => e.num = v.num
    | none => q.entries.head?
  let q' := match hit with
    | some e => { q with entries := q.entries.erase e }
    | none => q
  let s := onRecovery (fun b => { b with faults := lset b.faults g q' }) s
  let s := onView view (fun w => { w with latched := tdel w.latched (faultLatch g) }) s
  returnRead view (bitOf hit.isSome + bitOf q.overflow * 2 + q'.entries.length * 4) s

/-- A latched entry of a fault queue. -/
def latchedFault (v : Event) : FaultEntry := { addr := v.word % 2 ^ 64, notice := v.word / 2 ^ 64, ident := v.info, num := v.num }

/-- The entry of a fault queue that a view sees: the one it has latched, though another view has popped it since, else the head. -/
def faultSeen (view g : Nat) (s : Part) : Option FaultEntry :=
  let q := faultQueue g s
  match (s.views[view]?).bind fun w => tget? w.latched (faultLatch g) with
  | some v => some ((q.entries.find? fun e => e.num = v.num).getD (latchedFault v))
  | none => q.entries.head?

/-- A read of word 0 of FLR_FAULT_ENTRY_g latches the head for the view (R528). -/
def latchFault (view g : Nat) (s : Part) : Part :=
  match (faultQueue g s).entries.head? with
  | some e => returnRead view e.addr (latchHead view (faultLatch g) (faultEvent e) s)
  | none => returnRead view 0 (onView view (fun w => { w with latched := tdel w.latched (faultLatch g) }) s)

/-- A read of CAT_EVENT_ADDR or FLT_EVENT_INFO latches the head for the view (R528). -/
def latchEvent (q : QueueName) (view : Nat) (s : Part) : Part :=
  match (getQueue q s).entries.head? with
  | some e => returnRead view e.info (latchHead view (queueBlock q) e s)
  | none => returnRead view 0 (onView view (fun w => { w with latched := tdel w.latched (queueBlock q) }) s)

/-! ### The drain bound (R436) -/

/-- DRAIN_BOUND_EXPIRY: the work that remains of a disable is aborted. A reduce engine has none. -/
def drainBound (t : DrainTarget) (s : Part) : Part :=
  match t with
  | .gallery g => if (gallery g s).state = .draining then abortGallery g s else s
  | .context c => if ((ctxAt c s).map (·.state)) = some .closing then abortCtx c s else s
  | .stream n => if ((strAt n s).map (·.state)) = some .stopping then abortStream n s else s
  | .gfuUnit n => if s.gfu.draining.getD n false then gfuAbortUnit n s else s
  | .reduceEngine _ => s
  | .mendEngine n => if (mendEngine n s).draining then mendAbort n s else s
  | .channelUnit n => if s.chu.draining.getD n false then chuAbort n s else s
  | .function hp => functionExpires hp s

/-! ### Errors of on-die memories (R175, R227, R319) -/

/-- A spine's memory is found bad as it leaves retention (R419): the part rejoins with that table empty, and names it. -/
def emptyTable (t : SpineTable) (s : Part) : Part :=
  let s := match t with
    | .routes => onPool (fun p => { p with routeParts := [] }) s
    | .paths => onPool (fun p => { p with routePorts := [] }) s
    | .salts => onPool (fun p => { p with salts := List.replicate 32 0 }) s
    | .groups => onCollectives (fun b => { b with groups := [] }) s
    | .members => onCollectives (fun b => { b with members := [] }) s
    | .foldSlots => onCompression (fun b => { b with slots := [] }) s
  note 255 2 none .tableLost [t.ctorIdx] s

/-- INTERNAL_MEMORY_UE: an uncorrectable error in a memory of R319. -/
def internalUe (mem : SramUe) (s : Part) : Part :=
  match mem with
  | .tables => fastReset 1 s
  | .cellMetadata => if mayReset s then fastReset 1 (loseWaiting s) else s
  | .retention t => if !s.cur.fastPending then fastReset 1 s else if isTray s then s else emptyTable t s
  | .cellPayload port vc => discardFirst port vc s
  | .reduction c k =>
    onCollectives (fun b => { b with contexts := (b.contexts.map fun p =>
      if p.1 = c && thas p.2.chunks k then
        (p.1, { p.2 with chunks := tmod p.2.chunks k Chunk.start fun h => { h with poison := true } })
      else p) }) s
  | .mending i n =>
    onStreaming (fun b => { b with streams := b.streams.map fun p => if p.1 = i then (i, spoilTile stPoison n p.2) else p }) s

end Sys2Proof.Machine
end

