-- ==== Sys2Proof/Machine/Mailbox.lean ====
section
/-!
DEFINITION. The mailbox and its commands (R485 to R487, R491 to R494, R496, R497, R566), and the words of IDN (R502).
-/

namespace Sys2Proof.Machine

open Sys2Proof

/-! ### IDN (R502) -/

/-- IDN_IDENTITY. -/
def idnIdentity : Nat := 0x4D53 + 0x2400 * 2 ^ 16 + 0xB0 * 2 ^ 32

/-- IDN_FW. -/
def idnFw (s : Part) : Nat :=
  let c := s.cur
  c.fwVersion + c.runSlot * 2 ^ 32 + bitOf c.trialBoot * 2 ^ 33 + bitOf ((directory s.mgmt).active ≠ c.runSlot) * 2 ^ 34 +
  bitOf c.recovery * 2 ^ 35 + c.fwSvn * 2 ^ 36 + c.floor * 2 ^ 42

/-- IDN_BOOT. -/
def idnBoot (s : Part) : Nat := s.cur.phase + s.cur.haltCause * 2 ^ 4 + s.cur.coldBoots.toNat * 2 ^ 16

/-! ### Channels (R491, R492) -/

/-- A mailbox channel. -/
def mailChannel (c : Nat) (s : Part) : MailChannel := s.mgmt.channels.getD c MailChannel.reset

/-- Change a mailbox channel. -/
def onMail (c : Nat) (f : MailChannel → MailChannel) (s : Part) : Part :=
  onManagement (fun m => { m with channels := m.channels.mapIdx fun i x => if i = c then f x else x }) s

/-- Raise an MSI-X vector of function 0 of the host port whose channel it is (R488). -/
def raiseVector (c v : Nat) (s : Part) : Part :=
  if c < 2 then onHost c (fun h => { h with vectors := h.vectors ++ [v] }) s else s

/-- Can the channel's requester reach it: a host over its link, the cores once they run? -/
def mailOpen (c : Nat) (s : Part) : Bool :=
  blockReady 1 s && (if c < 2 then (host c s).link else c = 2 && s.mgmt.coresOn)

/-- Does the Curator serve only what R477 lists? -/
def inRecovery (s : Part) : Bool := s.cur.phase = 14

/-- Is an opcode in R493 and listed for the channel (check 1 of R566)? -/
def opListed (c op : Nat) (s : Part) : Bool :=
  let all := op ∈ [0x01, 0x10, 0x30, 0x31, 0x40, 0x60]
  let hosts := op ∈ [0x20, 0x21, 0x22, 0x23, 0x24, 0x25, 0x26]
  (all || (hosts && c < 2) || (op = 0x50 && c = 2)) && !(inRecovery s && op ∈ [0x10, 0x50])

/-- Bytes that an UPDATE_WRITE carries: 2,048, or the final remainder of the session's length. Without a session no remainder is known,
and any up to 2,048 pass (log entry 89). -/
def writeBytesOk (n : Nat) (s : Part) : Bool :=
  match s.mgmt.session with
  | none => 1 ≤ n && n ≤ 2048
  | some u => n = 2048 || (0 < n && n = u.len % 2048)

/-- Is LENGTH the command's payload (check 2)? -/
def lengthOk (op n : Nat) (p : List Byte) (s : Part) : Bool :=
  if op = 0x10 then n = kmLength (kmKind p)
  else if op = 0x20 then n = 4
  else if op = 0x21 then 4 < n && writeBytesOk (n - 4) s
  else if op = 0x30 then n = 1
  else if op = 0x31 then n = 1024
  else if op = 0x40 then n = 5
  else if op = 0x50 then n = 64
  else n = 0

/-- Does every payload field lie within its values (check 3)? -/
def payloadOk (op : Nat) (p : List Byte) : Bool :=
  if op = 0x10 then kmFieldsOk p
  else if op = 0x20 then 0x2000 ≤ leAt p 0 4 && leAt p 0 4 ≤ 0x2000 + 25157632
  else if op = 0x30 then leAt p 0 1 ∈ [0, 1, 0xFF]
  else if op = 0x40 then 1 ≤ leAt p 4 1 && leAt p 4 1 ≤ 63
  else true

/-! ### NOR sessions (R485, R486) -/

/-- Bytes of a record copy as CONFIG_READ returns them. The copy in force is the one that the directory's RECORD names (R474). -/
def recordCopy (k : Nat) (s : Part) : List Byte :=
  s.mgmt.records.getD (if k = 0xFF then (directory s.mgmt).record else k) []

/-- The slot that an update writes. -/
def updateSlot (s : Part) : Nat := 1 - s.cur.runSlot

/-- Begin an async step: the answer is ACCEPTED. -/
def beginAsync (op c offset : Nat) (bytes : List Byte) (s : Part) : Nat × List Byte × Part :=
  (9, [], onManagement (fun m =>
    { m with async := m.async ++ [{ op := op, chan := c, offset := offset, bytes := bytes }], asyncDone := false }) s)

/-- Is an async step of an update session under way? UPDATE_CONFIRM belongs to none (R486). -/
def updateStep (a : AsyncStep) : Bool := a.op ∈ [0x20, 0x21, 0x22, 0x23]
def updateRuns (s : Part) : Bool := s.mgmt.async.any updateStep

/-- Does a NOR session exist (R486)? -/
def norSession (s : Part) : Bool := s.mgmt.session.isSome || s.mgmt.async.any fun a => updateStep a || a.op = 0x31

/-- UPDATE_BEGIN. -/
def updateBegin (c : Nat) (p : List Byte) (s : Part) : Nat × List Byte × Part :=
  let d := directory s.mgmt
  if norSession s then (3, [], s)
  else if d.trial ≠ 0 || d.active ≠ s.cur.runSlot then (4, [], s)
  else if !norUsable s then (8, [], s)
  else
    beginAsync 0x20 c 0 [] (onManagement (fun m => { m with session := some { len := leAt p 0 4, next := 0, verified := false } }) s)

/-- UPDATE_WRITE. -/
def updateWrite (c : Nat) (p : List Byte) (s : Part) : Nat × List Byte × Part :=
  match s.mgmt.session with
  | none => (4, [], s)
  | some u =>
    if updateRuns s || leAt p 0 4 ≠ u.next || u.len ≤ u.next || p.length - 4 ≠ min 2048 (u.len - u.next) then (4, [], s)
    else if !norUsable s then (8, [], s)
    else beginAsync 0x21 c u.next (p.drop 4) s

/-- UPDATE_VERIFY. -/
def updateVerify (c : Nat) (s : Part) : Nat × List Byte × Part :=
  match s.mgmt.session with
  | none => (4, [], s)
  | some u =>
    if updateRuns s || u.next < u.len then (4, [], s)
    else if !norUsable s then (8, [], s)
    else beginAsync 0x22 c 0 [] s

/-- UPDATE_ACTIVATE. -/
def updateActivate (c : Nat) (s : Part) : Nat × List Byte × Part :=
  match s.mgmt.session with
  | none => (4, [], s)
  | some u =>
    if updateRuns s || !u.verified then (4, [], s)
    else if !norUsable s then (8, [], s)
    else beginAsync 0x23 c 0 [] s

/-- UPDATE_CONFIRM. -/
def updateConfirm (c : Nat) (s : Part) : Nat × List Byte × Part :=
  if (directory s.mgmt).trial = 0 then (4, [], s)
  else if !norUsable s then (8, [], s)
  else beginAsync 0x25 c 0 [] s

/-- UPDATE_ABORT ends an update session and its step; without one it changes nothing. -/
def updateAbort (s : Part) : Nat × List Byte × Part :=
  (0, [], onManagement (fun m =>
    { m with
      session := none
      async := m.async.filter fun a => !updateStep a }) s)

/-- UPDATE_STATUS. -/
def updateStatus (s : Part) : Nat × List Byte × Part :=
  let st := if !s.mgmt.async.isEmpty then 1 else if s.mgmt.asyncDone then 2 else 0
  (0, leBytes 4 (st + s.mgmt.asyncResult * 2 ^ 8), s)

/-- CONFIG_READ. -/
def configRead (p : List Byte) (s : Part) : Nat × List Byte × Part :=
  let k := leAt p 0 1
  if !norUsable s then (8, [], s) else (0, recordCopy k s, s)

/-- CONFIG_WRITE. -/
def configWrite (c : Nat) (p : List Byte) (s : Part) : Nat × List Byte × Part :=
  if norSession s then (3, [], s)
  else if !recordCrcOk p || !recordOk (recordOfBytes p) then (7, [], s)
  else if !norUsable s then (8, [], s)
  else beginAsync 0x31 c 0 p s

/-! ### The daybook (R496, R497) -/

/-- CODE of an event: the model's own numbers (R568). -/
def noteCode : Note → Nat
  | .roleNoModules => 0 | .ignoredModule => 1 | .channelFault => 2 | .commandWhileBusy => 3 | .outOfRange => 4
  | .lockedField => 5 | .badAccess => 6 | .eventDiscarded => 7 | .trainFailed => 8 | .paramMismatch => 9
  | .framingError => 10 | .portDown => 11 | .truncation => 12 | .configuredSize => 13 | .bufferSplit => 14
  | .ddrRate => 15 | .recordFallback => 16 | .subchannelLost => 17 | .surveyFound => 18 | .surveyReset => 19
  | .flipInVitrine => 20 | .fastReset => 21 | .coldBoot => 22 | .bootHalt => 23 | .partLoss => 24 | .vinHigh => 25
  | .clockLost => 26 | .clockBack => 27 | .auxOverload => 28 | .latchedCause => 29 | .trialFailed => 30
  | .mailboxIgnored => 31 | .mailboxDropped => 32 | .vitrineEntered => 33 | .vitrineRefused => 34 | .standInLost => 35
  | .mismatch => 36 | .tableLost => 37 | .driveDown => 38 | .driveUp => 39 | .unrecovered => 40 | .wear => 41
  | .journal => 42 | .enrolled => 43 | .thermal => 44 | .throttle => 45 | .modeChanged => 46 | .recordWritten => 47
  | .imageWritten => 48 | .imageConfirmed => 49 | .debugSeen => 50 | .jobNote => 51 | .pllRetry => 52
  | .qmapConflict => 53 | .galleryPort => 54 | .privateKept => 55 | .heartbeat => 56 | .sensorBad => 57 | .ecoPorts => 58
  | .scratch => 59 | .driveRejected => 60 | .other n => 61 + n

/-- The 64 bytes of an entry (R497). -/
def entryBytes (e : DaybookEntry) : List Byte :=
  let flags := e.severity + (match e.gallery with | some g => g * 4 + 32 | none => 0)
  leBytes 8 e.time ++ leBytes 4 e.seq.toNat ++ leBytes 2 e.boot.toNat ++ leBytes 1 e.block ++ leBytes 1 flags ++
  leBytes 2 (noteCode e.code) ++ leBytes 2 e.count ++ leBytes 4 0 ++
  (listBytes 8 ((List.range 5).map fun i => e.detail.getD i 0))

/-- Entries whose SEQ lies in a range, rising: those in SRAM, and those that only the NOR ring still holds. -/
def entriesFrom (first n : Nat) (s : Part) : List DaybookEntry :=
  let ring := if norUsable s then s.mgmt.norRing else []
  let all := s.mgmt.daybook ++ ring.filter fun e => !(s.mgmt.daybook.any fun x => x.seq = e.seq)
  (List.range n).filterMap fun i => all.find? fun e => e.seq = BitVec.ofNat 32 (first + i)

/-- DAYBOOK_READ. -/
def daybookRead (p : List Byte) (s : Part) : Nat × List Byte × Part :=
  (0, (entriesFrom (leAt p 0 4) (leAt p 4 1) s).flatMap entryBytes, s)

/-! ### Commands (R493) -/

/-- GET_INFO. -/
def getInfo (s : Part) : Nat × List Byte × Part :=
  (0, leBytes 8 idnIdentity ++ leBytes 8 s.cur.serial.toNat ++ leBytes 8 (idnFw s) ++ leBytes 8 (idnBoot s), s)

/-- KEY_MSG, by its KIND. -/
def keyMessage (p : List Byte) (s : Part) : Nat × List Byte × Part :=
  let (r, s) := match kmKind p with
    | 1 => keyInstall p s
    | 2 => keyRotate p s
    | 3 => collectionLoad p s
    | _ => bindMessage p s
  (r, [], s)

/-- MEASURE_EXTEND. -/
def measureExtend (p : List Byte) (s : Part) : Nat × List Byte × Part :=
  (0, [], onManagement (fun m => { m with extends7 := m.extends7 ++ [p] }) s)

/-- COLD_RESET: answered, and the reset follows 10 ms later. -/
def coldReset (s : Part) : Nat × List Byte × Part := (0, [], onManagement (fun m => { m with coldPending := true }) s)

/-- Perform a command that has passed the checks of R566: its RESULT, its payload out, and what it does. -/
def mailPerform (c op : Nat) (p : List Byte) (s : Part) : Nat × List Byte × Part :=
  match op with
  | 0x01 => getInfo s
  | 0x10 => keyMessage p s
  | 0x20 => updateBegin c p s
  | 0x21 => updateWrite c p s
  | 0x22 => updateVerify c s
  | 0x23 => updateActivate c s
  | 0x24 => updateStatus s
  | 0x25 => updateConfirm c s
  | 0x26 => updateAbort s
  | 0x30 => configRead p s
  | 0x31 => configWrite c p s
  | 0x40 => daybookRead p s
  | 0x50 => measureExtend p s
  | _ => coldReset s

/-- The checks of R566 in their order, then the command. -/
def mailCommand (c op n : Nat) (p : List Byte) (s : Part) : Nat × List Byte × Part :=
  if !opListed c op s || (op = 0x10 && !(kmKind p ∈ [1, 2, 3, 4])) then (1, [], s)
  else if !lengthOk op n p s then (2, [], s)
  else if !payloadOk op p then (1, [], s)
  else mailPerform c op p s

/-- The header of a request or response (R492). -/
def mailHeader (op result n tag : Nat) : List Byte := leBytes 2 op ++ leBytes 2 result ++ leBytes 4 n ++ leBytes 4 tag ++ leBytes 4 0

/-- The Curator takes the request of a channel, performs it and answers (R491). -/
def mailServe (c : Nat) (s : Part) : Part :=
  let req := (mailChannel c s).req
  let op := leAt req 0 2
  let n := leAt req 4 4
  let (r, out, s) := mailCommand c op n (sliceBytes req 16 (min n 4080)) (count 1 0 0 1 s)
  let s := onMail c (fun x => { x with rsp := mailHeader op r out.length (leAt req 8 4) ++ out, done := true }) s
  if (mailChannel c s).intEn then raiseVector c 0 s else s

/-- A write of RING: ignored and recorded while BUSY or DONE (R491). -/
def mailRing (c : Nat) (s : Part) : Part :=
  if !mailOpen c s then s
  else if (mailChannel c s).busy || (mailChannel c s).done then note 1 1 none .mailboxIgnored [c] s
  else mailServe c s

/-- A requester writes a request and rings (R491 steps 1 to 4). -/
def mailSend (c op : Nat) (p : List Byte) (s : Part) : Part :=
  if !mailOpen c s then s
  else if (mailChannel c s).busy || (mailChannel c s).done then note 1 1 none .mailboxIgnored [c] s
  else mailServe c (onMail c (fun x => { x with req := mailHeader op 0 p.length 0 ++ p.take 4080 }) s)

/-! ### The end of an async step (R485, R492) -/

/-- Erase the 64 KiB sectors that a length covers. -/
def eraseSlot (k n : Nat) (m : Management) : Management :=
  let z := 65536 * ceilDiv n 65536
  { m with images := m.images.mapIdx fun i x => if i = k then { bytes := List.replicate z 0xFF ++ x.bytes.drop z } else x }

/-- Program bytes of a slot. -/
def programSlot (k off : Nat) (bs : List Byte) (m : Management) : Management :=
  { m with images := m.images.mapIdx fun i x => if i = k then { bytes := patchBytes x.bytes off bs } else x }

/-- The update is confirmed: fuses first, then the directory (R485 step 6). -/
def confirmImage (s : Part) : Part :=
  let bs := imageBytes ((directory s.mgmt).active % 2) s.mgmt
  let s := onCurator (fun c =>
    { c with
      floor := if bitAt (imgFlags bs) 0 then max c.floor (imgSvn bs) else c.floor
      revoked := if bitAt (imgFlags bs) 1 then
        c.revoked ++ (List.range (imgSigner bs)).filter fun k => !(k ∈ c.revoked) else c.revoked
      trialBoot := false }) s
  onManagement (writeDirectory fun d => { d with trial := 0 }) s

/-- What an async step does, and its result. -/
def asyncEffect (a : AsyncStep) (s : Part) : Nat × Part :=
  let slot := updateSlot s
  let onSession (f : UpdateSession → UpdateSession) (s : Part) : Part :=
    onManagement (fun m => { m with session := m.session.map f }) s
  match a.op with
  | 0x20 =>
    let n := (s.mgmt.session.map (·.len)).getD 0
    (0, count 1 0 2 (ceilDiv n 65536) (onManagement (eraseSlot slot n) s))
  | 0x21 =>
    (0, onSession (fun u => { u with next := u.next + a.bytes.length }) (onManagement (programSlot slot a.offset a.bytes) s))
  | 0x22 =>
    if imageOk s.cur (imageBytes slot s.mgmt) then (0, onSession (fun u => { u with verified := true }) s) else (6, s)
  | 0x23 =>
    (0, onManagement (fun m => { writeDirectory (fun d => { d with active := slot, trial := 1 }) m with session := none }) s)
  | 0x25 => (0, confirmImage s)
  | _ =>
    let k := 1 - (directory s.mgmt).record % 2
    (0, onManagement (writeDirectory fun d => { d with record := k })
      (onManagement (fun m => { m with records := lset m.records k a.bytes }) (count 1 0 2 1 s)))

/-- NOR_STEP_END: the oldest async step ends and reports through UPDATE_STATUS and vector 1 (R492); a channel that has been reset is told
nothing (R490). -/
def norStepEnds (s : Part) : Part :=
  match s.mgmt.async with
  | [] => s
  | a :: rest =>
    if s.cur.power = .off then s
    else
      let (r, s) := if norUsable s then asyncEffect a s else (8, s)
      let s := onManagement (fun m => { m with async := rest, asyncDone := true, asyncResult := r }) s
      if 3 ≤ a.chan then note 1 1 none .mailboxDropped [a.op, r] s
      else raiseVector a.chan 1 (onMail a.chan (fun x => { x with norDone := true }) s)

end Sys2Proof.Machine
end

