-- ==== Sys2Proof/Machine/Reg.lean ====
section
/-!
DEFINITION. The names of the registers, and where each lies: the blocks of R522 and the index of R538.
-/

namespace Sys2Proof.Machine

/-- The command sequences of R527. -/
inductive SeqName | ext | region | tbl | cat | clv | str | slot | job | fill | survey | chu | flt | gal | flr | census
  deriving DecidableEq, Repr

/-- The argument registers of R532, of which each view has its own. -/
inductive ArgName
  | tblData | regionObj | catObj | catExt | clvDesc | strAddr | strArg | foldAddr | foldArg | jobDesc | fillLines | fillPattern
  | surveyBase | surveyLen | chuDesc | fltArg | flrArg
  deriving DecidableEq, Repr

/-- A register (R538). The words of a register of several words are numbered on through the array. -/
inductive Reg
  | idn (n : Nat) | doorbell | mbStatus | mbReq (n : Nat) | mbRsp (n : Nat) | curWin (n : Nat)
  | bufCfg | bufGal | bufCtrl | bufFree | cplTimeout | retxTimer | streamIdle | stallTimer
  | linkCtrl (n : Nat) | linkStatus (n : Nat) | replayCtrl (n : Nat)
  | qmap (n : Nat) | portCfg (n : Nat) | mirror (n : Nat) | flow (n : Nat) | qCfg (n : Nat) | shaper (n : Nat) | policer (n : Nat)
  | dramLayout | salt (n : Nat) | regionCtrl | dist (n : Nat)
  | scratch | scratchFree (n : Nat) | mcg (n : Nat) | mcm (n : Nat)
  | runLimit | turn | gfuCtrl (n : Nat) | gfuStatus (n : Nat) | strCtrl | strQuery
  | slotCtrl (n : Nat) | slotInfo (n : Nat) | mendCtrl (n : Nat) | mendStatus (n : Nat)
  | chStatus (n : Nat) | surveyRate | surveySum (n : Nat) | flipData | flipCtrl | flipHit
  | chuCtrl (n : Nat) | chuStatus (n : Nat) | fltCtrl | fltRoom | driveStatus (n : Nat) | driveZcap (n : Nat)
  | galCtrl (n : Nat) | galKey (n : Nat) | galAgent | galPort (n : Nat) | galReenc | galVitrine | galBind (n : Nat)
  | pwrMode | pwrEco | pwrEcoPorts (n : Nat) | pwrStatus | pwrThermal | pwrThrottle | pwrClass (n : Nat)
  | telSel | telVal (n : Nat) | telCat | telClear | censusTime | temp (n : Nat) | volt (n : Nat)
  | standProgress | resetCause | drain | sysTwin | spotCtrl | reCtrl (n : Nat) | twinDown (n : Nat) | faultEntry (g w : Nat)
  | faultPop (g : Nat) | apcWin (n : Nat) | apcError
  | cmd (q : SeqName) | status (q : SeqName) | arg (a : ArgName) (n : Nat) | event (q : QueueName) | info (q : QueueName)
  deriving DecidableEq, Repr

/-- A row of the index: where a register or an array of them lies in its block, and which are 64 bits wide. -/
structure RegRow where
  first  : Nat
  stride : Nat
  count  : Nat
  wide   : Bool
  reg    : Nat → Reg

/-- A 32-bit and a 64-bit register, and arrays of them. -/
def reg32 (off : Nat) (r : Reg) : RegRow := { first := off, stride := 4, count := 1, wide := false, reg := fun _ => r }
def reg64 (off : Nat) (r : Reg) : RegRow := { first := off, stride := 8, count := 1, wide := true, reg := fun _ => r }
def regs32 (off count : Nat) (r : Nat → Reg) : RegRow := { first := off, stride := 4, count := count, wide := false, reg := r }
def regs64 (off count : Nat) (r : Nat → Reg) : RegRow := { first := off, stride := 8, count := count, wide := true, reg := r }

/-- The index of a block (R538). -/
def regRows : Nat → List RegRow
  | 0 => [regs64 0 4 .idn]
  | 1 => [reg32 0 .doorbell, reg32 4 .mbStatus, regs32 0x1000 1024 .mbReq, regs32 0x2000 1024 .mbRsp, regs64 0x4000 256 .curWin]
  | 2 => [reg64 0 .bufCfg, reg64 8 .bufGal, reg32 0x10 .bufCtrl, reg64 0x18 .bufFree, reg32 0xF00 .cplTimeout, reg32 0xF04 .retxTimer,
          reg32 0xF08 .streamIdle, reg32 0xF0C .stallTimer]
  | 3 => [{ first := 0, stride := 0x2000, count := 128, wide := false, reg := .linkCtrl },
          { first := 4, stride := 0x2000, count := 128, wide := false, reg := .linkStatus },
          { first := 8, stride := 0x2000, count := 128, wide := false, reg := .replayCtrl }]
  | 4 => [regs64 0 8 .qmap, regs32 0x100 256 .portCfg, regs32 0x500 4 .mirror, regs64 0x1000 512 .flow, regs64 0x10000 8192 .qCfg,
          regs64 0x20000 1024 .shaper, regs64 0x30000 4096 .policer]
  | 5 => [reg32 0 .dramLayout, reg64 0x10 (.cmd .ext), reg32 0x18 (.status .ext), regs32 0x100 32 .salt, reg64 0x200 (.arg .regionObj 0),
          reg64 0x208 (.cmd .region), reg64 0x210 (.status .region), reg32 0x218 .regionCtrl, reg32 0x220 (.event .region),
          reg64 0x228 (.info .region), reg64 0x300 (.cmd .tbl), reg64 0x308 (.status .tbl), regs64 0x340 8 (.arg .tblData)]
  | 6 => [reg64 0 (.arg .catObj 0), reg64 8 (.cmd .cat), reg32 0x10 (.arg .catExt 0), reg64 0x18 (.status .cat), reg32 0x20 (.event .cat),
          reg64 0x28 (.info .cat), regs32 0x1000 1024 .dist]
  | 7 => [regs64 0 8 (.arg .clvDesc), reg64 0x40 (.cmd .clv), reg64 0x48 (.status .clv), reg32 0x50 (.event .clv), reg32 0x58 .scratch,
          regs32 0x60 8 .scratchFree, regs64 0x10000 8192 .mcg, regs64 0x40000 65536 .mcm]
  | 8 => [reg32 0 .runLimit, reg32 4 .turn, regs32 0x100 32 .gfuCtrl, regs32 0x200 32 .gfuStatus]
  | 9 => [reg64 0 (.arg .strAddr 0), reg64 8 (.arg .strArg 0), reg64 0x10 (.cmd .str), reg64 0x18 (.status .str), reg32 0x20 .strCtrl,
          reg32 0x28 (.event .str), reg64 0x30 .strQuery]
  | 10 => [reg64 0 (.arg .foldAddr 0), reg64 8 (.arg .foldArg 0), reg32 0x10 (.cmd .slot), reg32 0x18 (.status .slot),
           regs32 0x100 16 .slotCtrl, regs64 0x180 16 .slotInfo, regs64 0x200 6 (.arg .jobDesc), reg64 0x240 (.cmd .job),
           reg64 0x248 (.status .job), reg32 0x250 (.event .cmp), regs32 0x300 16 .mendCtrl, regs32 0x340 16 .mendStatus]
  | 11 => [{ first := 0, stride := 0x10000, count := 24, wide := false, reg := .chStatus }, reg64 0x180000 (.cmd .fill),
           reg64 0x180008 (.arg .fillLines 0), reg64 0x180010 (.arg .fillPattern 0), reg64 0x180018 (.status .fill),
           reg64 0x180040 (.arg .surveyBase 0), reg64 0x180048 (.arg .surveyLen 0), reg32 0x180050 (.cmd .survey),
           reg64 0x180058 (.status .survey), reg32 0x180060 .surveyRate, regs64 0x180080 8 .surveySum, reg64 0x1800C0 .flipData,
           reg32 0x1800C8 .flipCtrl, reg64 0x1800D0 .flipHit]
  | 12 => [regs64 0 8 (.arg .chuDesc), reg64 0x40 (.cmd .chu), reg64 0x48 (.status .chu), reg32 0x50 (.event .chu), reg64 0x58 (.info .chu),
           regs32 0x100 24 .chuCtrl, regs32 0x200 24 .chuStatus]
  | 13 => [reg64 0 (.cmd .flt), reg32 8 (.arg .fltArg 0), reg64 0x10 (.status .flt), reg32 0x18 (.event .flt), reg64 0x20 (.info .flt),
           reg32 0x28 .fltCtrl, reg64 0x30 .fltRoom, regs64 0x100 8 .driveStatus, regs32 0x180 8 .driveZcap]
  | 14 => [reg64 0 (.cmd .gal), reg32 8 (.status .gal), regs32 0x100 8 .galCtrl, regs64 0x200 16 .galKey, reg32 0x300 .galAgent,
           regs32 0x400 32 .galPort, reg32 0x500 .galReenc, reg32 0x504 .galVitrine, reg32 0x600 (.event .gal), regs64 0x1000 128 .galBind]
  | 15 => [reg32 0 .pwrMode, reg32 4 .pwrEco, regs32 0x10 4 .pwrEcoPorts, reg64 0x20 .pwrStatus, reg32 0x28 .pwrThermal,
           reg32 0x2C .pwrThrottle, reg32 0x30 (.event .pwr), regs32 0x100 16 .pwrClass]
  | 16 => [reg64 0 .telSel, regs64 8 8 .telVal, reg64 0x48 .telCat, reg32 0x50 .telClear, reg32 0x54 (.cmd .census),
           reg64 0x58 (.status .census), reg64 0x60 .censusTime, reg32 0x68 (.event .tel), reg64 0x70 (.info .tel), regs32 0x100 64 .temp,
           regs32 0x200 32 .volt]
  | 17 => [reg64 0 (.cmd .flr), reg64 8 (.arg .flrArg 0), reg32 0x10 (.status .flr), reg64 0x18 .standProgress, reg32 0x20 .resetCause,
           reg32 0x24 .drain, reg32 0x28 .sysTwin, reg64 0x30 .spotCtrl, reg32 0x40 (.event .flr), reg64 0x48 (.info .flr),
           regs32 0x100 64 .reCtrl, regs32 0x200 128 .twinDown] ++
          ((List.range 4).map fun w => { first := 0x1000 + 8 * w, stride := 64, count := 8, wide := true, reg := fun g => .faultEntry g w }) ++
          [{ first := 0x1020, stride := 64, count := 8, wide := false, reg := .faultPop }]
  | 18 => [regs64 0 8192 .apcWin, reg64 0x10000 .apcError]
  | _ => []

/-- The bases of the blocks (R522). -/
def blockBases : List Nat :=
  [0, 0x1000, 0x100000, 0x400000, 0x600000, 0x800000, 0xA00000, 0xC00000, 0xD00000, 0xE00000, 0xF00000, 0x1000000, 0x1200000, 0x1400000,
   0x1600000, 0x1800000, 0x1A00000, 0x1C00000, 0x1E00000]

/-- The block of an offset; an offset outside every block counts with the last (R522). -/
def blockOf (off : Nat) : Nat := (blockBases.filter fun b => b ≤ off).length - 1

/-- The base of a block. -/
def blockBase (block : Nat) : Nat := blockBases.getD block 0

/-- Where an offset falls: its register, whether that is 64 bits wide, and the byte of it. -/
structure RegPlace where
  reg  : Reg
  wide : Bool
  at_  : Nat
  deriving DecidableEq, Repr

/-- The place of a block offset in a row, if it falls in one. -/
def rowPlace (off : Nat) (r : RegRow) : Option RegPlace :=
  let k := (off - r.first) / r.stride
  let at_ := (off - r.first) % r.stride
  if r.first ≤ off && k < r.count && at_ < (if r.wide then 8 else 4) then
    some { reg := r.reg k, wide := r.wide, at_ := at_ }
  else none

/-- The register at an offset of BAR0, if one lies there (R538). -/
def regAt (off : Nat) : Option RegPlace :=
  if 0x2000000 ≤ off then none else (regRows (blockOf off)).findSome? (rowPlace (off - blockBase (blockOf off)))

end Sys2Proof.Machine
end

