-- ==== Sys2Proof/Machine/Registers.lean ====
section
/-!
DEFINITION. The register blocks (chapter 18): what each register reads as (R9), what a write of it does, and the accesses of the four
views (R523 to R529).
-/

namespace Sys2Proof.Machine

open Sys2Proof

/-! ### Command sequences (R527) -/

/-- The command sequence of a name. -/
def seqOf (q : SeqName) (s : Part) : CmdSeq :=
  match q with
  | .ext => s.pool.extSeq | .region => s.regions.seq | .tbl => s.pool.tblSeq | .cat => s.cat.seq | .clv => s.clv.seq
  | .str => s.str.seq | .slot => s.cmp.slotSeq | .job => s.cmp.jobSeq | .fill => s.dram.fillSeq | .survey => s.dram.surveySeq
  | .chu => s.chu.seq | .flt => s.flt.seq | .gal => s.gals.seq | .flr => s.flr.seq | .census => s.tel.seq

/-- The block of a sequence. -/
def seqBlock : SeqName → Nat
  | .ext | .region | .tbl => 5 | .cat => 6 | .clv => 7 | .str => 9 | .slot | .job => 10 | .fill | .survey => 11 | .chu => 12
  | .flt => 13 | .gal => 14 | .flr => 17 | .census => 16

/-- A write of a command register by a view. -/
def writeCmd (q : SeqName) (view v : Nat) (s : Part) : Part :=
  match q with
  | .ext => writeExtCmd view v s | .region => writeRegionCmd view v s | .tbl => writeTblCmd view v s
  | .cat => writeCatCmd view v s | .clv => writeClvCmd view v s | .str => writeStrCmd view v s | .slot => writeSlotCmd view v s
  | .job => writeJobCmd view v s | .fill => writeFillCmd view v s | .survey => writeSurveyCmd view v s
  | .chu => writeChuCmd view v s | .flt => writeFltCmd view v s | .gal => writeGalCmd view v s | .flr => writeFlrCmd view v s
  | .census => writeCensusCmd view v s

/-- The number of a stand-in state (R443). -/
def standNum : StandIn → Nat
  | .none => 0 | .spare => 1 | .shadow => 2 | .compare => 3 | .taken => 4

/-- What a status register holds beside BUSY, RESULT and the outcome of the view's last command (R142, R322, R443, R520). -/
def seqExtra (q : SeqName) (view : Nat) (s : Part) : Nat :=
  match q with
  | .cat => walkProgress view s * 2 ^ 32
  | .survey => s.dram.surveyId.toNat * 2 ^ 16
  | .flr => standNum s.flr.standIn * 2 ^ 5 + s.flr.forPart * 2 ^ 8
  | .census => censusNum s.tel.census * 2 ^ 3 + s.tel.censusId.toNat * 2 ^ 16
  | _ => 0

/-- A status register as a view reads it: BUSY also while the block takes no commands (R533). -/
def statusWord (q : SeqName) (view : Nat) (s : Part) : Nat :=
  let x := seqOf q s
  bitOf (x.busy.getD view false || !blockReady (seqBlock q) s) + x.result.getD view 0 * 2 + x.value.getD view 0 + seqExtra q view s

/-! ### Argument registers (R526, R532) -/

/-- The writable bits of an argument register. -/
def argMask : ArgName → Nat
  | .catExt => 2 ^ 18 - 1 | .strAddr | .foldAddr => 2 ^ 58 - 1 | .strArg | .foldArg => 2 ^ 32 - 1
  | .fillLines => (2 ^ 22 - 1) * 2 ^ 32 + 2 ^ 21 - 1 | .surveyBase | .surveyLen => 2 ^ 46 - 1 | .fltArg => 2 ^ 22 - 1
  | .flrArg => 2 ^ 25 - 1
  | .tblData | .regionObj | .catObj | .clvDesc | .jobDesc | .fillPattern | .chuDesc => 2 ^ 64 - 1

/-- Word `n` of a view's words. -/
def wordOf (xs : List (List Nat)) (view n : Nat) : Nat := (xs.getD view []).getD n 0

/-- Replace word `n` of a view's words. -/
def setWord (xs : List (List Nat)) (view n v : Nat) : List (List Nat) := lset xs view (lset (xs.getD view []) n v)

/-- An argument register of a view. -/
def argValue (a : ArgName) (n view : Nat) (s : Part) : Nat :=
  match a with
  | .tblData => ((s.pool.tblData.getD view []).getD n 0).toNat
  | .regionObj => (s.regions.obj.getD view 0).toNat
  | .catObj => (s.cat.obj.getD view 0).toNat
  | .catExt => s.cat.cmdExt.getD view 0
  | .clvDesc => wordOf s.clv.descs view n
  | .strAddr => s.str.progAddr.getD view 0
  | .strArg => s.str.progArg.getD view 0
  | .foldAddr => s.cmp.tblAddr.getD view 0
  | .foldArg => s.cmp.tblArg.getD view 0
  | .jobDesc => wordOf s.cmp.jobDescs view n
  | .fillLines => s.dram.fillLines.getD view 0
  | .fillPattern => s.dram.fillPattern.getD view 0
  | .surveyBase => s.dram.surveyBase.getD view 0
  | .surveyLen => s.dram.surveyLen.getD view 0
  | .chuDesc => wordOf s.chu.descs view n
  | .fltArg => s.flt.cmdArg.getD view 0
  | .flrArg => s.flr.cmdArg.getD view 0

/-- A write of an argument register by a view. -/
def writeArg (a : ArgName) (n view v : Nat) (s : Part) : Part :=
  let v := v &&& argMask a
  match a with
  | .tblData => onPool (fun b => { b with tblData := lset b.tblData view (lset (b.tblData.getD view []) n (BitVec.ofNat 64 v)) }) s
  | .regionObj => onRegions (fun b => { b with obj := lset b.obj view (BitVec.ofNat 64 v) }) s
  | .catObj => onCatalogue (fun b => { b with obj := lset b.obj view (BitVec.ofNat 64 v) }) s
  | .catExt => onCatalogue (fun b => { b with cmdExt := lset b.cmdExt view v }) s
  | .clvDesc => onCollectives (fun b => { b with descs := setWord b.descs view n v }) s
  | .strAddr => onStreaming (fun b => { b with progAddr := lset b.progAddr view v }) s
  | .strArg => onStreaming (fun b => { b with progArg := lset b.progArg view v }) s
  | .foldAddr => onCompression (fun b => { b with tblAddr := lset b.tblAddr view v }) s
  | .foldArg => onCompression (fun b => { b with tblArg := lset b.tblArg view v }) s
  | .jobDesc => onCompression (fun b => { b with jobDescs := setWord b.jobDescs view n v }) s
  | .fillLines => onDram (fun b => { b with fillLines := lset b.fillLines view v }) s
  | .fillPattern => onDram (fun b => { b with fillPattern := lset b.fillPattern view v }) s
  | .surveyBase => onDram (fun b => { b with surveyBase := lset b.surveyBase view v }) s
  | .surveyLen => onDram (fun b => { b with surveyLen := lset b.surveyLen view v }) s
  | .chuDesc => onChannelUnits (fun b => { b with descs := setWord b.descs view n v }) s
  | .fltArg => onFlash (fun b => { b with cmdArg := lset b.cmdArg view v }) s
  | .flrArg => onRecovery (fun b => { b with cmdArg := lset b.cmdArg view v }) s

/-! ### What registers read as -/

/-- Link state of a logical port, with the kind of its peer (R78). -/
def linkNum (port : Nat) (s : Part) : Nat :=
  let x := lport port s
  let st := match x.link with | .down => 0 | .train => 1 | .lock => 2 | .align => 3 | .param => 4 | .active => 5
  st + bitOf x.peerYp * 2 ^ 3

/-- FPT_LINK_STATUS (R78). -/
def linkStatusWord (fp : Nat) (s : Part) : Nat :=
  linkNum (2 * fp) s + (if brokenOut fp s then linkNum (2 * fp + 1) s * 2 ^ 4 else 0)

/-- TRF_PORT_CFG_n (R376). -/
def portCfgWord (c : PortCfg) : Nat :=
  c.overhead + c.policer * 2 ^ 8 + bitOf c.police * 2 ^ 18 + bitOf c.mirrorIn * 2 ^ 19 + bitOf c.mirrorOut * 2 ^ 20 + c.session * 2 ^ 21

/-- TRF_Q_CFG_n (R379). -/
def qCfgWord (c : QueueCfg) : Nat :=
  c.weight + c.shaper * 2 ^ 16 + bitOf c.shaperEn * 2 ^ 25 + c.maxCells * 2 ^ 32 + c.alpha * 2 ^ 52

/-- TRF_SHAPER_n (R380). -/
def shaperWord (x : Shaper) (word : Nat) : Nat :=
  if word = 0 then x.rate + x.burst * 2 ^ 24 + bitOf x.resetFull * 2 ^ 48 else unsign 32 (x.tokens / 1024)

/-- TRF_POLICER_n (R381). -/
def policerWord (x : Policer) (word : Nat) : Nat :=
  match word with
  | 0 => bitOf x.twoRate + bitOf x.refuse * 2 + x.cir * 2 ^ 8 + x.pir * 2 ^ 32
  | 1 => x.cbs + x.ebs * 2 ^ 24
  | 2 => x.tokC / 1024 + x.tokE / 1024 * 2 ^ 32
  | _ => 0

/-- CMP_FOLD_SLOT_INFO_n (R270). -/
def slotInfoWord (n : Nat) (s : Part) : Nat :=
  let x := foldSlot n s
  let part (t : Option FoldTable) : Nat := match t with | some t => t.gen + 2 ^ 8 | none => 0
  let refs (t : Option FoldTable) : Nat := match t with | some t => tableRefs n t.gen s % 2 ^ 16 | none => 0
  part x.old + part x.new * 2 ^ 16 + refs x.old * 2 ^ 32 + refs x.new * 2 ^ 48

/-- MEM_CH_STATUS_n (R320). -/
def channelWord (c : Channel) : Nat :=
  bitOf c.trained + bitOf c.mrdimm * 2 + c.rate * 2 ^ 2 + c.capacity * 2 ^ 4 + c.ranks * 2 ^ 6 + bitOf c.hot * 2 ^ 8 +
  bitOf c.retraining * 2 ^ 9 + c.temp % 256 * 2 ^ 16

/-- The number of a drive state (R350). -/
def driveNum : DriveState → Nat
  | .absent => 0 | .starting => 1 | .ready => 2 | .down => 3 | .rejected => 4 | .unenrolled => 5 | .foreign => 6 | .warn => 7

/-- FLT_DRIVE_STATUS_n (R350). -/
def driveWord (d : Nat) (s : Part) : Nat :=
  let y := drive d s
  let bound := (s.flt.bound.filter fun p => driveOf p.1 = d).length
  driveNum y.state + y.rate * 2 ^ 3 + y.width * 2 ^ 5 + y.percent * 2 ^ 16 + y.zones.length * 2 ^ 24 + bound * 2 ^ 41

/-- FLR_STANDIN_PROGRESS (R443): back at 0 after a fast reset (R531), it counts the extents that come to a state since. -/
def standWord (s : Part) : Nat :=
  let n (st : CopyState) : Nat := (s.flr.standExts.filter fun p => p.2.counted && p.2.state = st).length
  n .done + n .checking + n .unchecked + n .compared + n .compared * 2 ^ 18 + n .lost * 2 ^ 36

/-- FLR_RE_CTRL_n (R445). -/
def reCtrlWord (n : Nat) (s : Part) : Nat :=
  bitOf (s.flr.reEnable.getD n true) + bitOf (n ∈ s.flr.quarantined) * 2 + bitOf (s.flr.reDraining.getD n false) * 4 +
  min 255 (recentMismatches n s) * 2 ^ 8

/-- FLR_TWIN_DOWN_n (R445). -/
def twinDownWord (n : Nat) (s : Part) : Nat := ((List.range 32).map fun k => bitOf (isTwinDown (32 * n + k) s) * 2 ^ k).sum

/-- The GALLERY nibbles of GAL_PORT_n (R409). -/
def galPortWord (n : Nat) (s : Part) : Nat := ((List.range 8).map fun k => portGallery (8 * n + k) s * 2 ^ (4 * k)).sum

/-- CAT_DIST_n (R144). -/
def distWord (n : Nat) (s : Part) : Nat := ((List.range 4).map fun k => tget s.cat.dist (4 * n + k) 0xFF * 2 ^ (8 * k)).sum

/-- A word of a mailbox buffer (R503). -/
def mailWord (bs : List Byte) (n : Nat) : Nat := leAt bs (4 * n) 4

/-- CUR_MB_STATUS (R503). -/
def mailStatusWord (c : MailChannel) : Nat := bitOf c.busy + bitOf c.done * 2 + bitOf c.intEn * 4 + bitOf c.norDone * 8

/-- The head of a queue as a view sees it: its latched entry, else the head (R528). -/
def headSeen (q : QueueName) (view : Nat) (s : Part) : Nat :=
  match (s.views[view]?).bind fun w => tget? w.latched (queueBlock q) with
  | some e => e.info
  | none => ((getQueue q s).entries.head?.map (·.info)).getD 0

/-- A word of the fault entry that a view sees (R414, R446). -/
def faultWord (view g w : Nat) (s : Part) : Nat :=
  match faultSeen view g s with
  | none => 0
  | some e => match w with | 0 => e.addr | 1 => e.notice | 2 => e.ident | _ => 0

/-- The whole value of a register for a view, without what a read of it does. -/
def regValue (r : Reg) (view : Nat) (s : Part) : Nat :=
  match r with
  | .idn n =>
    match n with
    | 0 => idnIdentity
    | 1 => s.cur.serial.toNat
    | 2 => idnFw s
    | _ => idnBoot s
  | .doorbell | .telClear | .cmd _ | .event _ | .faultPop _ => 0
  | .mbStatus => if view < 3 then mailStatusWord (mailChannel view s) else 0
  | .mbReq n => if view < 3 then mailWord (mailChannel view s).req n else 0
  | .mbRsp n => if view < 3 then mailWord (mailChannel view s).rsp n else 0
  | .curWin n => if view < 2 then (tget (host view s).win n 0).toNat else 0
  | .bufCfg => s.sw.replayMib + s.sw.engineMib * 2 ^ 8 + s.sw.mirrorMib * 2 ^ 16 + s.sw.sharedMib * 2 ^ 24
  | .bufGal => (s.sw.galMib.mapIdx fun g n => n * 2 ^ (8 * g)).sum
  | .bufCtrl => s.sw.yellow
  | .bufFree =>
    sharedFree s + (mibCells s.sw.engineMib - spaceUsed .engine s) * 2 ^ 20 + (mibCells s.sw.replayMib - replayUsed s) * 2 ^ 40
  | .cplTimeout => s.links.cplTimeout
  | .retxTimer => s.links.retxTimer
  | .streamIdle => s.links.streamIdle
  | .stallTimer => s.sw.stallTimer
  | .linkCtrl n => bitOf (tget s.links.enable n false) + bitOf (brokenOut n s) * 2
  | .linkStatus n => linkStatusWord n s
  | .replayCtrl n => tget s.links.ackTimeout n 4 + tget s.links.replayLimit n 8 * 2 ^ 8
  | .qmap g => (s.sw.qmap.getD g 0).toNat
  | .portCfg n => portCfgWord (portCfg n s)
  | .mirror n => ((s.sw.mirrors[n]?).map fun c => c.dest + bitOf c.enable * 2 ^ 9).getD 0
  | .flow n => (tget s.sw.flows n 0).toNat
  | .qCfg n => qCfgWord (tget s.sw.qcfg n QueueCfg.reset)
  | .shaper n => shaperWord (tget s.sw.shapers (n / 2) Shaper.reset) (n % 2)
  | .policer n => policerWord (tget s.sw.policers (n / 4) Policer.reset) (n % 4)
  | .dramLayout => s.pool.perChannel + s.pool.localSlots * 2 ^ 10 + s.pool.partNumber * 2 ^ 20
  | .salt n => (s.pool.salts.getD n 0).toNat
  | .regionCtrl => s.regions.leaseTime + s.regions.spareLow * 2 ^ 16
  | .dist n => distWord n s
  | .scratch => s.clv.share
  | .scratchFree n => freeKib n s
  | .mcg n => (tget s.clv.groups n 0).toNat
  | .mcm n => (tget s.clv.members n 0).toNat
  | .runLimit => s.gfu.runLimit
  | .turn => s.gfu.turn
  | .gfuCtrl n => bitOf (s.gfu.enable.getD n true)
  | .gfuStatus n => unitLoad n s + bitOf (s.gfu.draining.getD n false) * 2 ^ 7
  | .strCtrl => s.str.ctrl
  | .strQuery => s.str.query
  | .slotCtrl n => (foldSlot n s).gallery + (foldSlot n s).wait * 2 ^ 4
  | .slotInfo n => slotInfoWord n s
  | .mendCtrl n => bitOf (mendEngine n s).enable
  | .mendStatus n =>
    bitOf (64 + n ∈ s.flr.quarantined) + bitOf (mendEngine n s).draining * 2 + panelBytes s / 1024 * 2 ^ 2 +
    min 256 (s.cmp.mendSets.filter fun m => m.2.2 = n).length * 2 ^ 14
  | .chStatus n => channelWord (s.dram.channels.getD n Channel.blank)
  | .surveyRate => s.dram.surveyRate
  | .surveySum n => s.dram.summary.getD n 0
  | .flipData => s.dram.flipData.toNat
  | .flipCtrl => s.dram.flipCtrl.toNat
  | .flipHit => s.dram.flipHit.toNat
  | .chuCtrl n => bitOf (s.chu.enable.getD n true)
  | .chuStatus n =>
    chuQueued n s + bitOf (chuRunning n s).isSome * 2 ^ 7 + bitOf (s.chu.draining.getD n false) * 2 ^ 8
  | .fltCtrl => s.flt.nvmeTimeout + s.flt.roomLow * 2 ^ 16
  | .fltRoom => s.flt.room.length + s.flt.staged.length * 2 ^ 13 + pinnedCount s * 2 ^ 36
  | .driveStatus n => driveWord n s
  | .driveZcap n => (drive n s).zcap
  | .galCtrl g => galCtrlWord g s
  | .galKey n => if n % 2 = 0 then galKeyWord (n / 2) s else (oldFlash (n / 2) s).length
  | .galAgent => s.gals.hp0 + s.gals.hp1 * 2 ^ 4
  | .galPort n => galPortWord n s
  | .galReenc => s.gals.reenc
  | .galVitrine => bitOf s.gals.vitrine + bitOf s.gals.fromRecord * 2
  | .galBind n => if n % 2 = 0 then (bindEntry (n / 2) s).object.toNat else galBindWord (n / 2) s
  | .pwrMode => s.power.mode.toNat
  | .pwrEco => s.power.eco.toNat
  | .pwrEcoPorts n => (s.power.ecoPorts.getD n 0).toNat
  | .pwrStatus => pwrStatus s
  | .pwrThermal => pwrThermal s
  | .pwrThrottle => pwrThrottle s
  | .pwrClass n => classWord n s
  | .telSel => ((s.views[view]?).map (·.telSel)).getD 0
  | .telVal i => telVal view i s
  | .telCat => catWord (((s.views[view]?).map (·.telCat)).getD 0)
  | .censusTime => s.tel.time
  | .temp n => s.tel.temps.getD n 0
  | .volt n => s.tel.volts.getD n 0
  | .standProgress => standWord s
  | .resetCause => s.flr.resetCause + s.flr.resetCount * 2 ^ 16
  | .drain => s.flr.drainBound
  | .sysTwin => s.flr.sysTwin + bitOf s.flr.sysValid * 2 ^ 12
  | .spotCtrl => s.flr.spotCtrl.toNat
  | .reCtrl n => reCtrlWord n s
  | .twinDown n => twinDownWord n s
  | .faultEntry g w => faultWord view g w s
  | .apcWin n => (tget s.mgmt.apcWin n 0).toNat
  | .apcError => s.mgmt.apcError.toNat
  | .status q => statusWord q view s
  | .arg a n => argValue a n view s
  | .info q => headSeen q view s

/-! ### Writes, block by block -/

/-- A write that the block ignores and records: out of range (R9, and the rules of its register). -/
def badWrite (block off v : Nat) (s : Part) : Part := note block 1 none .outOfRange [off, v] s

/-- A write in Vitrine mode of what that mode protects (R318, R370). -/
def vitrineWrite (block off v : Nat) (s : Part) : Part := note block 1 none .vitrineRefused [off, v] s

/-- The part of a value that a range check reads, and the write if it passes. -/
def ranged (lo hi field_ block off v : Nat) (f : Part → Part) (s : Part) : Part :=
  if lo ≤ field_ && field_ ≤ hi then f s else badWrite block off v s

/-- An enable bit: what turns the unit off or on where the bit changes. -/
def onEdge (old new : Bool) (down up : Part → Part) (s : Part) : Part :=
  if old = new then s else if new then up s else down s

/-- A write of CUR_MB_STATUS (R503). -/
def writeMailStatus (view v : Nat) (s : Part) : Part :=
  if view < 3 then
    onMail view (fun c =>
      { c with
        done := c.done && !bitAt v 1, intEn := bitAt v 2, norDone := c.norDone && !bitAt v 3 }) s
  else s

/-- A write of a word of CUR_MB_REQ (R503). -/
def writeMailReq (view n v : Nat) (s : Part) : Part :=
  if view < 3 then onMail view (fun c => { c with req := patchBytes (sliceBytes c.req 0 4096) (4 * n) (leBytes 4 v) }) s else s

/-- An entry of a sparse table of words, listed only where it is not zero. -/
def setSparse (t : Table (BitVec 64)) (k v : Nat) : Table (BitVec 64) := if v = 0 then tdel t k else tset t k (BitVec.ofNat 64 v)

/-- A window entry without its reserved bit (R503). -/
def windowBits (v : Nat) : Nat := setField v 62 62 0

/-- A write of CUR_WIN_n: only a host port has it (R503). -/
def writeWin (view n v : Nat) (s : Part) : Part :=
  if view < 2 then onHost view (fun h => { h with win := setSparse h.win n (windowBits v) }) s else s

/-- A write of APC_WIN_n (R504). -/
def writeApcWin (n v : Nat) (s : Part) : Part :=
  onManagement (fun m => { m with apcWin := setSparse m.apcWin n (if n % 2 = 0 then windowBits v else v % 16) }) s

/-- A write of FPT_LINK_CTRL (R78): BREAKOUT is locked (R530). -/
def writeLinkCtrl (n v : Nat) (s : Part) : Part :=
  let s := if bitAt v 1 = brokenOut n s then s else note 3 1 none .lockedField [0x2000 * n, v] s
  let s := onEdge (tget s.links.enable n false) (bitAt v 0) (linkDisable n) (linkEnable n) s
  let s := if bitAt v 2 then retrainPort (2 * n) s else s
  if bitAt v 3 then retrainPort (2 * n + 1) s else s

/-- A write of FPT_REPLAY_CTRL (R78). -/
def writeReplayCtrl (n v : Nat) (s : Part) : Part :=
  if field v 5 0 = 0 || field v 11 8 = 0 then badWrite 3 (0x2000 * n + 8) v s
  else onLinks (fun l =>
    { l with
      ackTimeout := tset l.ackTimeout n (field v 5 0), replayLimit := tset l.replayLimit n (field v 11 8) }) s

/-- The class that a queue map gives a queue, with that of every other (queue, class) pair of it. -/
def qmapPairs (w : Nat) : List (Nat × Nat) := (List.range 8).map fun v => (field w (5 * v + 4) (5 * v), v / 2)

/-- Does any queue hold two classes under these maps (R360)? -/
def qmapsConflict (ws : List Nat) : Bool :=
  let all := ws.flatMap qmapPairs
  all.any fun a => all.any fun b => a.1 = b.1 && a.2 ≠ b.2

/-- A write of TRF_QMAP_g (R360, R376). -/
def writeQmap (g v : Nat) (s : Part) : Part :=
  let new := lset s.sw.qmap g (BitVec.ofNat 64 (v % 2 ^ 40))
  if qmapsConflict (new.map (·.toNat)) then note 4 1 (some g) .qmapConflict [g, v] s else onSwitch (fun b => { b with qmap := new }) s

/-- A write of TRF_PORT_CFG_n (R370, R376). -/
def writePortCfg (n v : Nat) (s : Part) : Part :=
  let old := portCfg n s
  let new : PortCfg :=
    { overhead := field v 7 0, policer := field v 17 8, police := bitAt v 18, mirrorIn := bitAt v 19, mirrorOut := bitAt v 20,
      session := field v 22 21 }
  let kept : PortCfg := { new with mirrorIn := old.mirrorIn, mirrorOut := old.mirrorOut, session := old.session }
  let put (c : PortCfg) (s : Part) : Part := onSwitch (fun b => { b with portCfg := tset b.portCfg n c }) s
  if s.gals.vitrine && new ≠ kept then put kept (vitrineWrite 4 (0x100 + 4 * n) v s) else put new s

/-- A write of TRF_MIRROR_n (R370, R377). -/
def writeMirror (n v : Nat) (s : Part) : Part :=
  if s.gals.vitrine then vitrineWrite 4 (0x500 + 4 * n) v s
  else if 0xFF < field v 8 0 then badWrite 4 (0x500 + 4 * n) v s
  else onSwitch (fun b => { b with mirrors := lset b.mirrors n { dest := field v 8 0, enable := bitAt v 9 } }) s

/-- A write of a word of TRF_FLOW_n (R370, R378). -/
def writeFlow (n v : Nat) (s : Part) : Part :=
  let put (w : Nat) (s : Part) : Part := onSwitch (fun b => { b with flows := tset b.flows n (BitVec.ofNat 64 w) }) s
  if n % 2 = 0 then put (v % 2 ^ 55) s
  else
    let old := (tget s.sw.flows n 0).toNat
    let kept := setField (v % 2 ^ 14) 13 11 (field old 13 11)
    if s.gals.vitrine && kept ≠ v % 2 ^ 14 then put kept (vitrineWrite 4 (0x1000 + 8 * n) v s) else put (v % 2 ^ 14) s

/-- A write of TRF_Q_CFG_n (R379). A MAX_CELLS outside its range is treated as a WEIGHT of 0 is: DEDUCED. -/
def writeQCfg (n v : Nat) (s : Part) : Part :=
  let cells := field v 51 32
  if field v 15 0 = 0 || 7 < field v 55 52 || cells = 0 || 655360 < cells then badWrite 4 (0x10000 + 8 * n) v s
  else
    let c : QueueCfg :=
      { weight := field v 15 0, shaper := field v 24 16, shaperEn := bitAt v 25, maxCells := cells, alpha := field v 55 52 }
    onSwitch (fun b => { b with qcfg := tset b.qcfg n c }) s

/-- A write of word 0 of TRF_SHAPER_n (R364, R380). -/
def writeShaper (n v : Nat) (s : Part) : Part :=
  let rate := field v 23 0
  let burst := field v 47 24
  if rate = 0 || burst < 1024 then badWrite 4 (0x20000 + 16 * n) v s
  else
    let t : Int := if bitAt v 48 then burst * 1024 else 0
    let x : Shaper := { rate := rate, burst := burst, resetFull := bitAt v 48, tokens := t, opening := t, used := [] }
    onSwitch (fun b => { b with shapers := tset b.shapers n x }) s

/-- May a policer hold these settings (R381)? No rate may be 0 in either mode; PIR against CIR, and PBS, are for the two-rate mode. -/
def policerOk (x : Policer) : Bool :=
  x.cir ≠ 0 && x.pir ≠ 0 && 1024 ≤ x.cbs && (!x.twoRate || (x.cir ≤ x.pir && 1024 ≤ x.ebs))

/-- A write of word 0 or 1 of TRF_POLICER_n: both buckets are filled (R367, R381). -/
def writePolicer (n word v : Nat) (s : Part) : Part :=
  if 2 ≤ word then s
  else
    let old := tget s.sw.policers n Policer.reset
    let x : Policer :=
      if word = 0 then { old with twoRate := bitAt v 0, refuse := bitAt v 1, cir := field v 31 8, pir := field v 55 32 }
      else { old with cbs := field v 23 0, ebs := field v 47 24 }
    if policerOk x then
      let x : Policer := { x with tokC := x.cbs * 1024, tokE := x.ebs * 1024 }
      onSwitch (fun b => { b with policers := tset b.policers n x }) s
    else badWrite 4 (0x30000 + 32 * n + 8 * word) v s

/-- A write of CAT_DIST_n (R144). -/
def writeDist (n v : Nat) (s : Part) : Part :=
  (List.range 4).foldl (fun s k =>
    let d := field v (8 * k + 7) (8 * k)
    onCatalogue (fun b => { b with dist := if d = 0xFF then tdel b.dist (4 * n + k) else tset b.dist (4 * n + k) d }) s) s

/-- A write of CLV_MCG_n (R160). One that would create a group in a gallery that is not ACTIVE (R384) is ignored and recorded, since a
register that is no command has no BAD_STATE to answer: DEDUCED, log 82. -/
def writeMcg (n v : Nat) (s : Part) : Part :=
  let count := field v 25 16
  if s.mgmt.record.mcgCount ≤ n || 65536 < field v 15 0 + count || 512 < count || (count = 0 && bitAt v 29) ||
      (bitAt v 29 && !galleryActive (field v 28 26) s) then
    badWrite 7 (0x10000 + 8 * n) v s
  else onCollectives (fun b => { b with groups := setSparse b.groups n (v % 2 ^ 30) }) s

/-- A write of CMP_FOLD_SLOT_CTRL_n: one that names another GALLERY while the slot holds a table is ignored and recorded (R253, R270).
DESIGN CHOICE (log entry 84): writing the GALLERY that the slot has is no write of it. -/
def writeSlotCtrl (n v : Nat) (s : Part) : Part :=
  let x := foldSlot n s
  if (x.old.isSome || x.new.isSome) && field v 2 0 ≠ x.gallery then badWrite 10 (0x100 + 4 * n) v s
  else
    ranged 1 100000 (field v 20 4) 10 (0x100 + 4 * n) v
      (onCompression fun b => { b with slots := tset b.slots n { x with gallery := field v 2 0, wait := field v 20 4 } }) s

/-- A write of GAL_AGENT (R409). -/
def writeGalAgent (v : Nat) (s : Part) : Part := onGalleries (fun b => { b with hp0 := field v 2 0, hp1 := field v 6 4 }) s

/-- A write of FLR_SPOT_CTRL (R444). -/
def writeSpot (v : Nat) (s : Part) : Part :=
  if 1000000 < field v 19 0 || 1000000 < field v 39 20 || field v 47 40 = 0 || field v 63 48 = 0 then badWrite 17 0x30 v s
  else onRecovery (fun b => { b with spotCtrl := BitVec.ofNat 64 v }) s

/-- A write of an event register: 1 clears OVERFLOW (R9). -/
def writeEvent (q : QueueName) (v : Nat) (s : Part) : Part :=
  if bitAt v (queueOvfBit q) then setQueue q { getQueue q s with overflow := false } s else s

/-- A write of FLR_FAULT_POP_g: 1 clears OVERFLOW (R446). -/
def writeFaultPop (g v : Nat) (s : Part) : Part :=
  if bitAt v 1 then onRecovery (fun b => { b with faults := lset b.faults g { faultQueue g s with overflow := false } }) s else s

/-- A write of ENABLE of a reduce engine (R436, R445). -/
def reduceEnable (n : Nat) (s : Part) : Part := onRecovery (fun b => { b with reEnable := lset b.reEnable n true }) s

/-- A write of ENABLE of a channel unit (R295). -/
def chuEnable (n : Nat) (s : Part) : Part :=
  onChannelUnits (fun b => { b with enable := lset b.enable n true, draining := lset b.draining n false }) s

/-- A write of a register by a view: its whole value, low and high half together. -/
def regWrite (r : Reg) (view v : Nat) (s : Part) : Part :=
  match r with
  | .doorbell => if bitAt v 0 && view < 3 then mailRing view s else s
  | .mbStatus => writeMailStatus view v s
  | .mbReq n => writeMailReq view n v s
  | .curWin n => writeWin view n v s
  | .bufCtrl => ranged 0 655360 (field v 19 0) 2 0x10 v (onSwitch fun b => { b with yellow := field v 19 0 }) s
  | .cplTimeout => ranged 20 100000 (field v 16 0) 2 0xF00 v (onLinks fun b => { b with cplTimeout := field v 16 0 }) s
  | .retxTimer => ranged 2 1000 (field v 9 0) 2 0xF04 v (onLinks fun b => { b with retxTimer := field v 9 0 }) s
  | .streamIdle => ranged 1000 1000000 (field v 19 0) 2 0xF08 v (onLinks fun b => { b with streamIdle := field v 19 0 }) s
  | .stallTimer => ranged 1 1000 (field v 9 0) 2 0xF0C v (onSwitch fun b => { b with stallTimer := field v 9 0 }) s
  | .linkCtrl n => writeLinkCtrl n v s
  | .replayCtrl n => writeReplayCtrl n v s
  | .qmap g => writeQmap g v s
  | .portCfg n => writePortCfg n v s
  | .mirror n => writeMirror n v s
  | .flow n => writeFlow n v s
  | .qCfg n => writeQCfg n v s
  | .shaper n => if n % 2 = 0 then writeShaper (n / 2) v s else s
  | .policer n => writePolicer (n / 4) (n % 4) v s
  | .salt n => onPool (fun b => { b with salts := lset b.salts n (BitVec.ofNat 32 v) }) s
  | .regionCtrl =>
    ranged 1 3600 (field v 11 0) 5 0x218 v (onRegions fun b => { b with leaseTime := field v 11 0, spareLow := field v 27 16 }) s
  | .dist n => writeDist n v s
  | .mcg n => writeMcg n v s
  | .mcm n => onCollectives (fun b => { b with members := setSparse b.members n (v % 2 ^ 40) }) s
  | .runLimit => ranged 1 4000000 (field v 21 0) 8 0 v (onGatherFilter fun b => { b with runLimit := field v 21 0 }) s
  | .turn =>
    if field v 15 0 = 0 || field v 31 16 = 0 then badWrite 8 4 v s else onGatherFilter (fun b => { b with turn := v % 2 ^ 32 }) s
  | .gfuCtrl n => onEdge (s.gfu.enable.getD n true) (bitAt v 0) (gfuDisable n) (gfuEnable n) s
  | .strCtrl => ranged 1 60000 (field v 15 0) 9 0x20 v (onStreaming fun b => { b with ctrl := v % 2 ^ 17 }) s
  | .slotCtrl n => writeSlotCtrl n v s
  | .mendCtrl n => onEdge (mendEngine n s).enable (bitAt v 0) (mendDisable n) (mendEnable n) s
  | .surveyRate => ranged 10 20000 (field v 15 0) 11 0x180060 v (onDram fun b => { b with surveyRate := field v 15 0 }) s
  | .flipData =>
    if s.gals.vitrine then vitrineWrite 11 0x1800C0 v s else onDram (fun b => { b with flipData := BitVec.ofNat 64 v }) s
  | .flipCtrl => writeFlipCtrl v s
  | .chuCtrl n => onEdge (s.chu.enable.getD n true) (bitAt v 0) (chuDisable n) (chuEnable n) s
  | .fltCtrl =>
    ranged 10 60000 (field v 15 0) 13 0x28 v
      (fun s => checkRoom (onFlash (fun b => { b with nvmeTimeout := field v 15 0, roomLow := field v 31 16 }) s)) s
  | .galCtrl g => writeGalCtrl g v s
  | .galAgent => writeGalAgent v s
  | .galPort n => writeGalPort n v s
  | .galReenc => ranged 100 50000 (field v 15 0) 14 0x500 v (onGalleries fun b => { b with reenc := field v 15 0 }) s
  | .pwrMode => writeMode v s
  | .pwrEco => writePwrEco v s
  | .pwrEcoPorts n => writeEcoPorts n v s
  | .pwrClass n => writePwrClass n v s
  | .telSel => onView view (fun w => { w with telSel := v % 2 ^ 29 }) s
  | .telCat => telCatQuery view v s
  | .telClear => writeTelClear view v s
  | .drain => ranged 100 1000000 (field v 19 0) 17 0x24 v (onRecovery fun b => { b with drainBound := field v 19 0 }) s
  | .sysTwin => writeSysTwin v s
  | .spotCtrl => writeSpot v s
  | .reCtrl n => onEdge (s.flr.reEnable.getD n true) (bitAt v 0) (reduceDisable n) (reduceEnable n) s
  | .faultPop g => writeFaultPop g v s
  | .apcWin n => writeApcWin n v s
  | .cmd q => writeCmd q view v s
  | .arg a n => writeArg a n view v s
  | .flipHit => if s.gals.vitrine then vitrineWrite 11 0x1800D0 v s else s
  | .event q => writeEvent q v s
  | .idn _ | .mbRsp _ | .bufCfg | .bufGal | .bufFree | .linkStatus _ | .dramLayout | .scratch | .scratchFree _
  | .gfuStatus _ | .strQuery | .slotInfo _ | .mendStatus _ | .chStatus _ | .surveySum _ | .chuStatus _ | .fltRoom
  | .driveStatus _ | .driveZcap _ | .galKey _ | .galVitrine | .galBind _ | .pwrStatus | .pwrThermal | .pwrThrottle | .telVal _
  | .censusTime | .temp _ | .volt _ | .standProgress | .resetCause | .twinDown _ | .faultEntry _ _ | .apcError | .status _
  | .info _ => s

/-! ### Accesses (R523 to R525, R529) -/

/-- Can the agent of a view reach the registers? -/
def viewOpen (view : Nat) (s : Part) : Bool :=
  s.cur.power = .coreOn && !s.cur.fastPending &&
  (match view with
   | 0 | 1 => (host view s).link && !(host view s).retry
   | 2 => s.mgmt.coresOn
   | 3 => running s
   | _ => false)

/-- Does the block answer a view at all? The cores' registers read zero in the spine role (R534), and view 3 has no mailbox (R526). -/
def blockAnswers (block view : Nat) (s : Part) : Bool := !(block = 18 && !isTray s) && !(block = 1 && view = 3)

/-- Is an access aligned and of a width that the register takes (R524)? -/
def widthOk (off size : Nat) (f : Option RegPlace) : Bool :=
  (size = 4 || size = 8) && off % size = 0 &&
  (match f with
   | some p => size = 4 || p.wide
   | none => true)

/-- What a read of a register does beside returning its value: pops (R528), latches, and RC bits (R525). The answer is the value
read before. `low` and `high` say which halves the access reads. -/
def readEffect (r : Reg) (view : Nat) (low high : Bool) (s : Part) : Nat × Part :=
  let lastOf (s : Part) : Nat := ((s.views[view]?).map (·.lastRead)).getD 0
  match r with
  | .event q => let s := popEvent q view s; (lastOf s, s)
  | .faultPop g => let s := popFault view g s; (lastOf s, s)
  | .info q => if low then (let s := latchEvent q view s; (lastOf s, s)) else (regValue r view s, s)
  | .faultEntry g w => if low && w = 0 then (let s := latchFault view g s; (lastOf s, s)) else (regValue r view s, s)
  | .flipHit => (regValue r view s, readFlipHit high s)
  | .apcError =>
    let keep := (if low then 0 else 2 ^ 32 - 1) + (if high then 0 else (2 ^ 32 - 1) * 2 ^ 32)
    (regValue r view s, onManagement (fun m => { m with apcError := m.apcError &&& BitVec.ofNat 64 keep }) s)
  | _ => (regValue r view s, s)

/-- The bytes of a value that an access at byte `at_` of its register reads. -/
def halfOf (v at_ size : Nat) : Nat := if size = 8 then v else v / 2 ^ (8 * at_) % 2 ^ 32

/-- A read by a view (R523, R524). -/
def readReg (view off size : Nat) (s : Part) : Nat × Part :=
  let place := regAt off
  if !widthOk off size place then (0, note (blockOf off) 1 none .badAccess [off, size] (returnRead view 0 s))
  else
    match place with
    | none => (0, count 1 0 3 1 (returnRead view 0 s))
    | some p =>
      if !blockAnswers (blockOf off) view s then (0, returnRead view 0 s)
      else
        let (v, s) := readEffect p.reg view (p.at_ = 0) (size = 8 || p.at_ = 4) s
        let v := halfOf v p.at_ size
        (v, returnRead view v s)

/-- The low half that a high-half write takes effect with: the half held for the view, else what the register stores (R525). -/
def lowHalf (view base : Nat) (r : Reg) (s : Part) : Nat :=
  match (s.views[view]?).bind fun w => tget? w.held base with
  | some v => v
  | none => regValue r view s % 2 ^ 32

/-- The hold of a register ends (R525). -/
def dropHeld (view base : Nat) (s : Part) : Part := onView view (fun w => { w with held := tdel w.held base }) s

/-- A write by a view (R523 to R525). -/
def writeReg (view off size v : Nat) (s : Part) : Part :=
  let place := regAt off
  let v := v % 2 ^ (8 * size)
  if !widthOk off size place then note (blockOf off) 1 none .badAccess [off, size] s
  else
    match place with
    | none => count 1 0 3 1 s
    | some p =>
      let base := off - p.at_
      if !blockAnswers (blockOf off) view s then s
      else if !p.wide then regWrite p.reg view v s
      else if size = 8 then regWrite p.reg view v (dropHeld view base s)
      else if p.at_ = 0 then onView view (fun w => { w with held := tset w.held base v }) s
      else
        let low := lowHalf view base p.reg s
        regWrite p.reg view (low + v * 2 ^ 32) (dropHeld view base s)

/-- An access by a view whose agent can reach the registers. -/
def atView (view : Nat) (f : Part → Part) (s : Part) : Part := if viewOpen view s then f s else s

/-- Do something to number `i` of `n` things, if there is one. -/
def forOne (n i : Nat) (f : Part → Part) (s : Part) : Part := if i < n then f s else s

/-- MGMT_REQ (R495): an access of view 3, from the application cores of a part listed in MGMT_PARTS. -/
def mgmtRequest (m : Msg) (s : Part) : Part :=
  let w := m.oparg.toNat
  let off := field w 25 0
  let size := if bitAt w 27 then 8 else 4
  let listed := s.mgmt.record.mgmtParts.any fun e => bitAt e 15 && field e 11 0 = m.srcPart.toNat
  if m.srcPort.toNat ≠ agCores || !listed then
    raiseNotice m stUnsupported m.dstPart.toNat m.dstPort.toNat 0 (emit (mkResponse m 0x71 8 stUnsupported 0 [] false) s)
  else if bitAt w 26 then
    emit (mkResponse m 0x71 8 stOK 0 (leBytes 8 0) false) (atView 3 (writeReg 3 off size (ofLe m.data)) s)
  else
    let (v, s) := readReg 3 off size s
    emit (mkResponse m 0x71 8 stOK 0 (leBytes 8 v) false) s

end Sys2Proof.Machine
end

