-- ==== Sys2Proof/Machine/Deliver.lean ====
section
/-!
DEFINITION. Messages that reach this part are handed to what they are addressed to (R57), and what follows of itself from a command is
done before the next one.
-/

namespace Sys2Proof.Machine

open Sys2Proof

/-! ### Handing over -/

/-- A message that reaches no agent of the part that would take it: discarded and counted (R59). -/
def discardHere (s : Part) : Part := count 2 0 66 1 s

/-- An answer for an internal agent of the part: the request it answers, and the answer. -/
def agentAnswered (req a : Msg) (s : Part) : Part :=
  let tag := a.tag.toNat
  let st := a.status.toNat
  match a.dstPort.toNat with
  | 0x100 => windowAnswered 0x100 tag st a.data s
  | 0x101 => windowAnswered 0x101 tag st a.data s
  | 0x102 => coreAnswered req a s
  | 0x110 => upAnswered tag st a.aux.toNat s
  | 0x111 => gfuAnswered 0x111 tag st a.data s
  | 0x112 => gfuAnswered 0x112 tag st a.data s
  | 0x113 => strAnswered tag st a.data s
  | 0x114 => foldAnswered tag st a.data s
  | 0x115 => throughAnswered 0x115 tag st (chuThroughFails tag st s)
  | 0x116 => throughAnswered 0x116 tag st s
  | 0x117 =>
    if a.op = 0x62 then checkAnswered (extOf req.addr.toNat) (if st = stOK then some (leAt a.data 0 8) else none) s else throughAnswered 0x117 tag st s
  | 0x1FF => lenderAnswer a s
  | _ => discardHere s

/-- A request that reaches the part itself (R57). -/
def homeRequest (m : Msg) (s : Part) : Part :=
  let op := m.op.toNat
  if op = 0x18 then loanOffer m s
  else if op = 0x19 then loanRecall m s
  else if m.ord && markedOrdered op then orderedArrives m s
  else if isLoad op then loadArrives m s
  else if op = 0x22 || op = 0x23 then performMemory m s
  else refuse m stUnsupported s

/-- A request or snoop that reaches an agent of this part. A request of an engine or of the Curator in a gallery that is not ACTIVE
completes with GALLERY_FAULT (R384), whatever part it comes from; a request for memory is checked with its extent (R30). -/
def requestArrives (m : Msg) (s : Part) : Part :=
  let op := m.op.toNat
  let dst := m.dstPort.toNat
  if msgClass m = .snp then (if dst = agCores then coreSnooped m s else discardHere s)
  else if dst ≠ agPart && dst ≠ 0x117 && !galleryActive m.gallery.toNat s then refuse m stGalleryFault s
  else if dst = agPart then homeRequest m s
  else if dst = 0x117 && m.ord && markedOrdered op then orderedArrives m s
  else if dst = 0x110 && op = 0x40 then contribArrives m s
  else if (dst = 0x111 && op = 0x50) || (dst = 0x112 && op = 0x52) then gfuArrives m s
  else if dst = 0x113 && op = 0x48 then attachArrives m s
  else if dst = agCurator && op = 0x70 then mgmtRequest m s
  else if dst = agCurator && op = 0x74 then telRequest m s
  else refuse m stUnsupported s

/-- An answer or data that reaches an agent of this part. -/
def answerArrives (m : Msg) (s : Part) : Part :=
  let op := m.op.toNat
  let dst := m.dstPort.toNat
  if op = 0x8F then queueFault m s
  else if dst = agPart && (op = 0x30 || op = 0x3C) then snoopAnswer m s
  else if dst = agPart && op = 0x32 then cmpAck m s
  else if dst = agPart && op ∈ [0x38, 0x39, 0x3A, 0x3B] then fetchedData m s
  else if dst = 0x113 && op = 0x4A then creditArrives m s
  else if dst = 0x110 && op = 0x41 then resultArrives m s
  else if endsTracking m then
    match sourceSees dst m s with
    | (some t, s) => agentAnswered t.msg m s
    | (none, s) => s
  else discardHere s

/-- A message that has reached the part it names. `matched` marks an answer whose request has been found already. -/
def hand (matched : Bool) (m : Msg) (s : Part) : Part :=
  if m.dstPort.toNat < 256 then
    let e := Entry.own (agentBay m s)
    if matched then toLocalPort m.dstPort.toNat e none m s else reachesPort e none m s
  else if matched then agentAnswered { Msg.blank with tag := m.tag } m s
  else if longHeader (msgClass m) then requestArrives m s
  else answerArrives m s

/-- Take the oldest message that the part has addressed to itself. -/
def pumpInbox (s : Part) : Option Part :=
  match s.inbox with
  | [] => none
  | (matched, m) :: rest => some (hand matched m { s with inbox := rest })

/-! ### What follows of itself -/

/-- A local port that has left service with gather or filter requests of its endpoint running, or with a stream member attached
(R189, R231). -/
def lostPort (s : Part) : Option Nat :=
  let down (p : Nat) : Bool := p < 256 && !portUp p s
  match s.gfu.requests.find? fun r => r.2.req.srcPart.toNat = myPart s && down r.2.req.srcPort.toNat with
  | some r => some r.2.req.srcPort.toNat
  | none =>
    s.str.streams.findSome? fun x => (x.2.members.find? fun m => m.part = myPart s && down m.port &&
      field (memberWord (groupFirst (prGroup x.2.header) s + m.index) s) 22 21 = 0).map (·.port)

/-- End what a lost port's endpoint had running. -/
def pumpPorts (s : Part) : Option Part := (lostPort s).map fun p => streamPortDown p (gfuPortDown p s)

/-- Set the state of a command sequence. -/
def setSeq (q : SeqName) (x : CmdSeq) (s : Part) : Part :=
  match q with
  | .ext => onPool (fun b => { b with extSeq := x }) s
  | .region => onRegions (fun b => { b with seq := x }) s
  | .tbl => onPool (fun b => { b with tblSeq := x }) s
  | .cat => onCatalogue (fun b => { b with seq := x }) s
  | .clv => onCollectives (fun b => { b with seq := x }) s
  | .str => onStreaming (fun b => { b with seq := x }) s
  | .slot => onCompression (fun b => { b with slotSeq := x }) s
  | .job => onCompression (fun b => { b with jobSeq := x }) s
  | .fill => onDram (fun b => { b with fillSeq := x }) s
  | .survey => onDram (fun b => { b with surveySeq := x }) s
  | .chu => onChannelUnits (fun b => { b with seq := x }) s
  | .flt => onFlash (fun b => { b with seq := x }) s
  | .gal => onGalleries (fun b => { b with seq := x }) s
  | .flr => onRecovery (fun b => { b with seq := x }) s
  | .census => onTelemetry (fun b => { b with seq := x }) s

/-- Perform a command of a sequence for a view. -/
def performSeq (q : SeqName) (view cmd : Nat) (s : Part) : Part :=
  match q with
  | .ext => extPerform view cmd s | .region => regPerform view cmd s | .tbl => tblPerform view cmd s
  | .cat => catPerform view cmd s | .clv => clvPerform view cmd s | .str => strPerform view cmd s | .slot => slotPerform view cmd s
  | .job => jobPerform view cmd s | .fill => fillPerform view cmd s | .survey => surveyPerform view cmd s
  | .chu => chuPerform view cmd s | .flt => fltPerform view cmd s | .gal => galPerform view cmd s | .flr => flrPerform view cmd s
  | .census => telPerform view cmd s

/-- Every sequence. -/
def allSeqs : List SeqName :=
  [.ext, .region, .tbl, .cat, .clv, .str, .slot, .job, .fill, .survey, .chu, .flt, .gal, .flr, .census]

/-- A sequence that stands still while commands of other views wait goes on with them (R527). -/
def pumpSeqs (s : Part) : Option Part :=
  match allSeqs.find? fun q => (seqOf q s).running.isNone && !(seqOf q s).waiting.isEmpty with
  | none => none
  | some q => some (runSeq (seqOf q) (setSeq q) (performSeq q) 8 s)

/-- The first of these that has something to do. -/
def firstPump : List (Part → Option Part) → Part → Option Part
  | [], _ => none
  | p :: ps, s =>
    match p s with
    | some s => some s
    | none => firstPump ps s

/-- What follows of itself outside the classes of the scheduler: ports, drains, the join and the command sequences. -/
def partPumps : List (Part → Option Part) := [pumpUnits, pumpPorts, pumpDrains, pumpChecks, pumpJoin, pumpSystem, pumpSeqs]

/-- The class of a step that waits, and its energy. -/
def dueCost : DueWork → Nat × Nat
  | .retrain _ => (9, retrainCost)
  | .poll _ _ _ => (13, lineCost)

/-- A step that waits for the energy of a class is done once the class holds it (R454). -/
def pumpDue (c : Nat) (s : Part) : Option Part :=
  (s.power.due.find? fun w => (dueCost w).1 = c && canSpend c (dueCost w).2 s).map fun w =>
    let s := onPower (fun p => { p with due := p.due.erase w }) s
    match w with
    | .retrain n => if channelTrained n s then retrainNow n s else s
    | .poll d critical percent => if driveServes d s then pollNow d critical percent s else s

/-- The paths of work of each class (R453). -/
def classPumps : List (Nat × List (Part → Option Part)) :=
  [(0, [pumpInbox, pumpUnsent, pumpMulticast, pumpCat, pumpHeld, pumpReseq, pumpLoanStores, pumpLoanPages, pumpReclaim, pumpHosts, pumpFlash,
      pumpRoom]),
   (1, [pumpContrib]), (2, [pumpStreams]), (3, [pumpGfu]), (4, [payChu, pumpChu]), (5, [pumpFillOf false, pumpMoves false, pumpJobs 5])] ++
  [(8, [pumpSurvey]), (9, [pumpDue 9]), (10, [pumpMoves true, pumpZones]), (11, [pumpRotation]), (12, [pumpJobs 12]), (13, [pumpDue 13]),
   (15, [pumpFillOf true])]
where
  /-- The running fill, where it is of the class. -/
  pumpFillOf (bg : Bool) (s : Part) : Option Part := if s.dram.fill.any fun r => r.background = bg then pumpFill s else none

/-- The galleries whose work waits in a class, or runs in it. -/
def workGalleries (c : Nat) (s : Part) : List Nat :=
  let ext (e : Nat) : Nat := (extentAt e s).gallery
  match c with
  | 0 => s.inbox.map (fun p => p.2.gallery.toNat) ++ s.sw.voq.map fun q => q.msg.gallery.toNat
  | 1 => s.clv.waiting.map fun m => m.gallery.toNat
  | 2 => s.str.streams.map fun p => p.2.gallery
  | 3 => s.gfu.requests.map fun p => p.2.req.gallery.toNat
  | 4 => s.chu.cmds.map fun c => ext (chuExt c.desc)
  | 5 | 10 | 12 | 15 =>
    ((s.flt.moves.filter fun m => moveClass m.bg = c).map fun m => ext m.src) ++
    ((s.cmp.jobs.filter fun p => jobClass p.2.desc = c).map fun p => jdGallery p.2.desc) ++
    ((s.dram.fill.toList.filter fun r => fillClass r.background = c).map fun r => ext (r.firstLine / linesPerExtent))
  | _ => []

/-- The greatest gallery share with work in a class. -/
def workSlice (c : Nat) (s : Part) : Nat := (workGalleries c s).foldl (fun n g => max n (gallery g s).slice) 0

/-- Does a class go before another where both have work (R6): by the foreground minimum shares, by the gallery shares of their work, and of
equals the one whose turn comes first after the class that had the last one. Foreground goes before background (R454). -/
def classBefore (s : Part) (a b : Nat) : Bool :=
  let rank (c : Nat) : Nat := ((bitOf (c < 8) * 256 + cwShare (classWord c s)) * 256 + workSlice c s) * 16 + (16 + s.power.lastClass - c) % 16
  rank b < rank a

/-- A path put in its place. -/
def insertShared (s : Part) (x : Nat × List (Part → Option Part)) : List (Nat × List (Part → Option Part)) → List (Nat × List (Part → Option Part))
  | [] => [x]
  | y :: ys => if classBefore s x.1 y.1 then x :: y :: ys else y :: insertShared s x ys

/-- What can follow of itself, in the order in which the part does it (R6). -/
def pumps (s : Part) : List (Part → Option Part) :=
  (classPumps.foldl (fun ps x => insertShared s x ps) []).flatMap (·.2) ++ partPumps

/-- Do everything that follows of itself, up to a number of steps. -/
def settleSteps : Nat → Part → Part
  | 0, s => s
  | n + 1, s =>
    match firstPump (pumps s) s with
    | some s => settleSteps n s
    | none => s

/-- More steps than any command leaves to do. -/
def settleBound : Nat := 2 ^ 48

/-- A command is over when nothing more follows of itself. -/
def settle (s : Part) : Part := checkStarved (settleSteps settleBound s)

/-- A command as a whole: its own effect on the part, and what follows of itself. The queue of waiting commands is not its business. -/
def onPart (f : Part → Part) (s : State) : Host.Outcome State Fault Refusal := .next { s with part := settle (f s.part) }

end Sys2Proof.Machine
end

