-- ==== Sys2Proof/Machine/ExecBoard.lean ====
section
/-!
DEFINITION. The commands of the board, the boot and the resets (chapters 14, 16 and 19).
-/

namespace Sys2Proof.Machine

open Sys2Proof

/-- ISLAND_POWER_UP (R551). -/
def execIslandPowerUp (s : State) : Host.Outcome State Fault Refusal :=
  onPart (fun s => islandPowerUp s) s

/-- PWRGD_RISE (R551). -/
def execPwrgdRise (env : BootEnv) (s : State) : Host.Outcome State Fault Refusal :=
  onPart (fun s => pwrgdRise env s) s

/-- RESET_N_PULSE (R552). -/
def execResetNPulse (env : BootEnv) (s : State) : Host.Outcome State Fault Refusal :=
  onPart (fun s => resetPulse env s) s

/-- PWRGD_FALL (R552). -/
def execPwrgdFall (s : State) : Host.Outcome State Fault Refusal :=
  onPart (fun s => pwrgdFall s) s

/-- VIN_UNDERVOLTAGE (R545). -/
def execVinUndervoltage (s : State) : Host.Outcome State Fault Refusal :=
  onPart (fun s => vinLow s) s

/-- VIN_OVERVOLTAGE (R545, R556): above the 80 V that R556 allows a transient the part may be damaged, and has no behaviour. -/
def execVinOvervoltage (mv : Nat) (s : State) : Host.Outcome State Fault Refusal :=
  if 80000 < mv && s.part.cur.power ≠ .off then .fault .damaged else onPart (fun s => vinHigh mv s) s

/-- AON_CLK_LOSS (R550). -/
def execAonClkLoss (s : State) : Host.Outcome State Fault Refusal :=
  onPart (fun s => aonLoss s) s

/-- CORE_PLL_LOCK_RETRY (R550). -/
def execCorePllLockRetry (env : BootEnv) (s : State) : Host.Outcome State Fault Refusal :=
  onPart (fun s => pllRetries env s) s

/-- SDS_REFCLK_LOSS (R550). -/
def execSdsRefclkLoss (chiplet : Nat) (s : State) : Host.Outcome State Fault Refusal :=
  onPart (fun s => sdsLoss chiplet s) s

/-- NP_REFCLK_LOSS (R550). -/
def execNpRefclkLoss (s : State) : Host.Outcome State Fault Refusal :=
  onPart (fun s => npClockLost s) s

/-- NP_REFCLK_RETURN (R550). -/
def execNpRefclkReturn (s : State) : Host.Outcome State Fault Refusal :=
  onPart (fun s => npClockBack s) s

/-- HOST_REFCLK_LOSS (R550). -/
def execHostRefclkLoss (hp : Nat) (s : State) : Host.Outcome State Fault Refusal :=
  onPart (fun s => hostClockLost hp s) s

/-- AUX1V8_OVERLOAD (R547). -/
def execAux1v8Overload (s : State) : Host.Outcome State Fault Refusal :=
  onPart (fun s => auxOverload s) s

/-- AUX1V8_RESTORE (R547). -/
def execAux1v8Restore (s : State) : Host.Outcome State Fault Refusal :=
  onPart (fun s => auxRestore s) s

/-- LOCKSTEP_MISMATCH (R469). -/
def execLockstepMismatch (env : BootEnv) (s : State) : Host.Outcome State Fault Refusal :=
  onPart (fun s => islandError 1 env s) s

/-- CURATOR_SRAM_UE (R469). -/
def execCuratorSramUe (env : BootEnv) (s : State) : Host.Outcome State Fault Refusal :=
  onPart (fun s => islandError 2 env s) s

/-- HEARTBEAT_LOST (R469). -/
def execHeartbeatLost (refclk : Bool) (s : State) : Host.Outcome State Fault Refusal :=
  onPart (fun s => heartbeatLost refclk s) s

/-- INTERNAL_MEMORY_UE (R319). -/
def execInternalMemoryUe (mem : SramUe) (s : State) : Host.Outcome State Fault Refusal :=
  onPart (fun s => internalUe mem s) s

/-- FAST_RESET (R415). -/
def execFastReset (view : Nat) (cmd : Word64) (s : State) : Host.Outcome State Fault Refusal :=
  onPart (fun s => atView view (writeFlrCmd view (withOp 3 1 cmd)) s) s

/-- FAST_RESET_WATCHDOG (R415). -/
def execFastResetWatchdog (env : BootEnv) (s : State) : Host.Outcome State Fault Refusal :=
  onPart (fun s => fastWatchdog env s) s

/-- RESYNC_WINDOW_END (R70). -/
def execResyncWindowEnd (s : State) : Host.Outcome State Fault Refusal :=
  onPart (fun s => resyncEnds s) s

/-- THERMAL_TRIP (R460). -/
def execThermalTrip (s : State) : Host.Outcome State Fault Refusal :=
  onPart (fun s => thermalTrip s) s

/-- ISLAND_POWER_LOSS (R545). -/
def execIslandPowerLoss (s : State) : Host.Outcome State Fault Refusal :=
  onPart (fun s => islandLoss s) s

/-- VIN48_REACHES_39V (R551). -/
def execVin48Reaches39v (env : BootEnv) (s : State) : Host.Outcome State Fault Refusal :=
  onPart (fun s => vinReaches env s) s

/-- PERST_DEASSERT (R553). -/
def execPerstDeassert (hp : Nat) (s : State) : Host.Outcome State Fault Refusal :=
  onPart (fun s => perstDeassert hp s) s

/-- HOST_PORT_RESET (R490). -/
def execHostPortReset (hp : Nat) (kind : Nat) (s : State) : Host.Outcome State Fault Refusal :=
  onPart (fun s => hostPortReset hp kind s) s

/-- FUNCTION_DRAIN_EXPIRY (R437). -/
def execFunctionDrainExpiry (hp : Nat) (s : State) : Host.Outcome State Fault Refusal :=
  onPart (fun s => functionExpires hp s) s

/-- JTAG_INSTRUCTION (R482). -/
def execJtagInstruction (code : Nat) (s : State) : Host.Outcome State Fault Refusal :=
  onPart (fun s => jtagInstruction code s) s

/-- COLD_RESET_EXPIRY (R493). -/
def execColdResetExpiry (env : BootEnv) (s : State) : Host.Outcome State Fault Refusal :=
  onPart (fun s => coldResetExpires env s) s

/-- DAYBOOK_FLUSH (R496). -/
def execDaybookFlush (s : State) : Host.Outcome State Fault Refusal :=
  onPart (fun s => daybookFlush s) s

end Sys2Proof.Machine
end

