-- ==== Sys2Proof/Machine/CoreMap.lean ====
section
/-!
DEFINITION. The cores' physical map (R498): the working region, the interrupt controller, the register space and the pool window.
-/

namespace Sys2Proof.Machine

open Sys2Proof

/-- An access to the register space, laid out as BAR0 of function 0, as view 2 (R498, R526). An atomic does nothing there. -/
def coreRegister (kind : CoreAccess) (offset : Nat) (data : List Byte) (s : Part) : Part :=
  match kind with
  | .load => let (v, s) := readReg 2 offset data.length s; coreReturns (leBytes data.length v) s
  | .store => writeReg 2 offset data.length (ofLe data) s
  | _ => s

/-- CORE_POOL_ACCESS (R498, R499): an access of a core at a physical address. One to an address that the map does not have returns
nothing. -/
def corePoolAccess (kind : CoreAccess) (addr : Nat) (data : List Byte) (s : Part) : Part :=
  if !coresRun s || !accessOk kind addr data then s
  else if kind = .fence then coreFence s
  else if 0x0010_0000_0000 ≤ addr && addr < 0x0020_0000_0000 then coreRegion kind (addr - 0x0010_0000_0000) data s
  else if 0x00E0_0000_0000 ≤ addr && addr < 0x00E0_0100_0000 then coreInterrupts kind data s
  else if 0x00F0_0000_0000 ≤ addr && addr < 0x00F0_0400_0000 then coreRegister kind (addr - 0x00F0_0000_0000) data s
  else if 0x0100_0000_0000 ≤ addr && addr < 0x0200_0000_0000 then coreWindow kind (addr - 0x0100_0000_0000) data s
  else onManagement (fun m => { m with coreLast := none }) s

end Sys2Proof.Machine
end

