-- ==== Sys2Proof/Machine/Certs.lean ====
section
/-!
DEFINITION. Certificates (R484): X.509 version 3 in DER, in the chain form of DSP0274. What R484 does not state of them, the two Merforoth
certificates, names, validity and the object identifier of Falcon-1024, stands in Config.
-/

namespace Sys2Proof.Machine

open Sys2Proof

/-- A number of bytes in DER. -/
def derLength (n : Nat) : List Byte :=
  if n < 128 then leBytes 1 n else if n < 256 then 0x81#8 :: leBytes 1 n else 0x82#8 :: (leBytes 2 n).reverse

/-- An element of DER: tag, length, contents. -/
def der (tag : Nat) (bs : List Byte) : List Byte := leBytes 1 tag ++ derLength bs.length ++ bs

/-- A sequence, a bit string of whole bytes, and an object identifier by its contents. -/
def derSeq (bs : List Byte) : List Byte := der 0x30 bs
def derBits (bs : List Byte) : List Byte := der 0x03 (0 :: bs)
def derOid (bs : List Byte) : List Byte := der 0x06 bs

/-- The 16 hexadecimal digits of a serial, most significant first, as characters. -/
def serialText (n : Nat) : List Byte :=
  (List.range 16).map fun i =>
    let d := (n >>> (4 * (15 - i))) % 16
    BitVec.ofNat 8 (if d < 10 then 48 + d else 55 + d)

/-- A name of one attribute, the serial number (2.5.4.5): the subject of the part's certificates carries IDN_SERIAL. -/
def serialName (serial : Word64) : List Byte :=
  derSeq (der 0x31 (derSeq (derOid [0x55, 0x04, 0x05] ++ der 0x13 (serialText serial.toNat))))

/-- The algorithm identifiers: Falcon-1024 by the identifier of the root certificate, ML-KEM-1024 by 2.16.840.1.101.3.4.4.3. -/
def falconId : List Byte := derSeq (derOid Config.falconOid)
def mlkemId : List Byte := derSeq (derOid [0x60, 0x86, 0x48, 0x01, 0x65, 0x03, 0x04, 0x04, 0x03])

/-- What a certificate's signature covers: version 3, serial number, algorithm, issuer, validity, subject, and the key with its algorithm. -/
def certBody (number : Nat) (issuer subject keyId key : List Byte) : List Byte :=
  derSeq (der 0xA0 (der 0x02 [2]) ++ der 0x02 [BitVec.ofNat 8 number] ++ falconId ++ issuer ++ Config.certValidity ++ subject ++
    derSeq (keyId ++ derBits key))

/-- A certificate: its body, the algorithm, the signature. -/
def certificate (body sig : List Byte) : List Byte := derSeq (body ++ falconId ++ derBits sig)

/-- A Falcon-1024 signature of the attestation key, 1,280 bytes, padded (R483). -/
def attestSign (bs : List Byte) : List Byte := sliceBytes (Config.falconSign bs) 0 1280

/-- The part's attestation certificate: issued by the product authority. -/
def attestCert (serial : Word64) : List Byte :=
  let body := certBody 1 Config.authorityName (serialName serial) falconId (sliceBytes Config.attestKey 0 1793)
  certificate body (sliceBytes (Config.authoritySign body) 0 1280)

/-- The certificate of the part's encapsulation key, signed by the attestation key. -/
def encapCert (serial : Word64) : List Byte :=
  let body := certBody 2 (serialName serial) (serialName serial) mlkemId (sliceBytes Config.decapKey 1536 1568)
  certificate body (attestSign body)

/-- A chain: its length, the root certificate's digest, the certificates. -/
def chainForm (certs : List Byte) : List Byte := leBytes 2 (certs.length + 68) ++ leBytes 2 0 ++ digest Config.rootCert ++ certs

/-- The chain of a slot: 0 the three certificates, 1 the encapsulation key's, 2 to 7 empty. -/
def chain (slot : Nat) (s : Part) : List Byte :=
  if slot = 0 then chainForm (Config.rootCert ++ Config.authorityCert ++ attestCert s.cur.serial)
  else if slot = 1 then chainForm (encapCert s.cur.serial)
  else []

end Sys2Proof.Machine
end

