-- ==== Sys2Proof/Machine/Spdm.lean ====
section
/-!
DEFINITION. The provenance record (R482) and the SPDM responder (R483, R484). The layout of requests and responses is that of DSP0274
version 1.2, which R483 names.
-/

namespace Sys2Proof.Machine

open Sys2Proof

/-! ### Measurements (R482) -/

/-- The running image's bytes. -/
def runBytes (s : Part) : List Byte := imageBytes s.cur.runSlot s.mgmt

/-- Measurement 6: the security state. -/
def securityState (s : Part) : List Byte :=
  let c := s.cur
  let b0 := bitOf s.gals.vitrine + bitOf s.gals.fromRecord * 2 + bitOf s.mgmt.debugSeen * 4 + c.runSlot % 2 * 8 +
    bitOf c.trialBoot * 16 + bitOf c.recovery * 32
  leBytes 1 b0 ++ leBytes 1 c.fwSvn ++ leBytes 1 c.floor ++ leBytes 1 0 ++ leBytes 4 c.fwVersion ++ leBytes 8 c.serial.toNat

/-- Measurement 7: 64 zero bytes, and then what MEASURE_EXTEND has folded in. -/
def runTime (s : Part) : List Byte := s.mgmt.extends7.foldl (fun v d => digest (v ++ d)) (List.replicate 64 0)

/-- Has the boot come to its image and its record: else only measurements 1 and 6 stand (R477)? -/
def measured (s : Part) : Bool := !(s.cur.haltCause ∈ [0x09, 0x0A, 0x0B])

/-- The indices that are served. -/
def measureIndices (s : Part) : List Nat := if measured s then [1, 2, 3, 4, 5, 6, 7] else [1, 6]

/-- The value of a measurement. -/
def measureValue (i : Nat) (s : Part) : List Byte :=
  match i with
  | 1 => digest Config.bootRom
  | 2 => digest (imgPart 1 (runBytes s))
  | 3 => digest (imgPart 2 (runBytes s) ++ imgPart 3 (runBytes s))
  | 4 => digest (imgPart 4 (runBytes s) ++ imgPart 5 (runBytes s))
  | 5 => digest s.mgmt.inForce
  | 6 => securityState s
  | _ => runTime s

/-- DMTF value type of a measurement, bit 7 for a raw value. -/
def measureType (i : Nat) : Nat := [0, 0x00, 0x01, 0x01, 0x01, 0x03, 0x84, 0x04].getD i 0

/-- A measurement block. -/
def measureBlock (i : Nat) (s : Part) : List Byte :=
  let v := measureValue i s
  leBytes 1 i ++ leBytes 1 1 ++ leBytes 2 (v.length + 3) ++ leBytes 1 (measureType i) ++ leBytes 2 v.length ++ v

/-! ### Connections (R483) -/

/-- An SPDM transport: 0 and 1 the host ports, 2 I3C. -/
def spdmAt (c : Nat) (s : Part) : Spdm := s.mgmt.spdm.getD c Spdm.reset

/-- Change a transport's connection. -/
def onSpdm (c : Nat) (f : Spdm → Spdm) (s : Part) : Part :=
  onManagement (fun m => { m with spdm := m.spdm.mapIdx fun i x => if i = c then f x else x }) s

/-- Can a requester reach the responder? -/
def spdmOpen (c : Nat) (s : Part) : Bool :=
  if c < 2 then blockReady 1 s && (host c s).link else c = 2 && s.cur.power ≠ .off && 6 ≤ s.cur.phase

/-- Request codes of the requests that are answered. -/
def spVersion : Nat := 0x84
def spCaps : Nat := 0xE1
def spAlgorithms : Nat := 0xE3
def spDigests : Nat := 0x81
def spCertificate : Nat := 0x82
def spChallenge : Nat := 0x83
def spMeasurements : Nat := 0xE0

/-- A response's header. -/
def spHead (version code p1 p2 : Nat) : List Byte := leBytes 1 version ++ leBytes 1 code ++ leBytes 1 p1 ++ leBytes 1 p2

/-- ERROR with a code and its data. -/
def spError (code data : Nat) : List Byte := spHead 0x12 0x7F code data

/-- ERROR UnsupportedRequest. -/
def spUnsupported (req : List Byte) : List Byte := spError 0x07 (leAt req 1 1)

/-- ERROR UnexpectedRequest: the connection has not come so far. -/
def spUnexpected : List Byte := spError 0x04 0

/-- ERROR InvalidRequest. -/
def spInvalid : List Byte := spError 0x01 0

/-- VERSION: version 1.2. -/
def versionAnswer : List Byte := spHead 0x10 0x04 0 0 ++ [0, 1] ++ leBytes 2 0x1200

/-- CAPABILITIES: CERT_CAP, CHAL_CAP, MEAS_CAP with signatures; CTExponent 17; both sizes 4,096. -/
def capsAnswer : List Byte :=
  spHead 0x12 0x61 0 0 ++ leBytes 1 0 ++ leBytes 1 17 ++ leBytes 2 0 ++ leBytes 4 0x16 ++ leBytes 4 4096 ++ leBytes 4 4096

/-- The extended algorithms: registry 0x04, algorithm 1 Falcon-1024, and 2 SHAKE256. -/
def falconAlg : List Byte := [4, 0, 1, 0]
def shakeAlg : List Byte := [4, 0, 2, 0]

/-- ALGORITHMS: measurement specification DMTF, and both extended algorithms. -/
def algAnswer : List Byte :=
  spHead 0x12 0x63 0 0 ++ leBytes 2 44 ++ [1, 0] ++ leBytes 24 0 ++ [1, 1] ++ leBytes 2 0 ++ falconAlg ++ shakeAlg

/-- Does a NEGOTIATE_ALGORITHMS offer both? -/
def offersBoth (req : List Byte) : Bool :=
  let na := leAt req 28 1
  let nh := leAt req 29 1
  ((List.range na).any fun i => sliceBytes req (32 + 4 * i) 4 = falconAlg) &&
  ((List.range nh).any fun i => sliceBytes req (32 + 4 * na + 4 * i) 4 = shakeAlg)

/-- DIGESTS. -/
def digestsAnswer (s : Part) : List Byte := spHead 0x12 0x01 0 3 ++ digest (chain 0 s) ++ digest (chain 1 s)

/-- CERTIFICATE: a portion of a chain. -/
def certAnswer (req : List Byte) (s : Part) : List Byte :=
  let slot := leAt req 2 1 % 16
  let off := leAt req 4 2
  let c := chain slot s
  if 2 ≤ slot || c.length ≤ off then spInvalid
  else
    let part := sliceBytes c off (min (leAt req 6 2) (min 4088 (c.length - off)))
    spHead 0x12 0x02 slot 0 ++ leBytes 2 part.length ++ leBytes 2 (c.length - off - part.length) ++ part

/-- The summary digest of all measurements, where one is asked for. -/
def summaryHash (kind : Nat) (s : Part) : List Byte :=
  if kind = 0 then [] else digest ((measureIndices s).flatMap fun i => measureBlock i s)

/-- 32 bytes from the random source. -/
def nonceBytes (n : Nat) : List Byte := leBytes 32 (Config.random n)

/-- CHALLENGE_AUTH up to its signature. -/
def challengeBody (req nonce : List Byte) (s : Part) : List Byte :=
  spHead 0x12 0x03 (leAt req 2 1 % 16) 3 ++ digest (chain (leAt req 2 1 % 16) s) ++ nonce ++ summaryHash (leAt req 3 1) s ++ leBytes 2 0

/-- MEASUREMENTS up to its signature. -/
def measureBody (req nonce : List Byte) (s : Part) : List Byte :=
  let op := leAt req 3 1
  let ixs := if op = 0 then [] else if op = 0xFF then measureIndices s else (measureIndices s).filter fun i => i = op
  let rec_ := ixs.flatMap fun i => measureBlock i s
  spHead 0x12 0x60 (if op = 0 then (measureIndices s).length else 0) (if bitAt (leAt req 2 1) 0 then leAt req 36 1 % 16 else 0) ++
  leBytes 1 ixs.length ++ leBytes 3 rec_.length ++ rec_ ++ nonce ++ leBytes 2 0

/-- The signature of a responder over what a context names (DSP0274): four times the version's text, the context after zeros to 36 bytes, and
the digest of the messages covered. -/
def spSign (context : String) (covered : List Byte) : List Byte :=
  let text := fun (t : String) => t.toList.map fun c => BitVec.ofNat 8 c.toNat
  let version := text "dmtf-spdm-v1.2.*"
  let ctx := text context
  attestSign (version ++ version ++ version ++ version ++ List.replicate (36 - ctx.length) 0 ++ ctx ++ digest covered)

/-- Give a response, and keep it for what a signature covers. -/
def spAnswer (c : Nat) (keep : Spdm → Spdm) (rsp : List Byte) (s : Part) : Part :=
  onSpdm c (fun x => { keep x with response := rsp }) s

/-- GET_VERSION begins a connection anew. -/
def spdmVersion (c : Nat) (req : List Byte) (s : Part) : Part :=
  spAnswer c (fun _ => { Spdm.reset with version := true, vca := req ++ versionAnswer }) versionAnswer s

/-- GET_CAPABILITIES. -/
def spdmCaps (c : Nat) (req : List Byte) (s : Part) : Part :=
  if !(spdmAt c s).version then spAnswer c id spUnexpected s
  else spAnswer c (fun x => { x with caps := true, vca := x.vca ++ req ++ capsAnswer }) capsAnswer s

/-- NEGOTIATE_ALGORITHMS. -/
def spdmAlgorithms (c : Nat) (req : List Byte) (s : Part) : Part :=
  if !(spdmAt c s).caps then spAnswer c id spUnexpected s
  else if !offersBoth req then spAnswer c id (spUnsupported req) s
  else spAnswer c (fun x => { x with algorithms := true, vca := x.vca ++ req ++ algAnswer }) algAnswer s

/-- GET_DIGESTS. -/
def spdmDigests (c : Nat) (req : List Byte) (s : Part) : Part :=
  if !(spdmAt c s).algorithms then spAnswer c id spUnexpected s
  else
    let r := digestsAnswer s
    spAnswer c (fun x => { x with certs := x.certs ++ req ++ r }) r s

/-- GET_CERTIFICATE. -/
def spdmCertificate (c : Nat) (req : List Byte) (s : Part) : Part :=
  if !(spdmAt c s).algorithms then spAnswer c id spUnexpected s
  else
    let r := certAnswer req s
    spAnswer c (fun x => { x with certs := x.certs ++ req ++ r }) r s

/-- CHALLENGE: signed over the negotiation, the certificate messages, the request and the response. -/
def spdmChallenge (c : Nat) (req : List Byte) (s : Part) : Part :=
  let x := spdmAt c s
  if !x.algorithms then spAnswer c id spUnexpected s
  else if leAt req 2 1 % 16 ≠ 0 then spAnswer c id spInvalid s
  else
    let (n, s) := drawFree s
    let body := challengeBody req (nonceBytes n) s
    spAnswer c (fun y => { y with certs := [] }) (body ++ spSign "responder-challenge_auth signing" (x.vca ++ x.certs ++ req ++ body)) s

/-- GET_MEASUREMENTS: a signature, where asked for, covers the negotiation and every measurement message since the last one. -/
def spdmMeasurements (c : Nat) (req : List Byte) (s : Part) : Part :=
  let x := spdmAt c s
  let op := leAt req 3 1
  if !x.algorithms then spAnswer c id spUnexpected s
  else if op ≠ 0 && op ≠ 0xFF && !(op ∈ measureIndices s) then spAnswer c id spInvalid s
  else
    let (n, s) := drawFree s
    let body := measureBody req (nonceBytes n) s
    if bitAt (leAt req 2 1) 0 then
      spAnswer c (fun y => { y with meas := [] }) (body ++ spSign "responder-measurements signing" (x.vca ++ x.meas ++ req ++ body)) s
    else spAnswer c (fun y => { y with meas := y.meas ++ req ++ body }) body s

/-- A request on a transport, by its code. -/
def spdmRequest (c : Nat) (req : List Byte) (s : Part) : Part :=
  if !spdmOpen c s then s
  else
    let s := count 1 0 1 1 s
    let code := leAt req 1 1
    if code = spVersion then spdmVersion c req s
    else if code = spCaps then spdmCaps c req s
    else if code = spAlgorithms then spdmAlgorithms c req s
    else if code = spDigests then spdmDigests c req s
    else if code = spCertificate then spdmCertificate c req s
    else if code = spChallenge then spdmChallenge c req s
    else if code = spMeasurements then spdmMeasurements c req s
    else spAnswer c id (spUnsupported req) s

/-- A request with its code in byte 1. -/
def withCode (code : Nat) (req : List Byte) : List Byte := patchBytes (req ++ List.replicate (4 - req.length) 0) 1 (leBytes 1 code)

end Sys2Proof.Machine
end

