-- ==== Sys2Proof/Machine/ExecCurator.lean ====
section
/-!
DEFINITION. The commands of the mailbox, of attestation, of the host ports and of the application cores (chapter 16).
-/

namespace Sys2Proof.Machine

open Sys2Proof

/-- GET_INFO (R493). -/
def execGetInfo (chan : Nat) (payload : List Byte) (s : State) : Host.Outcome State Fault Refusal :=
  onPart (fun s => mailSend chan 0x01 payload s) s

/-- UPDATE_BEGIN (R485). -/
def execUpdateBegin (chan : Nat) (payload : List Byte) (s : State) : Host.Outcome State Fault Refusal :=
  onPart (fun s => mailSend chan 0x20 payload s) s

/-- UPDATE_WRITE (R485). -/
def execUpdateWrite (chan : Nat) (payload : List Byte) (s : State) : Host.Outcome State Fault Refusal :=
  onPart (fun s => mailSend chan 0x21 payload s) s

/-- UPDATE_VERIFY (R485). -/
def execUpdateVerify (chan : Nat) (payload : List Byte) (s : State) : Host.Outcome State Fault Refusal :=
  onPart (fun s => mailSend chan 0x22 payload s) s

/-- UPDATE_ACTIVATE (R485). -/
def execUpdateActivate (chan : Nat) (payload : List Byte) (s : State) : Host.Outcome State Fault Refusal :=
  onPart (fun s => mailSend chan 0x23 payload s) s

/-- UPDATE_STATUS (R493). -/
def execUpdateStatus (chan : Nat) (payload : List Byte) (s : State) : Host.Outcome State Fault Refusal :=
  onPart (fun s => mailSend chan 0x24 payload s) s

/-- UPDATE_CONFIRM (R485). -/
def execUpdateConfirm (chan : Nat) (payload : List Byte) (s : State) : Host.Outcome State Fault Refusal :=
  onPart (fun s => mailSend chan 0x25 payload s) s

/-- UPDATE_ABORT (R486). -/
def execUpdateAbort (chan : Nat) (payload : List Byte) (s : State) : Host.Outcome State Fault Refusal :=
  onPart (fun s => mailSend chan 0x26 payload s) s

/-- CONFIG_READ (R493). -/
def execConfigRead (chan : Nat) (payload : List Byte) (s : State) : Host.Outcome State Fault Refusal :=
  onPart (fun s => mailSend chan 0x30 payload s) s

/-- CONFIG_WRITE (R493). -/
def execConfigWrite (chan : Nat) (payload : List Byte) (s : State) : Host.Outcome State Fault Refusal :=
  onPart (fun s => mailSend chan 0x31 payload s) s

/-- DAYBOOK_READ (R493). -/
def execDaybookRead (chan : Nat) (payload : List Byte) (s : State) : Host.Outcome State Fault Refusal :=
  onPart (fun s => mailSend chan 0x40 payload s) s

/-- MEASURE_EXTEND (R482). -/
def execMeasureExtend (chan : Nat) (payload : List Byte) (s : State) : Host.Outcome State Fault Refusal :=
  onPart (fun s => mailSend chan 0x50 payload s) s

/-- COLD_RESET (R493). -/
def execColdReset (chan : Nat) (payload : List Byte) (s : State) : Host.Outcome State Fault Refusal :=
  onPart (fun s => mailSend chan 0x60 payload s) s

/-- NOR_STEP_END (R492). -/
def execNorStepEnd (s : State) : Host.Outcome State Fault Refusal :=
  onPart (fun s => norStepEnds s) s

/-- GET_VERSION (R483). -/
def execGetVersion (chan : Nat) (req : List Byte) (s : State) : Host.Outcome State Fault Refusal :=
  onPart (fun s => spdmRequest chan (withCode spVersion req) s) s

/-- GET_CAPABILITIES (R483). -/
def execGetCapabilities (chan : Nat) (req : List Byte) (s : State) : Host.Outcome State Fault Refusal :=
  onPart (fun s => spdmRequest chan (withCode spCaps req) s) s

/-- NEGOTIATE_ALGORITHMS (R483). -/
def execNegotiateAlgorithms (chan : Nat) (req : List Byte) (s : State) : Host.Outcome State Fault Refusal :=
  onPart (fun s => spdmRequest chan (withCode spAlgorithms req) s) s

/-- GET_DIGESTS (R483). -/
def execGetDigests (chan : Nat) (req : List Byte) (s : State) : Host.Outcome State Fault Refusal :=
  onPart (fun s => spdmRequest chan (withCode spDigests req) s) s

/-- GET_CERTIFICATE (R484). -/
def execGetCertificate (chan : Nat) (req : List Byte) (s : State) : Host.Outcome State Fault Refusal :=
  onPart (fun s => spdmRequest chan (withCode spCertificate req) s) s

/-- CHALLENGE (R483). -/
def execChallenge (chan : Nat) (req : List Byte) (s : State) : Host.Outcome State Fault Refusal :=
  onPart (fun s => spdmRequest chan (withCode spChallenge req) s) s

/-- GET_MEASUREMENTS (R483). -/
def execGetMeasurements (chan : Nat) (req : List Byte) (s : State) : Host.Outcome State Fault Refusal :=
  onPart (fun s => spdmRequest chan (withCode spMeasurements req) s) s

/-- SPDM_UNSUPPORTED_REQUEST (R483). -/
def execSpdmUnsupportedRequest (chan : Nat) (req : List Byte) (s : State) : Host.Outcome State Fault Refusal :=
  onPart (fun s => spdmRequest chan req s) s

/-- POOL_WINDOW_READ (R489). -/
def execPoolWindowRead (hp : Nat) (offset : Nat) (length : Nat) (s : State) : Host.Outcome State Fault Refusal :=
  onPart (fun s => poolRead hp offset length s) s

/-- POOL_WINDOW_WRITE (R489). -/
def execPoolWindowWrite (hp : Nat) (offset : Nat) (data : List Byte) (enables : List Bool) (s : State) : Host.Outcome State Fault Refusal :=
  onPart (fun s => poolWrite hp offset data enables s) s

/-- POOL_WINDOW_ATOMIC (R489). -/
def execPoolWindowAtomic (hp : Nat) (kind : Nat) (offset : Nat) (data : List Byte) (s : State) : Host.Outcome State Fault Refusal :=
  onPart (fun s => poolAtomic hp kind offset data s) s

/-- CORE_POOL_ACCESS (R499). -/
def execCorePoolAccess (kind : CoreAccess) (offset : Nat) (data : List Byte) (s : State) : Host.Outcome State Fault Refusal :=
  onPart (fun s => corePoolAccess kind offset data s) s

/-- CORE_CACHE_UE (R500). -/
def execCoreCacheUe (unit : Nat) (line : Nat) (dirty : Bool) (s : State) : Host.Outcome State Fault Refusal :=
  onPart (fun s => coreCacheUe unit line dirty s) s

/-- APC_HW_ERROR_READ (R504). -/
def execApcHwErrorRead (view : Nat) (s : State) : Host.Outcome State Fault Refusal :=
  onPart (fun s => atView view (fun s => if isTray s then readHwError view s else returnRead view 0 s) s) s

end Sys2Proof.Machine
end

