-- ==== Sys2Proof/Machine/ExecEngines.lean ====
section
/-!
DEFINITION. The commands of the engines: collectives, gather and filter, streams, compression (chapters 05 to 08).
-/

namespace Sys2Proof.Machine

open Sys2Proof

/-- OPEN (R155). -/
def execOpenContext (view : Nat) (cmd : Word64) (s : State) : Host.Outcome State Fault Refusal :=
  onPart (fun s => atView view (writeClvCmd view (withOp 3 1 cmd)) s) s

/-- CLOSE (R174). -/
def execCloseContext (view : Nat) (cmd : Word64) (s : State) : Host.Outcome State Fault Refusal :=
  onPart (fun s => atView view (writeClvCmd view (withOp 3 2 cmd)) s) s

/-- CONTEXT_ABORT (R174). -/
def execContextAbort (view : Nat) (cmd : Word64) (s : State) : Host.Outcome State Fault Refusal :=
  onPart (fun s => atView view (writeClvCmd view (withOp 3 3 cmd)) s) s

/-- CONTEXT_QUERY (R179). -/
def execContextQuery (view : Nat) (cmd : Word64) (s : State) : Host.Outcome State Fault Refusal :=
  onPart (fun s => atView view (writeClvCmd view (withOp 3 4 cmd)) s) s

/-- CTX_TIMEOUT (R171). -/
def execCtxTimeout (ctx : Nat) (s : State) : Host.Outcome State Fault Refusal :=
  onPart (fun s => expireCtx ctx s) s

/-- GFU_READ_RETURN (R190). -/
def execGfuReadReturn (unit : Nat) (tag : Nat) (s : State) : Host.Outcome State Fault Refusal :=
  onPart (fun s => gfuTake unit tag s) s

/-- GFU_RUN_LIMIT_EXPIRY (R189). -/
def execGfuRunLimitExpiry (unit : Nat) (tag : Nat) (s : State) : Host.Outcome State Fault Refusal :=
  onPart (fun s => gfuRunLimit unit tag s) s

/-- GFU_UNIT_DISABLE (R210). -/
def execGfuUnitDisable (view : Nat) (unit : Nat) (s : State) : Host.Outcome State Fault Refusal :=
  onPart (fun s => atView view (forOne 32 unit (regWrite (.gfuCtrl unit) view 0)) s) s

/-- STREAM_LOAD (R221). -/
def execStreamLoad (view : Nat) (cmd : Word64) (s : State) : Host.Outcome State Fault Refusal :=
  onPart (fun s => atView view (writeStrCmd view (withOp 3 1 cmd)) s) s

/-- STREAM_START (R233). -/
def execStreamStart (view : Nat) (cmd : Word64) (s : State) : Host.Outcome State Fault Refusal :=
  onPart (fun s => atView view (writeStrCmd view (withOp 3 2 cmd)) s) s

/-- STREAM_STOP (R233). -/
def execStreamStop (view : Nat) (cmd : Word64) (s : State) : Host.Outcome State Fault Refusal :=
  onPart (fun s => atView view (writeStrCmd view (withOp 3 3 cmd)) s) s

/-- STREAM_ABORT (R233). -/
def execStreamAbort (view : Nat) (cmd : Word64) (s : State) : Host.Outcome State Fault Refusal :=
  onPart (fun s => atView view (writeStrCmd view (withOp 3 4 cmd)) s) s

/-- STREAM_UNLOAD (R233). -/
def execStreamUnload (view : Nat) (cmd : Word64) (s : State) : Host.Outcome State Fault Refusal :=
  onPart (fun s => atView view (writeStrCmd view (withOp 3 5 cmd)) s) s

/-- STREAM_QUERY (R239). -/
def execStreamQuery (view : Nat) (cmd : Word64) (s : State) : Host.Outcome State Fault Refusal :=
  onPart (fun s => atView view (writeStrCmd view (withOp 3 6 cmd)) s) s

/-- TILE_PRODUCTION_START (R223). -/
def execTileProductionStart (stream : Nat) (s : State) : Host.Outcome State Fault Refusal :=
  onPart (fun s => startTile stream s) s

/-- TILE_HANDED (R223). -/
def execTileHanded (stream : Nat) (s : State) : Host.Outcome State Fault Refusal :=
  onPart (fun s => handTile stream s) s

/-- TILE_DEADLINE (R232). -/
def execTileDeadline (stream : Nat) (tile : Nat) (s : State) : Host.Outcome State Fault Refusal :=
  onPart (fun s => tileLate stream tile s) s

/-- MEMBER_STALL_TIMER (R231). -/
def execMemberStallTimer (stream : Nat) (member : Nat) (s : State) : Host.Outcome State Fault Refusal :=
  onPart (fun s => memberStalls stream member s) s

/-- FOLD_TABLE_LOAD (R253). -/
def execFoldTableLoad (view : Nat) (cmd : Word64) (s : State) : Host.Outcome State Fault Refusal :=
  onPart (fun s => atView view (writeSlotCmd view (withOp 1 1 cmd)) s) s

/-- FOLD_TABLE_DROP (R253). -/
def execFoldTableDrop (view : Nat) (cmd : Word64) (s : State) : Host.Outcome State Fault Refusal :=
  onPart (fun s => atView view (writeSlotCmd view (withOp 1 2 cmd)) s) s

/-- FOLD_SLOT_WAIT_END (R253). -/
def execFoldSlotWaitEnd (s : State) : Host.Outcome State Fault Refusal :=
  onPart (fun s => slotWaitEnds s) s

/-- FOLD_SLOT_WAIT_TIMEOUT (R253). -/
def execFoldSlotWaitTimeout (s : State) : Host.Outcome State Fault Refusal :=
  onPart (fun s => slotWaitExpires s) s

/-- JOB_START (R257). -/
def execJobStart (view : Nat) (cmd : Word64) (s : State) : Host.Outcome State Fault Refusal :=
  onPart (fun s => atView view (writeJobCmd view (withOp 3 1 cmd)) s) s

/-- JOB_ABORT (R258). -/
def execJobAbort (view : Nat) (cmd : Word64) (s : State) : Host.Outcome State Fault Refusal :=
  onPart (fun s => atView view (writeJobCmd view (withOp 3 2 cmd)) s) s

/-- JOB_QUERY (R271). -/
def execJobQuery (view : Nat) (cmd : Word64) (s : State) : Host.Outcome State Fault Refusal :=
  onPart (fun s => atView view (writeJobCmd view (withOp 3 3 cmd)) s) s

/-- JOB_END (R258). -/
def execJobEnd (job : Nat) (s : State) : Host.Outcome State Fault Refusal :=
  onPart (fun s => jobEnds job s) s

/-- MEND_DISABLE (R273). -/
def execMendDisable (view : Nat) (engine : Nat) (s : State) : Host.Outcome State Fault Refusal :=
  onPart (fun s => atView view (forOne 16 engine (regWrite (.mendCtrl engine) view 0)) s) s

/-- CLV_EVENT_POP (R180). -/
def execClvEventPop (view : Nat) (s : State) : Host.Outcome State Fault Refusal :=
  onPart (fun s => atView view (popEvent .clv view) s) s

/-- STR_EVENT_POP (R241). -/
def execStrEventPop (view : Nat) (s : State) : Host.Outcome State Fault Refusal :=
  onPart (fun s => atView view (popEvent .str view) s) s

/-- CMP_EVENT_POP (R272). -/
def execCmpEventPop (view : Nat) (s : State) : Host.Outcome State Fault Refusal :=
  onPart (fun s => atView view (popEvent .cmp view) s) s

end Sys2Proof.Machine
end

