-- ==== Sys2Proof/Machine/ExecFlash.lean ====
section
/-!
DEFINITION. The commands of the flash tier (chapter 11).
-/

namespace Sys2Proof.Machine

open Sys2Proof

/-- DEMOTE (R338). -/
def execDemote (view : Nat) (cmd : Word64) (s : State) : Host.Outcome State Fault Refusal :=
  onPart (fun s => atView view (writeFltCmd view (withOp 3 1 cmd)) s) s

/-- PROMOTE (R339). -/
def execPromote (view : Nat) (cmd : Word64) (s : State) : Host.Outcome State Fault Refusal :=
  onPart (fun s => atView view (writeFltCmd view (withOp 3 2 cmd)) s) s

/-- MOVE_ABORT (R341). -/
def execMoveAbort (view : Nat) (cmd : Word64) (s : State) : Host.Outcome State Fault Refusal :=
  onPart (fun s => atView view (writeFltCmd view (withOp 3 3 cmd)) s) s

/-- ADD_ROOM (R335). -/
def execAddRoom (view : Nat) (cmd : Word64) (s : State) : Host.Outcome State Fault Refusal :=
  onPart (fun s => atView view (writeFltCmd view (withOp 3 4 cmd)) s) s

/-- REMOVE_ROOM (R335). -/
def execRemoveRoom (view : Nat) (cmd : Word64) (s : State) : Host.Outcome State Fault Refusal :=
  onPart (fun s => atView view (writeFltCmd view (withOp 3 5 cmd)) s) s

/-- ADOPT (R345). -/
def execAdopt (view : Nat) (cmd : Word64) (s : State) : Host.Outcome State Fault Refusal :=
  onPart (fun s => atView view (writeFltCmd view (withOp 3 6 cmd)) s) s

/-- DISCARD (R345). -/
def execDiscardExtent (view : Nat) (cmd : Word64) (s : State) : Host.Outcome State Fault Refusal :=
  onPart (fun s => atView view (writeFltCmd view (withOp 3 7 cmd)) s) s

/-- ENROLL (R332). -/
def execEnroll (view : Nat) (cmd : Word64) (s : State) : Host.Outcome State Fault Refusal :=
  onPart (fun s => atView view (writeFltCmd view (withOp 3 8 cmd)) s) s

/-- MOVE_COPY_DONE (R340). -/
def execMoveCopyDone (move : Nat) (s : State) : Host.Outcome State Fault Refusal :=
  onPart (fun s => moveCopyDone move s) s

/-- REMOVE_ROOM_DONE (R335). -/
def execRemoveRoomDone (s : State) : Host.Outcome State Fault Refusal :=
  onPart (fun s => removeRoomDone s) s

/-- ENROLL_DONE (R347). -/
def execEnrollDone (s : State) : Host.Outcome State Fault Refusal :=
  onPart (fun s => enrollDone s) s

/-- PAGE_STAGED (R336). -/
def execPageStaged (page : Nat) (bad : List Nat) (s : State) : Host.Outcome State Fault Refusal :=
  onPart (fun s => pageStaged page bad s) s

/-- NVME_COMPLETION (R327). -/
def execNvmeCompletion (drive : Nat) (cid : Nat) (status : Nat) (s : State) : Host.Outcome State Fault Refusal :=
  onPart (fun s => nvmeCompletes drive cid status s) s

/-- NVME_TIMEOUT (R327). -/
def execNvmeTimeout (drive : Nat) (cid : Nat) (s : State) : Host.Outcome State Fault Refusal :=
  onPart (fun s => nvmeTimesOut drive cid s) s

/-- NVME_ABORT_TIMEOUT (R327). -/
def execNvmeAbortTimeout (drive : Nat) (cid : Nat) (s : State) : Host.Outcome State Fault Refusal :=
  onPart (fun s => nvmeAbortTimesOut drive cid s) s

/-- SMART_POLL (R343). -/
def execSmartPoll (drive : Nat) (critical : Nat) (percent : Nat) (s : State) : Host.Outcome State Fault Refusal :=
  onPart (fun s => smartPoll drive critical percent s) s

/-- NVME_ASYNC_EVENT (R343). -/
def execNvmeAsyncEvent (drive : Nat) (critical : Nat) (zones : List Nat) (s : State) : Host.Outcome State Fault Refusal :=
  onPart (fun s => asyncEvent drive critical zones s) s

/-- DRIVE_LINK_DOWN (R344). -/
def execDriveLinkDown (drive : Nat) (s : State) : Host.Outcome State Fault Refusal :=
  onPart (fun s => driveDown drive s) s

/-- DRIVE_READY (R345). -/
def execDriveReady (drive : Nat) (info : DriveInfo) (s : State) : Host.Outcome State Fault Refusal :=
  onPart (fun s => driveReady drive info s) s

/-- ZONE_RESET (R329). -/
def execZoneReset (drive : Nat) (zone : Nat) (s : State) : Host.Outcome State Fault Refusal :=
  onPart (fun s => zoneIsReset drive zone s) s

/-- DRIVE_INSERTED (R553). -/
def execDriveInserted (drive : Nat) (s : State) : Host.Outcome State Fault Refusal :=
  onPart (fun s => driveInserted drive s) s

/-- NP_PERST_RELEASE (R553). -/
def execNpPerstRelease (drive : Nat) (s : State) : Host.Outcome State Fault Refusal :=
  onPart (fun s => perstRelease drive s) s

/-- DRIVE_REMOVED (R553). -/
def execDriveRemoved (drive : Nat) (s : State) : Host.Outcome State Fault Refusal :=
  onPart (fun s => driveRemoved drive s) s

/-- FLT_EVENT_POP (R348). -/
def execFltEventPop (view : Nat) (s : State) : Host.Outcome State Fault Refusal :=
  onPart (fun s => atView view (popEvent .flt view) s) s

end Sys2Proof.Machine
end

