-- ==== Sys2Proof/Machine/ExecGalleries.lean ====
section
/-!
DEFINITION. The commands of the galleries (chapter 13).
-/

namespace Sys2Proof.Machine

open Sys2Proof

/-- A key message of that KIND (R396). -/
def ofKind (k : Nat) (p : List Byte) : List Byte := BitVec.ofNat 8 k :: p.drop 1

/-- DISABLE (R385). -/
def execDisableGallery (view : Nat) (cmd : Word64) (s : State) : Host.Outcome State Fault Refusal :=
  onPart (fun s => atView view (writeGalCmd view (withOp 3 1 cmd)) s) s

/-- ENABLE (R385). -/
def execEnableGallery (view : Nat) (cmd : Word64) (s : State) : Host.Outcome State Fault Refusal :=
  onPart (fun s => atView view (writeGalCmd view (withOp 3 2 cmd)) s) s

/-- RINSE (R386). -/
def execRinse (view : Nat) (cmd : Word64) (s : State) : Host.Outcome State Fault Refusal :=
  onPart (fun s => atView view (writeGalCmd view (withOp 3 3 cmd)) s) s

/-- RINSE_ALL (R386). -/
def execRinseAll (view : Nat) (cmd : Word64) (s : State) : Host.Outcome State Fault Refusal :=
  onPart (fun s => atView view (writeGalCmd view (withOp 3 4 cmd)) s) s

/-- ENTER_VITRINE (R402). -/
def execEnterVitrine (view : Nat) (cmd : Word64) (s : State) : Host.Outcome State Fault Refusal :=
  onPart (fun s => atView view (writeGalCmd view (withOp 3 5 cmd)) s) s

/-- SEAL (R401). -/
def execSealBinding (view : Nat) (cmd : Word64) (s : State) : Host.Outcome State Fault Refusal :=
  onPart (fun s => atView view (writeGalCmd view (withOp 3 6 cmd)) s) s

/-- UNBIND (R401). -/
def execUnbindEntry (view : Nat) (cmd : Word64) (s : State) : Host.Outcome State Fault Refusal :=
  onPart (fun s => atView view (writeGalCmd view (withOp 3 7 cmd)) s) s

/-- RINSE_DEFERRED_START (R387). -/
def execRinseDeferredStart (s : State) : Host.Outcome State Fault Refusal :=
  onPart (fun s => rinseDeferred s) s

/-- RINSE_COMPLETE (R387). -/
def execRinseComplete (gallery : Nat) (s : State) : Host.Outcome State Fault Refusal :=
  onPart (fun s => rinseEnds gallery s) s

/-- GALLERY_DRAIN_END (R385). -/
def execGalleryDrainEnd (gallery : Nat) (s : State) : Host.Outcome State Fault Refusal :=
  onPart (fun s => galDrainEnds gallery s) s

/-- KEY_INSTALL (R398). -/
def execKeyInstall (chan : Nat) (payload : List Byte) (s : State) : Host.Outcome State Fault Refusal :=
  onPart (fun s => mailSend chan 0x10 (ofKind 1 payload) s) s

/-- ROTATE (R399). -/
def execRotate (chan : Nat) (payload : List Byte) (s : State) : Host.Outcome State Fault Refusal :=
  onPart (fun s => mailSend chan 0x10 (ofKind 2 payload) s) s

/-- COLLECTION_LOAD (R400). -/
def execCollectionLoad (chan : Nat) (payload : List Byte) (s : State) : Host.Outcome State Fault Refusal :=
  onPart (fun s => mailSend chan 0x10 (ofKind 3 payload) s) s

/-- BIND (R401). -/
def execBindObject (chan : Nat) (payload : List Byte) (s : State) : Host.Outcome State Fault Refusal :=
  onPart (fun s => mailSend chan 0x10 (ofKind 4 payload) s) s

/-- REENCRYPT_PAGE (R399). -/
def execReencryptPage (page : Nat) (s : State) : Host.Outcome State Fault Refusal :=
  onPart (fun s => reencryptsPage page s) s

/-- GAL_PORT_WRITE (R383). -/
def execGalPortWrite (view : Nat) (reg : Nat) (value : Word32) (s : State) : Host.Outcome State Fault Refusal :=
  onPart (fun s => atView view (forOne 32 reg (regWrite (.galPort reg) view value.toNat)) s) s

/-- GAL_EVENT_POP (R412). -/
def execGalEventPop (view : Nat) (s : State) : Host.Outcome State Fault Refusal :=
  onPart (fun s => atView view (popEvent .gal view) s) s

end Sys2Proof.Machine
end

