-- ==== Sys2Proof/Machine/ExecLinks.lean ====
section
/-!
DEFINITION. The commands of the links and of the switch core (chapters 02 and 12).
-/

namespace Sys2Proof.Machine

open Sys2Proof

/-- A command on a physical port that exists, while the core die runs. -/
def onFp (fp : Nat) (f : Part → Part) (s : Part) : Part :=
  if fp < 128 && s.cur.power = .coreOn && !s.cur.fastPending then f s else s

/-- LINK_ENABLE (R47). -/
def execLinkEnable (fp : Nat) (s : State) : Host.Outcome State Fault Refusal :=
  onPart (fun s => onFp fp (fun s => onEdge (tget s.links.enable fp false) true id (linkEnable fp) s) s) s

/-- LINK_DISABLE (R47). -/
def execLinkDisable (fp : Nat) (s : State) : Host.Outcome State Fault Refusal :=
  onPart (fun s => onFp fp (fun s => onEdge (tget s.links.enable fp false) false (linkDisable fp) id s) s) s

/-- LINK_RETRAIN (R78). -/
def execLinkRetrain (port : Nat) (s : State) : Host.Outcome State Fault Refusal :=
  onPart (fun s => retrainPort port s) s

/-- PMD_TRAINED (R47). -/
def execPmdTrained (port : Nat) (s : State) : Host.Outcome State Fault Refusal :=
  onPart (fun s => linkMoves port .train .lock s) s

/-- TRAIN_TIMEOUT (R47). -/
def execTrainTimeout (port : Nat) (s : State) : Host.Outcome State Fault Refusal :=
  onPart (fun s => trainTimeout port s) s

/-- TRAIN_RETRY (R47). -/
def execTrainRetry (port : Nat) (s : State) : Host.Outcome State Fault Refusal :=
  onPart (fun s => trainRetry port s) s

/-- PCS_LOCKED (R47). -/
def execPcsLocked (port : Nat) (s : State) : Host.Outcome State Fault Refusal :=
  onPart (fun s => linkMoves port .lock .align s) s

/-- LOCK_TIMEOUT (R47). -/
def execLockTimeout (port : Nat) (s : State) : Host.Outcome State Fault Refusal :=
  onPart (fun s => linkMoves port .lock .train s) s

/-- XENUS_START_SET (R43). -/
def execXenusStartSet (port : Nat) (s : State) : Host.Outcome State Fault Refusal :=
  onPart (fun s => startSet port s) s

/-- ALIGN_TIMEOUT (R47). -/
def execAlignTimeout (port : Nat) (s : State) : Host.Outcome State Fault Refusal :=
  onPart (fun s => linkMoves port .align .train s) s

/-- INIT_FLIT (R48). -/
def execInitFlit (port : Nat) (flit : List Byte) (s : State) : Host.Outcome State Fault Refusal :=
  onPart (fun s => takeInit port flit s) s

/-- PARAM_TIMEOUT (R47). -/
def execParamTimeout (port : Nat) (s : State) : Host.Outcome State Fault Refusal :=
  onPart (fun s => paramTimeout port s) s

/-- DATA_FLIT (R50). -/
def execDataFlit (port : Nat) (flit : List Byte) (s : State) : Host.Outcome State Fault Refusal :=
  onPart (fun s => takeData port flit s) s

/-- NULL_FLIT (R46). -/
def execNullFlit (port : Nat) (flit : List Byte) (s : State) : Host.Outcome State Fault Refusal :=
  onPart (fun s => takeNull port flit s) s

/-- ACK_DUE (R50). -/
def execAckDue (port : Nat) (s : State) : Host.Outcome State Fault Refusal :=
  onPart (fun s => ackDue port s) s

/-- ACK_TIMEOUT (R51). -/
def execAckTimeout (port : Nat) (s : State) : Host.Outcome State Fault Refusal :=
  onPart (fun s => ackTimeout port s) s

/-- RETRAIN_TIMEOUT (R51). -/
def execRetrainTimeout (port : Nat) (s : State) : Host.Outcome State Fault Refusal :=
  onPart (fun s => retrainTimeout port s) s

/-- LOCK_LOST (R51). -/
def execLockLost (port : Nat) (s : State) : Host.Outcome State Fault Refusal :=
  onPart (fun s => lockLost port s) s

/-- STALL_TIMER_EXPIRY (R373). -/
def execStallTimerExpiry (port : Nat) (vc : Nat) (s : State) : Host.Outcome State Fault Refusal :=
  onPart (fun s => stallExpires port vc s) s

/-- BUFFER_ADMISSION (R357). -/
def execBufferAdmission (port : Nat) (vc : Nat) (s : State) : Host.Outcome State Fault Refusal :=
  onPart (fun s => admitWaiting port vc s) s

/-- POLICER_RECOLOUR (R368). -/
def execPolicerRecolour (port : Nat) (vc : Nat) (s : State) : Host.Outcome State Fault Refusal :=
  onPart (fun s => recolour port vc s) s

/-- SHAPER_CONFIG_WRITE (R364). -/
def execShaperConfigWrite (view : Nat) (shaper : Nat) (value : Word64) (s : State) : Host.Outcome State Fault Refusal :=
  onPart (fun s => atView view (forOne 512 shaper (regWrite (.shaper (2 * shaper)) view value.toNat)) s) s

/-- POLICER_CONFIG_WRITE (R367). -/
def execPolicerConfigWrite (view : Nat) (policer : Nat) (word : Nat) (value : Word64) (s : State) : Host.Outcome State Fault Refusal :=
  onPart (fun s => atView view (forOne 1024 policer (forOne 2 word (regWrite (.policer (4 * policer + word)) view value.toNat))) s) s

/-- CELL_TIME (R354). -/
def execCellTime (s : State) : Host.Outcome State Fault Refusal :=
  onPart (fun s => cellTime s) s

/-- MESSAGE_START (R361). -/
def execMessageStart (port : Nat) (s : State) : Host.Outcome State Fault Refusal :=
  onPart (fun s => messageStart port s) s

end Sys2Proof.Machine
end

