-- ==== Sys2Proof/Machine/ExecMemory.lean ====
section
/-!
DEFINITION. The commands of the channel units and of pool DRAM (chapters 09 and 10).
-/

namespace Sys2Proof.Machine

open Sys2Proof

/-- SUBMIT (R280). -/
def execSubmitCommand (view : Nat) (cmd : Word64) (s : State) : Host.Outcome State Fault Refusal :=
  onPart (fun s => atView view (writeChuCmd view (withOp 3 1 cmd)) s) s

/-- CHU_CANCEL (R282). -/
def execChuCancel (view : Nat) (cmd : Word64) (s : State) : Host.Outcome State Fault Refusal :=
  onPart (fun s => atView view (writeChuCmd view (withOp 3 2 cmd)) s) s

/-- CHU_QUERY (R293). -/
def execChuQuery (view : Nat) (cmd : Word64) (s : State) : Host.Outcome State Fault Refusal :=
  onPart (fun s => atView view (writeChuCmd view (withOp 3 3 cmd)) s) s

/-- CHU_COMMAND_START (R280). -/
def execChuCommandStart (unit : Nat) (s : State) : Host.Outcome State Fault Refusal :=
  onPart (fun s => chuStarts unit s) s

/-- CHU_COMMAND_END (R282). -/
def execChuCommandEnd (unit : Nat) (s : State) : Host.Outcome State Fault Refusal :=
  onPart (fun s => chuEnds unit s) s

/-- CHU_UNIT_DISABLE (R295). -/
def execChuUnitDisable (view : Nat) (unit : Nat) (s : State) : Host.Outcome State Fault Refusal :=
  onPart (fun s => atView view (forOne 24 unit (regWrite (.chuCtrl unit) view 0)) s) s

/-- REFRESH_DUE (R287). -/
def execRefreshDue (channel : Nat) (s : State) : Host.Outcome State Fault Refusal :=
  onPart (fun s => refreshDue channel s) s

/-- DRAM_RETRAIN_STEP (R300). -/
def execDramRetrainStep (channel : Nat) (s : State) : Host.Outcome State Fault Refusal :=
  onPart (fun s => retrainStep channel s) s

/-- SUBCHANNEL_LOST (R299). -/
def execSubchannelLost (channel : Nat) (s : State) : Host.Outcome State Fault Refusal :=
  onPart (fun s => subchannelLost channel s) s

/-- FILL_START (R308). -/
def execFillStart (view : Nat) (cmd : Word64) (s : State) : Host.Outcome State Fault Refusal :=
  onPart (fun s => atView view (writeFillCmd view (withOp 1 1 cmd)) s) s

/-- FILL_ABORT (R321). -/
def execFillAbort (view : Nat) (s : State) : Host.Outcome State Fault Refusal :=
  onPart (fun s => atView view (writeFillCmd view 2) s) s

/-- FILL_END (R309). -/
def execFillEnd (s : State) : Host.Outcome State Fault Refusal :=
  onPart (fun s => fillEnds s) s

/-- SURVEY_START (R313). -/
def execSurveyStart (view : Nat) (cmd : Word64) (s : State) : Host.Outcome State Fault Refusal :=
  onPart (fun s => atView view (writeSurveyCmd view (withOp 1 1 cmd)) s) s

/-- SURVEY_ABORT (R315). -/
def execSurveyAbort (view : Nat) (s : State) : Host.Outcome State Fault Refusal :=
  onPart (fun s => atView view (writeSurveyCmd view 2) s) s

/-- SURVEY_END (R314). -/
def execSurveyEnd (s : State) : Host.Outcome State Fault Refusal :=
  onPart (fun s => surveyEnds s) s

/-- FLIP_ARM (R317). -/
def execFlipArm (view : Nat) (value : Word32) (s : State) : Host.Outcome State Fault Refusal :=
  onPart (fun s => atView view (regWrite .flipCtrl view value.toNat) s) s

/-- FLIP_HIT_READ (R323). -/
def execFlipHitRead (view : Nat) (s : State) : Host.Outcome State Fault Refusal :=
  onPart (fun s => atView view (fun s => readFlipHit true (returnRead view (regValue .flipHit view s) s)) s) s

/-- CHU_EVENT_POP (R294). -/
def execChuEventPop (view : Nat) (s : State) : Host.Outcome State Fault Refusal :=
  onPart (fun s => atView view (popEvent .chu view) s) s

end Sys2Proof.Machine
end

