-- ==== Sys2Proof/Machine/ExecMessages.lean ====
section
/-!
DEFINITION. The commands that are messages of Xenus Link: each arrives whole on a logical port (R60, R116, R426, R495, R516).
-/

namespace Sys2Proof.Machine

open Sys2Proof

/-- A message of that opcode has arrived whole on a logical port. -/
def messageArrives (port op : Nat) (m : Msg) (s : Part) : Part := ingress port { m with op := BitVec.ofNat 8 op } s

/-- RD_LINE (R60). -/
def execRdLine (port : Nat) (m : Msg) (s : State) : Host.Outcome State Fault Refusal :=
  onPart (fun s => messageArrives port 0x01 m s) s

/-- WR_LINE (R60). -/
def execWrLine (port : Nat) (m : Msg) (s : State) : Host.Outcome State Fault Refusal :=
  onPart (fun s => messageArrives port 0x03 m s) s

/-- WR_MASKED (R60). -/
def execWrMasked (port : Nat) (m : Msg) (s : State) : Host.Outcome State Fault Refusal :=
  onPart (fun s => messageArrives port 0x04 m s) s

/-- AT_ADD (R61). -/
def execAtAdd (port : Nat) (m : Msg) (s : State) : Host.Outcome State Fault Refusal :=
  onPart (fun s => messageArrives port 0x08 m s) s

/-- AT_MIN (R61). -/
def execAtMin (port : Nat) (m : Msg) (s : State) : Host.Outcome State Fault Refusal :=
  onPart (fun s => messageArrives port 0x09 m s) s

/-- AT_MAX (R61). -/
def execAtMax (port : Nat) (m : Msg) (s : State) : Host.Outcome State Fault Refusal :=
  onPart (fun s => messageArrives port 0x0A m s) s

/-- AT_CAS (R61). -/
def execAtCas (port : Nat) (m : Msg) (s : State) : Host.Outcome State Fault Refusal :=
  onPart (fun s => messageArrives port 0x0B m s) s

/-- FENCE (R73). -/
def execFence (port : Nat) (m : Msg) (s : State) : Host.Outcome State Fault Refusal :=
  onPart (fun s => messageArrives port 0x10 m s) s

/-- FENCE_MARK (R74). -/
def execFenceMark (port : Nat) (m : Msg) (s : State) : Host.Outcome State Fault Refusal :=
  onPart (fun s => messageArrives port 0x11 m s) s

/-- LOAN_OFFER (R29). -/
def execLoanOffer (port : Nat) (m : Msg) (s : State) : Host.Outcome State Fault Refusal :=
  onPart (fun s => messageArrives port 0x18 m s) s

/-- LOAN_RECALL (R33). -/
def execLoanRecall (port : Nat) (m : Msg) (s : State) : Host.Outcome State Fault Refusal :=
  onPart (fun s => messageArrives port 0x19 m s) s

/-- CONTRIB (R150). -/
def execContrib (port : Nat) (m : Msg) (s : State) : Host.Outcome State Fault Refusal :=
  onPart (fun s => messageArrives port 0x40 m s) s

/-- RESULT (R159). -/
def execResult (port : Nat) (m : Msg) (s : State) : Host.Outcome State Fault Refusal :=
  onPart (fun s => messageArrives port 0x41 m s) s

/-- STREAM_ATTACH (R229). -/
def execStreamAttach (port : Nat) (m : Msg) (s : State) : Host.Outcome State Fault Refusal :=
  onPart (fun s => messageArrives port 0x48 m s) s

/-- TILE (R226). -/
def execTile (port : Nat) (m : Msg) (s : State) : Host.Outcome State Fault Refusal :=
  onPart (fun s => messageArrives port 0x49 m s) s

/-- WINDOW_CREDIT (R231). -/
def execWindowCredit (port : Nat) (m : Msg) (s : State) : Host.Outcome State Fault Refusal :=
  onPart (fun s => messageArrives port 0x4A m s) s

/-- GATHER_REQ (R185). -/
def execGatherReq (port : Nat) (m : Msg) (s : State) : Host.Outcome State Fault Refusal :=
  onPart (fun s => messageArrives port 0x50 m s) s

/-- FILTER_REQ (R185). -/
def execFilterReq (port : Nat) (m : Msg) (s : State) : Host.Outcome State Fault Refusal :=
  onPart (fun s => messageArrives port 0x52 m s) s

/-- GATHER_DATA (R186). -/
def execGatherData (port : Nat) (m : Msg) (s : State) : Host.Outcome State Fault Refusal :=
  onPart (fun s => messageArrives port 0x51 m s) s

/-- FILTER_DATA (R186). -/
def execFilterData (port : Nat) (m : Msg) (s : State) : Host.Outcome State Fault Refusal :=
  onPart (fun s => messageArrives port 0x53 m s) s

/-- CPL (R56). -/
def execCpl (port : Nat) (m : Msg) (s : State) : Host.Outcome State Fault Refusal :=
  onPart (fun s => messageArrives port 0x80 m s) s

/-- RD_DATA (R64). -/
def execRdData (port : Nat) (m : Msg) (s : State) : Host.Outcome State Fault Refusal :=
  onPart (fun s => messageArrives port 0x81 m s) s

/-- AT_DATA (R61). -/
def execAtData (port : Nat) (m : Msg) (s : State) : Host.Outcome State Fault Refusal :=
  onPart (fun s => messageArrives port 0x82 m s) s

/-- LOAN_REPLY (R62). -/
def execLoanReply (port : Nat) (m : Msg) (s : State) : Host.Outcome State Fault Refusal :=
  onPart (fun s => messageArrives port 0x83 m s) s

/-- FAULT_NOTICE (R65). -/
def execFaultNotice (port : Nat) (m : Msg) (s : State) : Host.Outcome State Fault Refusal :=
  onPart (fun s => messageArrives port 0x8F m s) s

/-- RD_SHARED (R126). -/
def execRdShared (port : Nat) (m : Msg) (s : State) : Host.Outcome State Fault Refusal :=
  onPart (fun s => messageArrives port 0x20 m s) s

/-- RD_OWN (R126). -/
def execRdOwn (port : Nat) (m : Msg) (s : State) : Host.Outcome State Fault Refusal :=
  onPart (fun s => messageArrives port 0x21 m s) s

/-- UPGRADE (R127). -/
def execUpgrade (port : Nat) (m : Msg) (s : State) : Host.Outcome State Fault Refusal :=
  onPart (fun s => messageArrives port 0x22 m s) s

/-- WB_DIRTY (R126). -/
def execWbDirty (port : Nat) (m : Msg) (s : State) : Host.Outcome State Fault Refusal :=
  onPart (fun s => messageArrives port 0x23 m s) s

/-- CMP_ACK (R121). -/
def execCmpAck (port : Nat) (m : Msg) (s : State) : Host.Outcome State Fault Refusal :=
  onPart (fun s => messageArrives port 0x32 m s) s

/-- SNP_SHR_FWD (R123). -/
def execSnpShrFwd (port : Nat) (m : Msg) (s : State) : Host.Outcome State Fault Refusal :=
  onPart (fun s => messageArrives port 0x28 m s) s

/-- SNP_INV (R123). -/
def execSnpInv (port : Nat) (m : Msg) (s : State) : Host.Outcome State Fault Refusal :=
  onPart (fun s => messageArrives port 0x29 m s) s

/-- SNP_INV_FWD (R123). -/
def execSnpInvFwd (port : Nat) (m : Msg) (s : State) : Host.Outcome State Fault Refusal :=
  onPart (fun s => messageArrives port 0x2A m s) s

/-- SNP_NA (R123). -/
def execSnpNa (port : Nat) (m : Msg) (s : State) : Host.Outcome State Fault Refusal :=
  onPart (fun s => messageArrives port 0x2B m s) s

/-- SNP_RSP (R126). -/
def execSnpRsp (port : Nat) (m : Msg) (s : State) : Host.Outcome State Fault Refusal :=
  onPart (fun s => messageArrives port 0x30 m s) s

/-- CAT_CMP (R118). -/
def execCatCmp (port : Nat) (m : Msg) (s : State) : Host.Outcome State Fault Refusal :=
  onPart (fun s => messageArrives port 0x31 m s) s

/-- DATA_S (R117). -/
def execDataS (port : Nat) (m : Msg) (s : State) : Host.Outcome State Fault Refusal :=
  onPart (fun s => messageArrives port 0x38 m s) s

/-- DATA_E (R117). -/
def execDataE (port : Nat) (m : Msg) (s : State) : Host.Outcome State Fault Refusal :=
  onPart (fun s => messageArrives port 0x39 m s) s

/-- DATA_M (R117). -/
def execDataM (port : Nat) (m : Msg) (s : State) : Host.Outcome State Fault Refusal :=
  onPart (fun s => messageArrives port 0x3A m s) s

/-- DATA_M_AT (R133). -/
def execDataMAt (port : Nat) (m : Msg) (s : State) : Host.Outcome State Fault Refusal :=
  onPart (fun s => messageArrives port 0x3B m s) s

/-- SNP_DATA (R126). -/
def execSnpData (port : Nat) (m : Msg) (s : State) : Host.Outcome State Fault Refusal :=
  onPart (fun s => messageArrives port 0x3C m s) s

/-- TWIN_ENTRY (R425). -/
def execTwinEntry (port : Nat) (m : Msg) (s : State) : Host.Outcome State Fault Refusal :=
  onPart (fun s => messageArrives port 0x60 m s) s

/-- TWIN_CHECK (R433). -/
def execTwinCheck (port : Nat) (m : Msg) (s : State) : Host.Outcome State Fault Refusal :=
  onPart (fun s => messageArrives port 0x61 m s) s

/-- TWIN_SUM (R433). -/
def execTwinSum (port : Nat) (m : Msg) (s : State) : Host.Outcome State Fault Refusal :=
  onPart (fun s => messageArrives port 0x62 m s) s

/-- MGMT_REQ (R495). -/
def execMgmtReq (port : Nat) (m : Msg) (s : State) : Host.Outcome State Fault Refusal :=
  onPart (fun s => messageArrives port 0x70 m s) s

/-- MGMT_RSP (R495). -/
def execMgmtRsp (port : Nat) (m : Msg) (s : State) : Host.Outcome State Fault Refusal :=
  onPart (fun s => messageArrives port 0x71 m s) s

/-- TEL_REQ (R516). -/
def execTelReq (port : Nat) (m : Msg) (s : State) : Host.Outcome State Fault Refusal :=
  onPart (fun s => messageArrives port 0x74 m s) s

/-- TEL_RSP (R516). -/
def execTelRsp (port : Nat) (m : Msg) (s : State) : Host.Outcome State Fault Refusal :=
  onPart (fun s => messageArrives port 0x75 m s) s

end Sys2Proof.Machine
end

