-- ==== Sys2Proof/Machine/ExecPool.lean ====
section
/-!
DEFINITION. The commands of the pool and region registers (chapters 01, 03, 04 and 18).
-/

namespace Sys2Proof.Machine

open Sys2Proof

/-- REVOKE (R31). -/
def execRevoke (view : Nat) (cmd : Word64) (s : State) : Host.Outcome State Fault Refusal :=
  onPart (fun s => atView view (writeExtCmd view (setField cmd.toNat 23 20 1)) s) s

/-- MOVE_OUT (R38). -/
def execMoveOut (view : Nat) (cmd : Word64) (s : State) : Host.Outcome State Fault Refusal :=
  onPart (fun s => atView view (writeExtCmd view (setField cmd.toNat 23 20 2)) s) s

/-- FORCE_RECALL (R34). -/
def execForceRecall (view : Nat) (cmd : Word64) (s : State) : Host.Outcome State Fault Refusal :=
  onPart (fun s => atView view (writeExtCmd view (setField cmd.toNat 23 20 3)) s) s

/-- FREE (R38). -/
def execFreeExtent (view : Nat) (cmd : Word64) (s : State) : Host.Outcome State Fault Refusal :=
  onPart (fun s => atView view (writeExtCmd view (setField cmd.toNat 23 20 4)) s) s

/-- TBL_READ (R535). -/
def execTblRead (view : Nat) (cmd : Word64) (s : State) : Host.Outcome State Fault Refusal :=
  onPart (fun s => atView view (writeTblCmd view (withOp 1 1 cmd)) s) s

/-- TBL_WRITE (R536). -/
def execTblWrite (view : Nat) (cmd : Word64) (s : State) : Host.Outcome State Fault Refusal :=
  onPart (fun s => atView view (writeTblCmd view (withOp 1 2 cmd)) s) s

/-- ACQUIRE (R85). -/
def execAcquireRegion (view : Nat) (cmd : Word64) (s : State) : Host.Outcome State Fault Refusal :=
  onPart (fun s => atView view (writeRegionCmd view (withOp 3 1 cmd)) s) s

/-- RELEASE (R85). -/
def execReleaseRegion (view : Nat) (cmd : Word64) (s : State) : Host.Outcome State Fault Refusal :=
  onPart (fun s => atView view (writeRegionCmd view (withOp 3 2 cmd)) s) s

/-- ORPHAN (R85). -/
def execOrphanRegion (view : Nat) (cmd : Word64) (s : State) : Host.Outcome State Fault Refusal :=
  onPart (fun s => atView view (writeRegionCmd view (withOp 3 3 cmd)) s) s

/-- OPEN_DRAFT (R97). -/
def execOpenDraft (view : Nat) (cmd : Word64) (s : State) : Host.Outcome State Fault Refusal :=
  onPart (fun s => atView view (writeRegionCmd view (withOp 3 4 cmd)) s) s

/-- PUBLISH (R97). -/
def execPublish (view : Nat) (cmd : Word64) (s : State) : Host.Outcome State Fault Refusal :=
  onPart (fun s => atView view (writeRegionCmd view (withOp 3 5 cmd)) s) s

/-- ABORT_DRAFT (R99). -/
def execAbortDraft (view : Nat) (cmd : Word64) (s : State) : Host.Outcome State Fault Refusal :=
  onPart (fun s => atView view (writeRegionCmd view (withOp 3 6 cmd)) s) s

/-- OPEN_READ (R100). -/
def execOpenRead (view : Nat) (cmd : Word64) (s : State) : Host.Outcome State Fault Refusal :=
  onPart (fun s => atView view (writeRegionCmd view (withOp 3 7 cmd)) s) s

/-- CLOSE_READ (R100). -/
def execCloseRead (view : Nat) (cmd : Word64) (s : State) : Host.Outcome State Fault Refusal :=
  onPart (fun s => atView view (writeRegionCmd view (withOp 3 8 cmd)) s) s

/-- RENEW (R100). -/
def execRenew (view : Nat) (cmd : Word64) (s : State) : Host.Outcome State Fault Refusal :=
  onPart (fun s => atView view (writeRegionCmd view (withOp 3 9 cmd)) s) s

/-- RECLAIM (R101). -/
def execReclaim (view : Nat) (cmd : Word64) (s : State) : Host.Outcome State Fault Refusal :=
  onPart (fun s => atView view (writeRegionCmd view (withOp 3 10 cmd)) s) s

/-- ADD_SPARE (R95). -/
def execAddSpare (view : Nat) (cmd : Word64) (s : State) : Host.Outcome State Fault Refusal :=
  onPart (fun s => atView view (writeRegionCmd view (withOp 3 11 cmd)) s) s

/-- DROP (R102). -/
def execDropRegion (view : Nat) (cmd : Word64) (s : State) : Host.Outcome State Fault Refusal :=
  onPart (fun s => atView view (writeRegionCmd view (withOp 3 12 cmd)) s) s

/-- SET_REGION (R140). -/
def execSetRegion (view : Nat) (cmd : Word64) (s : State) : Host.Outcome State Fault Refusal :=
  onPart (fun s => atView view (writeCatCmd view (withOp 3 1 cmd)) s) s

/-- CLEAR_REGION (R112). -/
def execClearRegion (view : Nat) (cmd : Word64) (s : State) : Host.Outcome State Fault Refusal :=
  onPart (fun s => atView view (writeCatCmd view (withOp 3 2 cmd)) s) s

/-- SET_MEMBER (R140). -/
def execSetMember (view : Nat) (cmd : Word64) (s : State) : Host.Outcome State Fault Refusal :=
  onPart (fun s => atView view (writeCatCmd view (withOp 3 3 cmd)) s) s

/-- REMOVE_MEMBER (R137). -/
def execRemoveMember (view : Nat) (cmd : Word64) (s : State) : Host.Outcome State Fault Refusal :=
  onPart (fun s => atView view (writeCatCmd view (withOp 3 4 cmd)) s) s

/-- HOST_LOST (R135). -/
def execHostLost (view : Nat) (cmd : Word64) (s : State) : Host.Outcome State Fault Refusal :=
  onPart (fun s => atView view (writeCatCmd view (withOp 3 5 cmd)) s) s

/-- PURGE_EXTENT (R141). -/
def execPurgeExtent (view : Nat) (cmd : Word64) (s : State) : Host.Outcome State Fault Refusal :=
  onPart (fun s => atView view (writeCatCmd view (withOp 3 6 cmd)) s) s

/-- REGION_EVENT_POP (R109). -/
def execRegionEventPop (view : Nat) (s : State) : Host.Outcome State Fault Refusal :=
  onPart (fun s => atView view (popEvent .region view) s) s

/-- CAT_EVENT_POP (R143). -/
def execCatEventPop (view : Nat) (s : State) : Host.Outcome State Fault Refusal :=
  onPart (fun s => atView view (popEvent .cat view) s) s

end Sys2Proof.Machine
end

