-- ==== Sys2Proof/Machine/Scheduler.lean ====
section
/-!
DEFINITION. The ticks of the work scheduler (R454 to R459): the demand of each class from the turns that wait for its energy, the division of the
budget, the measured power and its means, forced turns, ballast.
-/

namespace Sys2Proof.Machine

open Sys2Proof

/-! ### Demand -/

/-- The part with one class not paced. -/
def unpaced (c : Nat) (s : Part) : Part :=
  onPower (fun p => { p with classes := p.classes.mapIdx fun i x => if i = c then { x with held := none } else x }) s

/-- Cells that wait in the crossbar's input queues, of expedited messages or of others. -/
def waitingCells (exp : Bool) (s : Part) : Nat :=
  ((s.sw.voq.filter fun q => expedited q.msg = exp).map fun q => q.left).sum

/-- Energy of the turns that a command has to begin, and that wait for it: cells of the crossbar, the heads of channel-unit queues, pages of a
rotation, a census, spot checks and self-tests. -/
def standingTurns (c : Nat) (s : Part) : Nat :=
  match c with
  | 0 => waitingCells false s * cellCost
  | 4 => ((List.range 24).filter fun u => (chuRunning u s).isNone && s.chu.cmds.any fun k => k.unit = u).length * lineCost
  | 11 => (((List.range 8).filter fun g => (gallery g s).rotating).map fun g => (oldPages g s).length).sum * pageCost
  | 13 => if s.tel.census = .pending then lineCost else 0
  | 14 => (s.flr.selftests.map testCost).sum + (s.flr.checks.map fun k => testCost k.engine).sum
  | _ => 0

/-- The demand of a class (R454): the energy of the turns that its units have waiting, which is what they take where the class is not paced, and
no more than its consumers take at full rate (R448). -/
def demandOf (c : Nat) (s : Part) : Nat :=
  if c = 6 || c = 7 then 0
  else
    let free := unpaced c s
    min (tickPj (classActivity c)) (standingTurns c s + ((pwrClass c (settleSteps settleBound free)).used - (pwrClass c free).used))

/-- The energy of expedited traffic that waits: cells, and lines at this home. -/
def expeditedDemand (s : Part) : Nat :=
  waitingCells true s * cellCost + (s.chu.held.filter fun m => expedited m).length * lineCost

/-! ### The division (R454) -/

/-- Divide a budget among classes (class, weight, demand) in proportion to weight, each capped at its demand, the excess of a
capped class going to the others in the same way (R454 steps 3 and 4). Answers what each receives, and what is left. -/
def divide : Nat → Nat → List (Nat × Nat × Nat) → List (Nat × Nat) × Nat
  | 0, b, _ => ([], b)
  | n + 1, b, cs =>
    let cs := cs.filter fun c => 0 < c.2.2
    let total := (cs.map fun c => c.2.1).sum
    let full := cs.filter fun c => c.2.2 * total ≤ b * c.2.1
    if cs = [] then ([], b)
    else if full = [] then
      let given := cs.map fun c => (c.1, b * c.2.1 / total)
      (given, b - (given.map (·.2)).sum)
    else
      let rest := cs.filter fun c => !decide (c.2.2 * total ≤ b * c.2.1)
      let r := divide n (b - (full.map fun c => c.2.2).sum) rest
      (full.map (fun c => (c.1, c.2.2)) ++ r.1, r.2)

/-- What a class receives in a list of shares. -/
def shareOf (c : Nat) (xs : List (Nat × Nat)) : Nat := ((xs.filter fun p => p.1 = c).map (·.2)).sum

/-- The budget divided among the classes (steps 2 to 4): the budget, what the charges ahead of the shares have left of it, and the demands. While
the plateau is out of reach each foreground class receives 1/64 of its activity at full rate instead (R459). Answers the shares and what is left. -/
def tickShares (budget left : Nat) (demand : Nat → Nat) (s : Part) : List (Nat × Nat) × Nat :=
  if s.power.unreachable then ((List.range 6).map (fun c => (c, min (demand c) (tickPj (classActivity c) / 64))), 0)
  else
    let mins := (List.range 6).map fun c => (c, min (demand c) (cwShare (classWord c s) * budget / 256))
    let left := left - (mins.map (·.2)).sum
    let fore := divide 8 left ((List.range 6).map fun c => (c, cwWeight (classWord c s), demand c - shareOf c mins))
    let back := divide 8 fore.2 ((List.range' 8 8).map fun c => (c, cwWeight (classWord c s), demand c))
    (mins ++ fore.1 ++ back.1, back.2)

/-- Scale an energy by the throttle level (R461). -/
def throttled (s : Part) (e : Nat) : Nat := e * (8 - s.power.level) / 8

/-! ### Measured power (R457, R458, R467) -/

/-- The mean of the samples of the last 1 s: of 100 spans of 10 ms, and of the span under way. -/
def meanDraw (p : Power) : Nat := (p.spans.sum + p.spanSum) / (1000 * p.spans.length + p.spanCount)

/-- A sample of the input power, in units of 10 µW, joins its span. -/
def takeSample (u : Nat) (p : Power) : Power :=
  if p.spanCount + 1 < 1000 then { p with draw := some u, spanSum := p.spanSum + u, spanCount := p.spanCount + 1 }
  else { p with draw := some u, spans := ((p.spanSum + u) :: p.spans).take 100, spanSum := 0, spanCount := 0 }

/-- The tick's sample against the target in Iron: the error of the 1 s mean is integrated, OVER counts, and UNDER ends once the mean has come
within 2 % of the target. -/
def tickSample (mw : Nat) (s : Part) : Part :=
  let u := mw * 100
  let s := onPower (takeSample u) s
  if s.power.modeNow ≠ 1 then s
  else
    let t := targetNow s
    let m := meanDraw s.power
    onPower (fun p =>
      { p with
        integral := p.integral + ((t : Int) - (m : Int))
        overrun := if t * 108 < u * 100 then min (p.overrun + 1) (2 ^ 26 - 1) else p.overrun
        under := p.under && decide (m * 100 < t * 98) }) s

/-- The target that a tick divides: in Iron corrected by an integral term on the error of the 1 s mean, whose gain R457 does not give, and never
more than 8 % above the target. -/
def correctedTarget (s : Part) : Nat :=
  if s.power.modeNow = 1 then min (targetNow s * 108 / 100) ((targetNow s : Int) + Config.ironTerm s.power.integral).toNat else targetNow s

/-- The budget of a tick: B × 10 µs (R449, R454). -/
def tickBudget (s : Part) : Nat := correctedTarget s * 90 - floorInForce s

/-! ### The tick -/

/-- The ballast of the tick that ends (R454 step 5, R458): in Iron with BALLAST what nothing has taken, at most the activity of the reduce and
mending engines that their turns have not used. -/
def ballastOf (s : Part) : Nat :=
  if s.power.modeNow = 1 && pmBallast s.power.mode.toNat then
    min s.power.spare (tickPj (38 + 86) - (pwrClass 1 s).used - (pwrClass 2 s).used)
  else 0

/-- Ballast is counted in whole mJ (R467, R468). -/
def countBallast (s : Part) : Part :=
  let b := s.power.ballastPj + ballastOf s
  let s := onPower (fun p => { p with ballastPj := b % 10 ^ 9 }) s
  if 10 ^ 9 ≤ b then count 15 0 2 (b / 10 ^ 9) s else s

/-- Charge expedited traffic (step 1): what it has taken at level 0, where it is not paced; above that it is given (8 − L) ÷ 8 of its demand.
Answers the charge. -/
def chargeExpedited (s : Part) : Nat × Part :=
  let past := if s.power.expHeld.isNone then s.power.expUsed else 0
  let wait := expeditedDemand s
  if s.power.level = 0 then (past, onPower (fun p => { p with expUsed := 0, expHeld := none }) s)
  else
    let give := throttled s wait
    (past + give, onPower (fun p => { p with expUsed := 0, expHeld := some (if wait = 0 then 0 else p.expHeld.getD 0 + give) }) s)

/-- A class at a tick: what it is granted joins what it holds, which lapses where nothing waits; a tick that gives waiting work nothing defers it
(R456). Energy granted is counted in whole mJ. -/
def tickClass (c grant demand : Nat) (s : Part) : Part :=
  let x := pwrClass c s
  let late : Bool := decide (0 < demand) && grant = 0
  let total := x.granted + grant
  let y := { x with
    held := some ((if demand = 0 then 0 else x.held.getD 0) + grant), used := 0, granted := total % 10 ^ 9
    deferred := if !late then 0 else if x.used = 0 then x.deferred + 1 else 1 }
  let s := onPower (fun p => { p with classes := p.classes.mapIdx fun i x => if i = c then y else x }) s
  let s := if 10 ^ 9 ≤ total then count 15 c 0 (total / 10 ^ 9) s else s
  if (late : Bool) then count 15 c 1 1 s else s

/-- Divide the budget of a tick: expedited traffic and forced turns are charged first, then the classes receive their shares, and what is left is
there for turns that begin within the tick. -/
def divideTick (s : Part) : Part :=
  let demand := (List.range 16).map fun c => demandOf c s
  let s := countBallast s
  let (exp, s) := chargeExpedited s
  let b := tickBudget s
  let (shares, rest) := tickShares b (b - exp - s.power.owed) (fun c => demand.getD c 0) s
  let level := throttled s
  let s := (List.range 16).foldl (fun s c =>
    if c = 6 || c = 7 then s else tickClass c (level (shareOf c shares)) (demand.getD c 0) s) s
  onPower (fun p => { p with spare := level rest, owed := 0 }) s

/-- SCHEDULER_TICK with the input power that the controller has measured (R65, R451, R452, R454, R457). Contributions that a parent turned away
are sent again (R159; DESIGN CHOICE, log entry 29). -/
def schedulerTick (mw : Nat) (s : Part) : Part :=
  if !running s then s
  else
    let s := onPower (fun p => { p with ecoNow := if p.modeNow = 2 then p.eco.toNat else 0 }) (rampStep (ageNotices s))
    resendUps (divideTick (tickSample mw s))

/-- The energy of the next turn of a background class: of the step, page, line or test that it is, else of a tick of its work. -/
def turnEnergy (c : Nat) (s : Part) : Nat :=
  if demandOf c s = 0 then 0
  else
    match c with
    | 9 => retrainCost
    | 11 => pageCost
    | 13 => lineCost
    | 14 => testCost 64
    | _ => demandOf c s

/-- FORCED_RUN_DEFER (R456): a background class that has had demand and no energy for MAX_DEFER, 100 ticks a millisecond, is given the energy of
its next turn, which the next tick charges ahead of the minimum shares. `excess` is the number of 10 µs samples more than 8 % over the target that
the turn brings before that tick: in Iron they count in OVER (R467). -/
def forcedRun (c excess : Nat) (s : Part) : Part :=
  let e := turnEnergy c s
  if !running s || c < 8 || cwDefer (classWord c s) = 0 || (pwrClass c s).deferred < 100 * cwDefer (classWord c s) || e = 0 then s
  else
    let s := onPower (fun p =>
      { p with
        owed := p.owed + e
        overrun := if p.modeNow = 1 then min (p.overrun + excess) (2 ^ 26 - 1) else p.overrun
        classes := p.classes.mapIdx fun i x => if i = c then { x with held := some (x.held.getD 0 + e), granted := x.granted + e, deferred := 0 } else x }) s
    pwrEvent 5 c 0 (count 15 c 64 1 s)

end Sys2Proof.Machine
end

