-- ==== Sys2Proof/Machine/ExecPower.lean ====
section
/-!
DEFINITION. The commands of power, heat and clocks (chapter 15).
-/

namespace Sys2Proof.Machine

open Sys2Proof

/-- SENSOR_SAMPLE (R460). -/
def execSensorSample (readings : Sensors) (s : State) : Host.Outcome State Fault Refusal :=
  onPart (fun s => sensorSample readings s) s

/-- THROTTLE_BOUNDARY (R461). -/
def execThrottleBoundary (s : State) : Host.Outcome State Fault Refusal :=
  onPart (fun s => throttleBoundary s) s

/-- SCHEDULER_TICK (R454). -/
def execSchedulerTick (mw : Nat) (s : State) : Host.Outcome State Fault Refusal :=
  onPart (fun s => schedulerTick mw s) s

/-- FLOOR_RECOMPUTE (R449). -/
def execFloorRecompute (coreW : Nat) (s : State) : Host.Outcome State Fault Refusal :=
  onPart (fun s => floorRecompute coreW s) s

/-- IRON_SHORTFALL (R458). -/
def execIronShortfall (s : State) : Host.Outcome State Fault Refusal :=
  onPart (fun s => ironShortfall s) s

/-- FORCED_RUN_DEFER (R456). -/
def execForcedRunDefer (cls excess : Nat) (s : State) : Host.Outcome State Fault Refusal :=
  onPart (fun s => forcedRun cls excess s) s

/-- MODE_WRITE (R450). -/
def execModeWrite (view : Nat) (value : Word32) (s : State) : Host.Outcome State Fault Refusal :=
  onPart (fun s => atView view (regWrite .pwrMode view value.toNat) s) s

/-- PWR_EVENT_POP (R468). -/
def execPwrEventPop (view : Nat) (s : State) : Host.Outcome State Fault Refusal :=
  onPart (fun s => atView view (popEvent .pwr view) s) s

end Sys2Proof.Machine
end

