-- ==== Sys2Proof/Machine/ExecRecovery.lean ====
section
/-!
DEFINITION. The commands of failure and recovery (chapter 14).
-/

namespace Sys2Proof.Machine

open Sys2Proof

/-- EVENT_HEAD_LATCH (R528): CAT_EVENT_ADDR, FLT_EVENT_INFO, or word 0 of FLR_FAULT_ENTRY_g as 2 + g. -/
def latchFor (which view : Nat) (s : Part) : Part :=
  match which with
  | 0 => latchEvent .cat view s
  | 1 => latchEvent .flt view s
  | g + 2 => if g < 8 then latchFault view g s else s

/-- HOLD (R420). -/
def execHoldExtent (view : Nat) (cmd : Word64) (s : State) : Host.Outcome State Fault Refusal :=
  onPart (fun s => atView view (writeFlrCmd view (withOp 3 2 cmd)) s) s

/-- RELEASE_HOLD (R442). -/
def execReleaseHold (view : Nat) (cmd : Word64) (s : State) : Host.Outcome State Fault Refusal :=
  onPart (fun s => atView view (writeFlrCmd view (withOp 3 3 cmd)) s) s

/-- MIRROR_COPY (R427). -/
def execMirrorCopy (view : Nat) (cmd : Word64) (s : State) : Host.Outcome State Fault Refusal :=
  onPart (fun s => atView view (writeFlrCmd view (withOp 3 4 cmd)) s) s

/-- RESUME_TWIN (R428). -/
def execResumeTwin (view : Nat) (cmd : Word64) (s : State) : Host.Outcome State Fault Refusal :=
  onPart (fun s => atView view (writeFlrCmd view (withOp 3 5 cmd)) s) s

/-- BEGIN (R430). -/
def execBeginStandIn (view : Nat) (cmd : Word64) (s : State) : Host.Outcome State Fault Refusal :=
  onPart (fun s => atView view (writeFlrCmd view (withOp 3 6 cmd)) s) s

/-- SEND (R430). -/
def execSendExtents (view : Nat) (cmd : Word64) (s : State) : Host.Outcome State Fault Refusal :=
  onPart (fun s => atView view (writeFlrCmd view (withOp 3 7 cmd)) s) s

/-- ABANDON_TWIN (R434). -/
def execAbandonTwin (view : Nat) (cmd : Word64) (s : State) : Host.Outcome State Fault Refusal :=
  onPart (fun s => atView view (writeFlrCmd view (withOp 3 8 cmd)) s) s

/-- TAKE (R430). -/
def execTakeIdentity (view : Nat) (cmd : Word64) (s : State) : Host.Outcome State Fault Refusal :=
  onPart (fun s => atView view (writeFlrCmd view (withOp 3 9 cmd)) s) s

/-- ABORT_STANDIN (R442). -/
def execAbortStandin (view : Nat) (cmd : Word64) (s : State) : Host.Outcome State Fault Refusal :=
  onPart (fun s => atView view (writeFlrCmd view (withOp 3 10 cmd)) s) s

/-- UNQUARANTINE (R440). -/
def execUnquarantine (view : Nat) (cmd : Word64) (s : State) : Host.Outcome State Fault Refusal :=
  onPart (fun s => atView view (writeFlrCmd view (withOp 3 11 cmd)) s) s

/-- SELFTEST (R441). -/
def execSelftest (view : Nat) (cmd : Word64) (s : State) : Host.Outcome State Fault Refusal :=
  onPart (fun s => atView view (writeFlrCmd view (withOp 3 12 cmd)) s) s

/-- SYS_TWIN_WRITE (R427). -/
def execSysTwinWrite (view : Nat) (value : Word32) (s : State) : Host.Outcome State Fault Refusal :=
  onPart (fun s => atView view (regWrite .sysTwin view value.toNat) s) s

/-- SELFTEST_RUN (R441). -/
def execSelftestRun (engine : Nat) (wrong : Nat) (s : State) : Host.Outcome State Fault Refusal :=
  onPart (fun s => selftestRuns engine wrong s) s

/-- SPOT_CHECK (R438). -/
def execSpotCheck (engine : Nat) (other : Nat) (charged : List Nat) (s : State) : Host.Outcome State Fault Refusal :=
  onPart (fun s => spotCheck engine other charged s) s

/-- RE_DISABLE (R436). -/
def execReDisable (view : Nat) (engine : Nat) (s : State) : Host.Outcome State Fault Refusal :=
  onPart (fun s => atView view (forOne 64 engine (regWrite (.reCtrl engine) view 0)) s) s

/-- DRAIN_BOUND_EXPIRY (R436). -/
def execDrainBoundExpiry (target : DrainTarget) (s : State) : Host.Outcome State Fault Refusal :=
  onPart (fun s => drainBound target s) s

/-- FLR_EVENT_POP (R447). -/
def execFlrEventPop (view : Nat) (s : State) : Host.Outcome State Fault Refusal :=
  onPart (fun s => atView view (popEvent .flr view) s) s

/-- FAULT_QUEUE_POP (R446). -/
def execFaultQueuePop (view : Nat) (gallery : Nat) (s : State) : Host.Outcome State Fault Refusal :=
  onPart (fun s => atView view (forOne 8 gallery (popFault view gallery)) s) s

/-- EVENT_HEAD_LATCH (R528). -/
def execEventHeadLatch (view : Nat) (which : Nat) (s : State) : Host.Outcome State Fault Refusal :=
  onPart (fun s => atView view (latchFor which view) s) s

end Sys2Proof.Machine
end

