-- ==== Sys2Proof/Machine/ExecTelemetry.lean ====
section
/-!
DEFINITION. The commands of telemetry, and register writes at large (chapters 17 and 18).
-/

namespace Sys2Proof.Machine

open Sys2Proof

/-- TEL_CAT_QUERY (R520). -/
def execTelCatQuery (view : Nat) (id : Word32) (s : State) : Host.Outcome State Fault Refusal :=
  onPart (fun s => atView view (regWrite .telCat view id.toNat) s) s

/-- TEL_CLEAR (R508). -/
def execTelClear (view : Nat) (id : Word32) (s : State) : Host.Outcome State Fault Refusal :=
  onPart (fun s => atView view (regWrite .telClear view id.toNat) s) s

/-- CENSUS_START (R512). -/
def execCensusStart (view : Nat) (s : State) : Host.Outcome State Fault Refusal :=
  onPart (fun s => atView view (writeCensusCmd view 1) s) s

/-- CENSUS_GRANT (R512). -/
def execCensusGrant (s : State) : Host.Outcome State Fault Refusal :=
  onPart (fun s => censusGranted s) s

/-- CENSUS_CLOSE (R512). -/
def execCensusClose (s : State) : Host.Outcome State Fault Refusal :=
  onPart (fun s => censusCloses s) s

/-- TEL_EVENT_POP (R521). -/
def execTelEventPop (view : Nat) (s : State) : Host.Outcome State Fault Refusal :=
  onPart (fun s => atView view (popEvent .tel view) s) s

/-- REGISTER_WRITE (R525). -/
def execRegisterWrite (view : Nat) (offset : Nat) (size : Nat) (value : Word64) (s : State) : Host.Outcome State Fault Refusal :=
  onPart (fun s => atView view (writeReg view offset size value.toNat) s) s

end Sys2Proof.Machine
end

