-- ==== Sys2Proof/Machine/ExecTimers.lean ====
section
/-!
DEFINITION. The timers of ordering, tracking, loans and snoops (chapters 01 to 04).
-/

namespace Sys2Proof.Machine

open Sys2Proof

/-- RETRANSMIT_TIMER (R68): an ordered message that is still unacknowledged is sent again. -/
def retransmitDue (agent dst : Nat) (sseq : BitVec 24) (s : Part) : Part :=
  match (stream agent dst s).unacked.find? fun u => u.msg.sseq = sseq with
  | some u => retransmit agent dst u s
  | none => s

/-- Is it a recall notice that this part holds as its loan's pending notice? It is answered at step 7 of R33, however long the
recall takes, and R76 does not time it out. -/
def recallPends (m : Msg) (s : Part) : Bool :=
  m.op.toNat = 0x19 && (s.pool.loans.any fun p => p.2.notice = some m)

/-- COMPLETION_TIMEOUT (R75, R76, R95, R282): a request of this part completes with TIMEOUT, and a message that this part still holds
is discarded unperformed. -/
def completionExpires (part agent tag : Nat) (s : Part) : Part :=
  let s := discardHeld part agent tag s
  if part ≠ myPart s then s
  else
    match s.links.fences.find? fun f => f.agent = agent && f.msg.tag.toNat = tag with
    | some f => fenceTimeout f s
    | none =>
      match tget? s.links.tracked (trackKey agent tag) with
      | some t => if recallPends t.msg s then s else timeoutRequest agent t s
      | none => s

/-- STREAM_IDLE_EXPIRY (R70): a stream with nothing unacknowledged starts anew at SSEQ 0 with SYN; that it has carried ordered messages
since its last mark stays known (R74). A FENCE_MARK has no acknowledgement
and does not count: DEDUCED. -/
def streamIdle (agent dst : Nat) (s : Part) : Part :=
  let x := stream agent dst s
  if x.unacked.all fun u => u.msg.op = 0x11 then
    onLinks (fun l =>
      { l with streams :=
        if x.sinceMark then tset l.streams (streamKey agent dst) { SrcStream.start with sinceMark := true }
        else tdel l.streams (streamKey agent dst) }) s
  else s

/-- RESEQ_SLOT_IDLE (R70): the slots of a stream that hold nothing are freed. -/
def slotIdle (part agent : Nat) (s : Part) : Part :=
  let key := part * 512 + agent
  onLinks (fun l =>
    { l with reseq := l.reseq.filter fun p => !((p.1 = key || p.1 = key + 2 ^ 21) && p.2.held.isEmpty) }) s

/-- ATOMIC_CACHE_EXPIRY (R72). -/
def atomicExpires (part agent : Nat) (sseq : BitVec 24) (s : Part) : Part :=
  onLinks (fun l => { l with atomics := l.atomics.filter fun a => !(a.part = part && a.agent = agent && a.sseq = sseq) }) s

/-- TWIN_WRITE_TIMEOUT (R282, R428): a write-through that its twin has not answered in time. A SEND is watched by R434 instead. -/
def twinWriteExpires (agent tag : Nat) (s : Part) : Part :=
  match s.flr.throughs.find? fun w => w.agent = agent && w.tag.toNat = tag with
  | none => s
  | some w =>
    if w.kind = .send then s
    else throughAnswered agent tag stTimeout (if agent = agChu then chuThroughFails tag stTimeout s else s)

/-- RETRANSMIT_TIMER (R68). -/
def execRetransmitTimer (agent : Nat) (dst : Nat) (sseq : BitVec 24) (s : State) : Host.Outcome State Fault Refusal :=
  onPart (fun s => retransmitDue agent dst sseq s) s

/-- COMPLETION_TIMEOUT (R76). -/
def execCompletionTimeout (part : Nat) (agent : Nat) (tag : Nat) (s : State) : Host.Outcome State Fault Refusal :=
  onPart (fun s => completionExpires part agent tag s) s

/-- STREAM_IDLE_EXPIRY (R70). -/
def execStreamIdleExpiry (agent : Nat) (dst : Nat) (s : State) : Host.Outcome State Fault Refusal :=
  onPart (fun s => streamIdle agent dst s) s

/-- RESEQ_SLOT_IDLE (R70). -/
def execReseqSlotIdle (part : Nat) (agent : Nat) (s : State) : Host.Outcome State Fault Refusal :=
  onPart (fun s => slotIdle part agent s) s

/-- ATOMIC_CACHE_EXPIRY (R72). -/
def execAtomicCacheExpiry (part : Nat) (agent : Nat) (sseq : BitVec 24) (s : State) : Host.Outcome State Fault Refusal :=
  onPart (fun s => atomicExpires part agent sseq s) s

/-- LOAN_OFFER_EXPIRY (R29). -/
def execLoanOfferExpiry (loan : Nat) (s : State) : Host.Outcome State Fault Refusal :=
  onPart (fun s => offerExpires loan s) s

/-- RECALL_GRACE_EXPIRY (R34). -/
def execRecallGraceExpiry (loan : Nat) (s : State) : Host.Outcome State Fault Refusal :=
  onPart (fun s => graceExpires loan s) s

/-- RECALL_COPY_DONE (R33). -/
def execRecallCopyDone (ext : Nat) (bytes : List (List Byte)) (s : State) : Host.Outcome State Fault Refusal :=
  onPart (fun s => copyDone ext bytes s) s

/-- LENDER_READ_RETRY (R34). -/
def execLenderReadRetry (ext : Nat) (s : State) : Host.Outcome State Fault Refusal :=
  onPart (fun s => retryCopy ext s) s

/-- REVOKE_COMPLETE (R31, R340): a tier move that waited for the revocation switches. -/
def execRevokeComplete (ext : Nat) (s : State) : Host.Outcome State Fault Refusal :=
  onPart (fun s => switchReady (revokeCompletes ext s)) s

/-- CATALOGUE_INIT_DONE (R111). -/
def execCatalogueInitDone (ext : Nat) (s : State) : Host.Outcome State Fault Refusal :=
  onPart (fun s => catInitDone ext s) s

/-- REGION_DRAIN_END (R85). -/
def execRegionDrainEnd (view : Nat) (s : State) : Host.Outcome State Fault Refusal :=
  onPart (fun s => regionDrainEnd view s) s

/-- LEASE_SWEEP (R100). -/
def execLeaseSweep (s : State) : Host.Outcome State Fault Refusal :=
  onPart (fun s => leaseSweep s) s

/-- CATALOGUE_WALK_END (R142). -/
def execCatalogueWalkEnd (s : State) : Host.Outcome State Fault Refusal :=
  onPart (fun s => catWalkEnd s) s

/-- SNOOP_TIMEOUT (R136). -/
def execSnoopTimeout (line : Nat) (member : Nat) (s : State) : Host.Outcome State Fault Refusal :=
  onPart (fun s => snoopTimeout line member s) s

/-- TWIN_WRITE_TIMEOUT (R428). -/
def execTwinWriteTimeout (agent : Nat) (tag : Nat) (s : State) : Host.Outcome State Fault Refusal :=
  onPart (fun s => twinWriteExpires agent tag s) s

/-- SEND_STALL (R434). -/
def execSendStall (twin : Nat) (s : State) : Host.Outcome State Fault Refusal :=
  onPart (fun s => sendStalls twin s) s

end Sys2Proof.Machine
end

