-- ==== Sys2Proof/Machine/Dispatch.lean ====
section
/-!
DEFINITION. Dispatch: one arm for each command.
-/

namespace Sys2Proof.Machine

def exec (i : Instr) (s : State) : Host.Outcome State Fault Refusal :=
  match i with
  | .islandPowerUp => Sys2Proof.Machine.execIslandPowerUp s
  | .pwrgdRise env => Sys2Proof.Machine.execPwrgdRise env s
  | .resetNPulse env => Sys2Proof.Machine.execResetNPulse env s
  | .pwrgdFall => Sys2Proof.Machine.execPwrgdFall s
  | .vinUndervoltage => Sys2Proof.Machine.execVinUndervoltage s
  | .vinOvervoltage mv => Sys2Proof.Machine.execVinOvervoltage mv s
  | .aonClkLoss => Sys2Proof.Machine.execAonClkLoss s
  | .corePllLockRetry env => Sys2Proof.Machine.execCorePllLockRetry env s
  | .sdsRefclkLoss chiplet => Sys2Proof.Machine.execSdsRefclkLoss chiplet s
  | .npRefclkLoss => Sys2Proof.Machine.execNpRefclkLoss s
  | .hostRefclkLoss hp => Sys2Proof.Machine.execHostRefclkLoss hp s
  | .aux1v8Overload => Sys2Proof.Machine.execAux1v8Overload s
  | .aux1v8Restore => Sys2Proof.Machine.execAux1v8Restore s
  | .lockstepMismatch env => Sys2Proof.Machine.execLockstepMismatch env s
  | .curatorSramUe env => Sys2Proof.Machine.execCuratorSramUe env s
  | .heartbeatLost refclk => Sys2Proof.Machine.execHeartbeatLost refclk s
  | .internalMemoryUe mem => Sys2Proof.Machine.execInternalMemoryUe mem s
  | .fastReset view cmd => Sys2Proof.Machine.execFastReset view cmd s
  | .fastResetWatchdog env => Sys2Proof.Machine.execFastResetWatchdog env s
  | .resyncWindowEnd => Sys2Proof.Machine.execResyncWindowEnd s
  | .thermalTrip => Sys2Proof.Machine.execThermalTrip s
  | .sensorSample readings => Sys2Proof.Machine.execSensorSample readings s
  | .throttleBoundary => Sys2Proof.Machine.execThrottleBoundary s
  | .schedulerTick mw => Sys2Proof.Machine.execSchedulerTick mw s
  | .floorRecompute coreW => Sys2Proof.Machine.execFloorRecompute coreW s
  | .ironShortfall => Sys2Proof.Machine.execIronShortfall s
  | .forcedRunDefer cls excess => Sys2Proof.Machine.execForcedRunDefer cls excess s
  | .modeWrite view value => Sys2Proof.Machine.execModeWrite view value s
  | .pwrEventPop view => Sys2Proof.Machine.execPwrEventPop view s
  | .linkEnable fp => Sys2Proof.Machine.execLinkEnable fp s
  | .linkDisable fp => Sys2Proof.Machine.execLinkDisable fp s
  | .linkRetrain port => Sys2Proof.Machine.execLinkRetrain port s
  | .pmdTrained port => Sys2Proof.Machine.execPmdTrained port s
  | .trainTimeout port => Sys2Proof.Machine.execTrainTimeout port s
  | .trainRetry port => Sys2Proof.Machine.execTrainRetry port s
  | .pcsLocked port => Sys2Proof.Machine.execPcsLocked port s
  | .lockTimeout port => Sys2Proof.Machine.execLockTimeout port s
  | .xenusStartSet port => Sys2Proof.Machine.execXenusStartSet port s
  | .alignTimeout port => Sys2Proof.Machine.execAlignTimeout port s
  | .initFlit port flit => Sys2Proof.Machine.execInitFlit port flit s
  | .paramTimeout port => Sys2Proof.Machine.execParamTimeout port s
  | .dataFlit port flit => Sys2Proof.Machine.execDataFlit port flit s
  | .nullFlit port flit => Sys2Proof.Machine.execNullFlit port flit s
  | .ackDue port => Sys2Proof.Machine.execAckDue port s
  | .ackTimeout port => Sys2Proof.Machine.execAckTimeout port s
  | .retrainTimeout port => Sys2Proof.Machine.execRetrainTimeout port s
  | .stallTimerExpiry port vc => Sys2Proof.Machine.execStallTimerExpiry port vc s
  | .bufferAdmission port vc => Sys2Proof.Machine.execBufferAdmission port vc s
  | .policerRecolour port vc => Sys2Proof.Machine.execPolicerRecolour port vc s
  | .shaperConfigWrite view shaper value => Sys2Proof.Machine.execShaperConfigWrite view shaper value s
  | .policerConfigWrite view policer word value => Sys2Proof.Machine.execPolicerConfigWrite view policer word value s
  | .rdLine port m => Sys2Proof.Machine.execRdLine port m s
  | .wrLine port m => Sys2Proof.Machine.execWrLine port m s
  | .wrMasked port m => Sys2Proof.Machine.execWrMasked port m s
  | .atAdd port m => Sys2Proof.Machine.execAtAdd port m s
  | .atMin port m => Sys2Proof.Machine.execAtMin port m s
  | .atMax port m => Sys2Proof.Machine.execAtMax port m s
  | .atCas port m => Sys2Proof.Machine.execAtCas port m s
  | .fence port m => Sys2Proof.Machine.execFence port m s
  | .fenceMark port m => Sys2Proof.Machine.execFenceMark port m s
  | .loanOffer port m => Sys2Proof.Machine.execLoanOffer port m s
  | .loanOfferExpiry loan => Sys2Proof.Machine.execLoanOfferExpiry loan s
  | .loanRecall port m => Sys2Proof.Machine.execLoanRecall port m s
  | .contrib port m => Sys2Proof.Machine.execContrib port m s
  | .result port m => Sys2Proof.Machine.execResult port m s
  | .streamAttach port m => Sys2Proof.Machine.execStreamAttach port m s
  | .tile port m => Sys2Proof.Machine.execTile port m s
  | .windowCredit port m => Sys2Proof.Machine.execWindowCredit port m s
  | .gatherReq port m => Sys2Proof.Machine.execGatherReq port m s
  | .filterReq port m => Sys2Proof.Machine.execFilterReq port m s
  | .gatherData port m => Sys2Proof.Machine.execGatherData port m s
  | .filterData port m => Sys2Proof.Machine.execFilterData port m s
  | .cpl port m => Sys2Proof.Machine.execCpl port m s
  | .rdData port m => Sys2Proof.Machine.execRdData port m s
  | .atData port m => Sys2Proof.Machine.execAtData port m s
  | .loanReply port m => Sys2Proof.Machine.execLoanReply port m s
  | .faultNotice port m => Sys2Proof.Machine.execFaultNotice port m s
  | .rdShared port m => Sys2Proof.Machine.execRdShared port m s
  | .rdOwn port m => Sys2Proof.Machine.execRdOwn port m s
  | .upgrade port m => Sys2Proof.Machine.execUpgrade port m s
  | .wbDirty port m => Sys2Proof.Machine.execWbDirty port m s
  | .cmpAck port m => Sys2Proof.Machine.execCmpAck port m s
  | .snpShrFwd port m => Sys2Proof.Machine.execSnpShrFwd port m s
  | .snpInv port m => Sys2Proof.Machine.execSnpInv port m s
  | .snpInvFwd port m => Sys2Proof.Machine.execSnpInvFwd port m s
  | .snpNa port m => Sys2Proof.Machine.execSnpNa port m s
  | .snpRsp port m => Sys2Proof.Machine.execSnpRsp port m s
  | .catCmp port m => Sys2Proof.Machine.execCatCmp port m s
  | .dataS port m => Sys2Proof.Machine.execDataS port m s
  | .dataE port m => Sys2Proof.Machine.execDataE port m s
  | .dataM port m => Sys2Proof.Machine.execDataM port m s
  | .dataMAt port m => Sys2Proof.Machine.execDataMAt port m s
  | .snpData port m => Sys2Proof.Machine.execSnpData port m s
  | .twinEntry port m => Sys2Proof.Machine.execTwinEntry port m s
  | .twinCheck port m => Sys2Proof.Machine.execTwinCheck port m s
  | .twinSum port m => Sys2Proof.Machine.execTwinSum port m s
  | .mgmtReq port m => Sys2Proof.Machine.execMgmtReq port m s
  | .mgmtRsp port m => Sys2Proof.Machine.execMgmtRsp port m s
  | .telReq port m => Sys2Proof.Machine.execTelReq port m s
  | .telRsp port m => Sys2Proof.Machine.execTelRsp port m s
  | .retransmitTimer agent dst sseq => Sys2Proof.Machine.execRetransmitTimer agent dst sseq s
  | .completionTimeout part agent tag => Sys2Proof.Machine.execCompletionTimeout part agent tag s
  | .streamIdleExpiry agent dst => Sys2Proof.Machine.execStreamIdleExpiry agent dst s
  | .reseqSlotIdle part agent => Sys2Proof.Machine.execReseqSlotIdle part agent s
  | .atomicCacheExpiry part agent sseq => Sys2Proof.Machine.execAtomicCacheExpiry part agent sseq s
  | .revoke view cmd => Sys2Proof.Machine.execRevoke view cmd s
  | .revokeComplete ext => Sys2Proof.Machine.execRevokeComplete ext s
  | .moveOut view cmd => Sys2Proof.Machine.execMoveOut view cmd s
  | .forceRecall view cmd => Sys2Proof.Machine.execForceRecall view cmd s
  | .freeExtent view cmd => Sys2Proof.Machine.execFreeExtent view cmd s
  | .recallCopyDone ext bytes => Sys2Proof.Machine.execRecallCopyDone ext bytes s
  | .lenderReadRetry ext => Sys2Proof.Machine.execLenderReadRetry ext s
  | .recallGraceExpiry loan => Sys2Proof.Machine.execRecallGraceExpiry loan s
  | .tblRead view cmd => Sys2Proof.Machine.execTblRead view cmd s
  | .tblWrite view cmd => Sys2Proof.Machine.execTblWrite view cmd s
  | .catalogueInitDone ext => Sys2Proof.Machine.execCatalogueInitDone ext s
  | .acquireRegion view cmd => Sys2Proof.Machine.execAcquireRegion view cmd s
  | .releaseRegion view cmd => Sys2Proof.Machine.execReleaseRegion view cmd s
  | .orphanRegion view cmd => Sys2Proof.Machine.execOrphanRegion view cmd s
  | .regionDrainEnd view => Sys2Proof.Machine.execRegionDrainEnd view s
  | .openDraft view cmd => Sys2Proof.Machine.execOpenDraft view cmd s
  | .publish view cmd => Sys2Proof.Machine.execPublish view cmd s
  | .abortDraft view cmd => Sys2Proof.Machine.execAbortDraft view cmd s
  | .openRead view cmd => Sys2Proof.Machine.execOpenRead view cmd s
  | .closeRead view cmd => Sys2Proof.Machine.execCloseRead view cmd s
  | .renew view cmd => Sys2Proof.Machine.execRenew view cmd s
  | .reclaim view cmd => Sys2Proof.Machine.execReclaim view cmd s
  | .addSpare view cmd => Sys2Proof.Machine.execAddSpare view cmd s
  | .dropRegion view cmd => Sys2Proof.Machine.execDropRegion view cmd s
  | .leaseSweep => Sys2Proof.Machine.execLeaseSweep s
  | .regionEventPop view => Sys2Proof.Machine.execRegionEventPop view s
  | .setRegion view cmd => Sys2Proof.Machine.execSetRegion view cmd s
  | .clearRegion view cmd => Sys2Proof.Machine.execClearRegion view cmd s
  | .setMember view cmd => Sys2Proof.Machine.execSetMember view cmd s
  | .removeMember view cmd => Sys2Proof.Machine.execRemoveMember view cmd s
  | .hostLost view cmd => Sys2Proof.Machine.execHostLost view cmd s
  | .purgeExtent view cmd => Sys2Proof.Machine.execPurgeExtent view cmd s
  | .catalogueWalkEnd => Sys2Proof.Machine.execCatalogueWalkEnd s
  | .snoopTimeout line member => Sys2Proof.Machine.execSnoopTimeout line member s
  | .catEventPop view => Sys2Proof.Machine.execCatEventPop view s
  | .openContext view cmd => Sys2Proof.Machine.execOpenContext view cmd s
  | .closeContext view cmd => Sys2Proof.Machine.execCloseContext view cmd s
  | .contextAbort view cmd => Sys2Proof.Machine.execContextAbort view cmd s
  | .contextQuery view cmd => Sys2Proof.Machine.execContextQuery view cmd s
  | .ctxTimeout ctx => Sys2Proof.Machine.execCtxTimeout ctx s
  | .clvEventPop view => Sys2Proof.Machine.execClvEventPop view s
  | .gfuReadReturn unit tag => Sys2Proof.Machine.execGfuReadReturn unit tag s
  | .gfuRunLimitExpiry unit tag => Sys2Proof.Machine.execGfuRunLimitExpiry unit tag s
  | .gfuUnitDisable view unit => Sys2Proof.Machine.execGfuUnitDisable view unit s
  | .streamLoad view cmd => Sys2Proof.Machine.execStreamLoad view cmd s
  | .streamStart view cmd => Sys2Proof.Machine.execStreamStart view cmd s
  | .streamStop view cmd => Sys2Proof.Machine.execStreamStop view cmd s
  | .streamAbort view cmd => Sys2Proof.Machine.execStreamAbort view cmd s
  | .streamUnload view cmd => Sys2Proof.Machine.execStreamUnload view cmd s
  | .streamQuery view cmd => Sys2Proof.Machine.execStreamQuery view cmd s
  | .tileProductionStart stream => Sys2Proof.Machine.execTileProductionStart stream s
  | .tileHanded stream => Sys2Proof.Machine.execTileHanded stream s
  | .tileDeadline stream tile => Sys2Proof.Machine.execTileDeadline stream tile s
  | .memberStallTimer stream member => Sys2Proof.Machine.execMemberStallTimer stream member s
  | .strEventPop view => Sys2Proof.Machine.execStrEventPop view s
  | .foldTableLoad view cmd => Sys2Proof.Machine.execFoldTableLoad view cmd s
  | .foldTableDrop view cmd => Sys2Proof.Machine.execFoldTableDrop view cmd s
  | .foldSlotWaitEnd => Sys2Proof.Machine.execFoldSlotWaitEnd s
  | .foldSlotWaitTimeout => Sys2Proof.Machine.execFoldSlotWaitTimeout s
  | .jobStart view cmd => Sys2Proof.Machine.execJobStart view cmd s
  | .jobAbort view cmd => Sys2Proof.Machine.execJobAbort view cmd s
  | .jobQuery view cmd => Sys2Proof.Machine.execJobQuery view cmd s
  | .jobEnd job => Sys2Proof.Machine.execJobEnd job s
  | .cmpEventPop view => Sys2Proof.Machine.execCmpEventPop view s
  | .mendDisable view engine => Sys2Proof.Machine.execMendDisable view engine s
  | .submitCommand view cmd => Sys2Proof.Machine.execSubmitCommand view cmd s
  | .chuCancel view cmd => Sys2Proof.Machine.execChuCancel view cmd s
  | .chuQuery view cmd => Sys2Proof.Machine.execChuQuery view cmd s
  | .chuCommandStart unit => Sys2Proof.Machine.execChuCommandStart unit s
  | .chuCommandEnd unit => Sys2Proof.Machine.execChuCommandEnd unit s
  | .chuUnitDisable view unit => Sys2Proof.Machine.execChuUnitDisable view unit s
  | .chuEventPop view => Sys2Proof.Machine.execChuEventPop view s
  | .refreshDue channel => Sys2Proof.Machine.execRefreshDue channel s
  | .dramRetrainStep channel => Sys2Proof.Machine.execDramRetrainStep channel s
  | .subchannelLost channel => Sys2Proof.Machine.execSubchannelLost channel s
  | .fillStart view cmd => Sys2Proof.Machine.execFillStart view cmd s
  | .fillAbort view => Sys2Proof.Machine.execFillAbort view s
  | .fillEnd => Sys2Proof.Machine.execFillEnd s
  | .surveyStart view cmd => Sys2Proof.Machine.execSurveyStart view cmd s
  | .surveyAbort view => Sys2Proof.Machine.execSurveyAbort view s
  | .surveyEnd => Sys2Proof.Machine.execSurveyEnd s
  | .flipArm view value => Sys2Proof.Machine.execFlipArm view value s
  | .flipHitRead view => Sys2Proof.Machine.execFlipHitRead view s
  | .demote view cmd => Sys2Proof.Machine.execDemote view cmd s
  | .promote view cmd => Sys2Proof.Machine.execPromote view cmd s
  | .moveAbort view cmd => Sys2Proof.Machine.execMoveAbort view cmd s
  | .moveCopyDone move => Sys2Proof.Machine.execMoveCopyDone move s
  | .addRoom view cmd => Sys2Proof.Machine.execAddRoom view cmd s
  | .removeRoom view cmd => Sys2Proof.Machine.execRemoveRoom view cmd s
  | .removeRoomDone => Sys2Proof.Machine.execRemoveRoomDone s
  | .adopt view cmd => Sys2Proof.Machine.execAdopt view cmd s
  | .discardExtent view cmd => Sys2Proof.Machine.execDiscardExtent view cmd s
  | .enroll view cmd => Sys2Proof.Machine.execEnroll view cmd s
  | .enrollDone => Sys2Proof.Machine.execEnrollDone s
  | .pageStaged page bad => Sys2Proof.Machine.execPageStaged page bad s
  | .nvmeCompletion drive cid status => Sys2Proof.Machine.execNvmeCompletion drive cid status s
  | .nvmeTimeout drive cid => Sys2Proof.Machine.execNvmeTimeout drive cid s
  | .nvmeAbortTimeout drive cid => Sys2Proof.Machine.execNvmeAbortTimeout drive cid s
  | .smartPoll drive critical percent => Sys2Proof.Machine.execSmartPoll drive critical percent s
  | .nvmeAsyncEvent drive critical zones => Sys2Proof.Machine.execNvmeAsyncEvent drive critical zones s
  | .driveLinkDown drive => Sys2Proof.Machine.execDriveLinkDown drive s
  | .driveReady drive info => Sys2Proof.Machine.execDriveReady drive info s
  | .zoneReset drive zone => Sys2Proof.Machine.execZoneReset drive zone s
  | .driveInserted drive => Sys2Proof.Machine.execDriveInserted drive s
  | .npPerstRelease drive => Sys2Proof.Machine.execNpPerstRelease drive s
  | .driveRemoved drive => Sys2Proof.Machine.execDriveRemoved drive s
  | .fltEventPop view => Sys2Proof.Machine.execFltEventPop view s
  | .disableGallery view cmd => Sys2Proof.Machine.execDisableGallery view cmd s
  | .enableGallery view cmd => Sys2Proof.Machine.execEnableGallery view cmd s
  | .rinse view cmd => Sys2Proof.Machine.execRinse view cmd s
  | .rinseAll view cmd => Sys2Proof.Machine.execRinseAll view cmd s
  | .rinseDeferredStart => Sys2Proof.Machine.execRinseDeferredStart s
  | .rinseComplete gallery => Sys2Proof.Machine.execRinseComplete gallery s
  | .galleryDrainEnd gallery => Sys2Proof.Machine.execGalleryDrainEnd gallery s
  | .enterVitrine view cmd => Sys2Proof.Machine.execEnterVitrine view cmd s
  | .sealBinding view cmd => Sys2Proof.Machine.execSealBinding view cmd s
  | .unbindEntry view cmd => Sys2Proof.Machine.execUnbindEntry view cmd s
  | .keyInstall chan payload => Sys2Proof.Machine.execKeyInstall chan payload s
  | .rotate chan payload => Sys2Proof.Machine.execRotate chan payload s
  | .collectionLoad chan payload => Sys2Proof.Machine.execCollectionLoad chan payload s
  | .bindObject chan payload => Sys2Proof.Machine.execBindObject chan payload s
  | .reencryptPage page => Sys2Proof.Machine.execReencryptPage page s
  | .galPortWrite view reg value => Sys2Proof.Machine.execGalPortWrite view reg value s
  | .galEventPop view => Sys2Proof.Machine.execGalEventPop view s
  | .holdExtent view cmd => Sys2Proof.Machine.execHoldExtent view cmd s
  | .releaseHold view cmd => Sys2Proof.Machine.execReleaseHold view cmd s
  | .mirrorCopy view cmd => Sys2Proof.Machine.execMirrorCopy view cmd s
  | .sysTwinWrite view value => Sys2Proof.Machine.execSysTwinWrite view value s
  | .resumeTwin view cmd => Sys2Proof.Machine.execResumeTwin view cmd s
  | .twinWriteTimeout agent tag => Sys2Proof.Machine.execTwinWriteTimeout agent tag s
  | .beginStandIn view cmd => Sys2Proof.Machine.execBeginStandIn view cmd s
  | .sendExtents view cmd => Sys2Proof.Machine.execSendExtents view cmd s
  | .sendStall twin => Sys2Proof.Machine.execSendStall twin s
  | .abandonTwin view cmd => Sys2Proof.Machine.execAbandonTwin view cmd s
  | .takeIdentity view cmd => Sys2Proof.Machine.execTakeIdentity view cmd s
  | .abortStandin view cmd => Sys2Proof.Machine.execAbortStandin view cmd s
  | .unquarantine view cmd => Sys2Proof.Machine.execUnquarantine view cmd s
  | .selftest view cmd => Sys2Proof.Machine.execSelftest view cmd s
  | .selftestRun engine wrong => Sys2Proof.Machine.execSelftestRun engine wrong s
  | .spotCheck engine other charged => Sys2Proof.Machine.execSpotCheck engine other charged s
  | .reDisable view engine => Sys2Proof.Machine.execReDisable view engine s
  | .drainBoundExpiry target => Sys2Proof.Machine.execDrainBoundExpiry target s
  | .hostPortReset hp kind => Sys2Proof.Machine.execHostPortReset hp kind s
  | .functionDrainExpiry hp => Sys2Proof.Machine.execFunctionDrainExpiry hp s
  | .flrEventPop view => Sys2Proof.Machine.execFlrEventPop view s
  | .faultQueuePop view gallery => Sys2Proof.Machine.execFaultQueuePop view gallery s
  | .eventHeadLatch view which => Sys2Proof.Machine.execEventHeadLatch view which s
  | .getInfo chan payload => Sys2Proof.Machine.execGetInfo chan payload s
  | .updateBegin chan payload => Sys2Proof.Machine.execUpdateBegin chan payload s
  | .updateWrite chan payload => Sys2Proof.Machine.execUpdateWrite chan payload s
  | .updateVerify chan payload => Sys2Proof.Machine.execUpdateVerify chan payload s
  | .updateActivate chan payload => Sys2Proof.Machine.execUpdateActivate chan payload s
  | .updateStatus chan payload => Sys2Proof.Machine.execUpdateStatus chan payload s
  | .updateConfirm chan payload => Sys2Proof.Machine.execUpdateConfirm chan payload s
  | .updateAbort chan payload => Sys2Proof.Machine.execUpdateAbort chan payload s
  | .configRead chan payload => Sys2Proof.Machine.execConfigRead chan payload s
  | .configWrite chan payload => Sys2Proof.Machine.execConfigWrite chan payload s
  | .daybookRead chan payload => Sys2Proof.Machine.execDaybookRead chan payload s
  | .measureExtend chan payload => Sys2Proof.Machine.execMeasureExtend chan payload s
  | .coldReset chan payload => Sys2Proof.Machine.execColdReset chan payload s
  | .coldResetExpiry env => Sys2Proof.Machine.execColdResetExpiry env s
  | .norStepEnd => Sys2Proof.Machine.execNorStepEnd s
  | .getVersion chan req => Sys2Proof.Machine.execGetVersion chan req s
  | .getCapabilities chan req => Sys2Proof.Machine.execGetCapabilities chan req s
  | .negotiateAlgorithms chan req => Sys2Proof.Machine.execNegotiateAlgorithms chan req s
  | .getDigests chan req => Sys2Proof.Machine.execGetDigests chan req s
  | .getCertificate chan req => Sys2Proof.Machine.execGetCertificate chan req s
  | .challenge chan req => Sys2Proof.Machine.execChallenge chan req s
  | .getMeasurements chan req => Sys2Proof.Machine.execGetMeasurements chan req s
  | .spdmUnsupportedRequest chan req => Sys2Proof.Machine.execSpdmUnsupportedRequest chan req s
  | .poolWindowRead hp offset length => Sys2Proof.Machine.execPoolWindowRead hp offset length s
  | .poolWindowWrite hp offset data enables => Sys2Proof.Machine.execPoolWindowWrite hp offset data enables s
  | .poolWindowAtomic hp kind offset data => Sys2Proof.Machine.execPoolWindowAtomic hp kind offset data s
  | .corePoolAccess kind offset data => Sys2Proof.Machine.execCorePoolAccess kind offset data s
  | .coreCacheUe unit line dirty => Sys2Proof.Machine.execCoreCacheUe unit line dirty s
  | .apcHwErrorRead view => Sys2Proof.Machine.execApcHwErrorRead view s
  | .daybookFlush => Sys2Proof.Machine.execDaybookFlush s
  | .telCatQuery view id => Sys2Proof.Machine.execTelCatQuery view id s
  | .telClear view id => Sys2Proof.Machine.execTelClear view id s
  | .censusStart view => Sys2Proof.Machine.execCensusStart view s
  | .censusGrant => Sys2Proof.Machine.execCensusGrant s
  | .censusClose => Sys2Proof.Machine.execCensusClose s
  | .telEventPop view => Sys2Proof.Machine.execTelEventPop view s
  | .registerWrite view offset size value => Sys2Proof.Machine.execRegisterWrite view offset size value s
  | .cellTime => Sys2Proof.Machine.execCellTime s
  | .messageStart port => Sys2Proof.Machine.execMessageStart port s
  | .lockLost port => Sys2Proof.Machine.execLockLost port s
  | .jtagInstruction code => Sys2Proof.Machine.execJtagInstruction code s
  | .islandPowerLoss => Sys2Proof.Machine.execIslandPowerLoss s
  | .vin48Reaches39v env => Sys2Proof.Machine.execVin48Reaches39v env s
  | .perstDeassert hp => Sys2Proof.Machine.execPerstDeassert hp s
  | .npRefclkReturn => Sys2Proof.Machine.execNpRefclkReturn s

end Sys2Proof.Machine
end

