-- ==== Sys2Proof/WellFormed.lean ====
section
/-!
DEFINITION. Which commands are well formed: every operand within what the part has (ports, queues, units, tables) and every message
and flit of its length. The rest of the model asks for nothing here: an operand out of range names nothing, and changes nothing.
-/

namespace Sys2Proof

open Machine

/-- A message of a row's opcode: its LEN suits the opcode, its virtual channel is one of the opcode's class (R52, R60), and only the
fields of its header form are used (R55, R56). -/
def msgFits (op : Nat) (m : Msg) : Bool :=
  m.op.toNat = op && lenSuits op m.len.toNat m.oparg.toNat && onWire m && opClass op = some (vcClass m.vc.toNat)

/-- A board as a boot finds it: 24 channels, two host ports, eight drives, two straps (R1, R296, R551). -/
def envFits (env : BootEnv) : Bool :=
  env.modules.length = 24 && env.perst.length = 2 && env.drives.length = 8 && env.straps < 4

/-- A sensor sample (R460, R519): no more readings than there are sensors. -/
def sensorsFit (r : Sensors) : Bool :=
  r.temps.length ≤ 64 && r.invalid.length ≤ 64 && r.volts.length ≤ 32 && r.modules.length ≤ 24

/-- An on-die memory that exists (R319). -/
def sramFits : SramUe → Bool
  | .tables => true
  | .cellPayload port vc => port ≤ 256 && vc < 8
  | .cellMetadata => true
  | .retention _ => true
  | .reduction ctx chunk => ctx < 4096 && chunk < 2 ^ 20
  | .mending stream _ => stream < 256

/-- Something that can be disabled with work in flight (R436). -/
def targetFits : DrainTarget → Bool
  | .gallery g => g < 8
  | .context c => c < 4096
  | .stream n => n < 256
  | .gfuUnit n => n < 32
  | .reduceEngine n => n < 64
  | .mendEngine n => n < 16
  | .channelUnit n => n < 24
  | .function hp => hp < 2

/-- A drive as it reports itself (R325, R330, R345): two journal zones, their blocks of at most 4,096 bytes, lines of 128. -/
def driveFits (info : DriveInfo) : Bool :=
  info.percent < 256 && info.journal.length = 2 && info.journal.all (fun z => z.all fun b => b.length ≤ 4096) &&
  info.contents.all fun c => c.2.1.length = 128

/-- A core access (R498, R499): within one line, and an atomic of 4 or 8 aligned bytes. -/
def accessFits (kind : CoreAccess) (offset : Nat) (data : List Byte) : Bool :=
  match kind with
  | .writeBack | .fence => true
  | .load | .store => 0 < data.length && offset % 128 + data.length ≤ 128
  | .add => (data.length = 4 || data.length = 8) && offset % data.length = 0
  | .cas => (data.length = 8 || data.length = 16) && offset % (data.length / 2) = 0

/-- Is the command well formed? -/
def wellFormed : Instr → Bool
  | .islandPowerUp => true
  | .pwrgdRise env => envFits env
  | .resetNPulse env => envFits env
  | .pwrgdFall => true
  | .vinUndervoltage => true
  | .vinOvervoltage mv => mv < 2 ^ 17
  | .aonClkLoss => true
  | .corePllLockRetry env => envFits env
  | .sdsRefclkLoss chiplet => chiplet < 4
  | .npRefclkLoss => true
  | .hostRefclkLoss hp => hp < 2
  | .aux1v8Overload => true
  | .aux1v8Restore => true
  | .lockstepMismatch env => envFits env
  | .curatorSramUe env => envFits env
  | .heartbeatLost _ => true
  | .internalMemoryUe mem => sramFits mem
  | .fastReset view _ => view < 4
  | .fastResetWatchdog env => envFits env
  | .resyncWindowEnd => true
  | .thermalTrip => true
  | .sensorSample readings => sensorsFit readings
  | .throttleBoundary => true
  | .schedulerTick mw => mw < 2 ^ 21
  | .floorRecompute _ => true
  | .ironShortfall => true
  | .forcedRunDefer cls excess => cls < 16 && excess < 2 ^ 26
  | .modeWrite view _ => view < 4
  | .pwrEventPop view => view < 4
  | .linkEnable fp => fp < 128
  | .linkDisable fp => fp < 128
  | .linkRetrain port => port < 256
  | .pmdTrained port => port < 256
  | .trainTimeout port => port < 256
  | .trainRetry port => port < 256
  | .pcsLocked port => port < 256
  | .lockTimeout port => port < 256
  | .xenusStartSet port => port < 256
  | .alignTimeout port => port < 256
  | .initFlit port flit => port < 256 && flit.length = 256
  | .paramTimeout port => port < 256
  | .dataFlit port flit => port < 256 && flit.length = 256
  | .nullFlit port flit => port < 256 && flit.length = 256
  | .ackDue port => port < 256
  | .ackTimeout port => port < 256
  | .retrainTimeout port => port < 256
  | .stallTimerExpiry port vc => port < 256 && vc < 8
  | .bufferAdmission port vc => port < 768 && vc < 8
  | .policerRecolour port vc => port < 256 && vc < 8
  | .shaperConfigWrite view shaper _ => view < 4 && shaper < 512
  | .policerConfigWrite view policer word _ => view < 4 && policer < 1024 && word < 2
  | .rdLine port m => port < 256 && msgFits 0x01 m
  | .wrLine port m => port < 256 && msgFits 0x03 m
  | .wrMasked port m => port < 256 && msgFits 0x04 m
  | .atAdd port m => port < 256 && msgFits 0x08 m
  | .atMin port m => port < 256 && msgFits 0x09 m
  | .atMax port m => port < 256 && msgFits 0x0A m
  | .atCas port m => port < 256 && msgFits 0x0B m
  | .fence port m => port < 256 && msgFits 0x10 m
  | .fenceMark port m => port < 256 && msgFits 0x11 m
  | .loanOffer port m => port < 256 && msgFits 0x18 m
  | .loanOfferExpiry loan => loan < 4096
  | .loanRecall port m => port < 256 && msgFits 0x19 m
  | .contrib port m => port < 256 && msgFits 0x40 m
  | .result port m => port < 256 && msgFits 0x41 m
  | .streamAttach port m => port < 256 && msgFits 0x48 m
  | .tile port m => port < 256 && msgFits 0x49 m
  | .windowCredit port m => port < 256 && msgFits 0x4A m
  | .gatherReq port m => port < 256 && msgFits 0x50 m
  | .filterReq port m => port < 256 && msgFits 0x52 m
  | .gatherData port m => port < 256 && msgFits 0x51 m
  | .filterData port m => port < 256 && msgFits 0x53 m
  | .cpl port m => port < 256 && msgFits 0x80 m
  | .rdData port m => port < 256 && msgFits 0x81 m
  | .atData port m => port < 256 && msgFits 0x82 m
  | .loanReply port m => port < 256 && msgFits 0x83 m
  | .faultNotice port m => port < 256 && msgFits 0x8F m
  | .rdShared port m => port < 256 && msgFits 0x20 m
  | .rdOwn port m => port < 256 && msgFits 0x21 m
  | .upgrade port m => port < 256 && msgFits 0x22 m
  | .wbDirty port m => port < 256 && msgFits 0x23 m
  | .cmpAck port m => port < 256 && msgFits 0x32 m
  | .snpShrFwd port m => port < 256 && msgFits 0x28 m
  | .snpInv port m => port < 256 && msgFits 0x29 m
  | .snpInvFwd port m => port < 256 && msgFits 0x2A m
  | .snpNa port m => port < 256 && msgFits 0x2B m
  | .snpRsp port m => port < 256 && msgFits 0x30 m
  | .catCmp port m => port < 256 && msgFits 0x31 m
  | .dataS port m => port < 256 && msgFits 0x38 m
  | .dataE port m => port < 256 && msgFits 0x39 m
  | .dataM port m => port < 256 && msgFits 0x3A m
  | .dataMAt port m => port < 256 && msgFits 0x3B m
  | .snpData port m => port < 256 && msgFits 0x3C m
  | .twinEntry port m => port < 256 && msgFits 0x60 m
  | .twinCheck port m => port < 256 && msgFits 0x61 m
  | .twinSum port m => port < 256 && msgFits 0x62 m
  | .mgmtReq port m => port < 256 && msgFits 0x70 m
  | .mgmtRsp port m => port < 256 && msgFits 0x71 m
  | .telReq port m => port < 256 && msgFits 0x74 m
  | .telRsp port m => port < 256 && msgFits 0x75 m
  | .retransmitTimer agent dst _ => agent < 512 && dst < 4096
  | .completionTimeout part agent tag => part < 4096 && agent < 512 && tag < 65536
  | .streamIdleExpiry agent dst => agent < 512 && dst < 4096
  | .reseqSlotIdle part agent => part < 4096 && agent < 512
  | .atomicCacheExpiry part agent _ => part < 4096 && agent < 512
  | .revoke view _ => view < 4
  | .revokeComplete ext => ext < 262144
  | .moveOut view _ => view < 4
  | .forceRecall view _ => view < 4
  | .freeExtent view _ => view < 4
  | .recallCopyDone ext bytes => ext < 262144 && bytes.all (fun b => b.length = 128)
  | .lenderReadRetry ext => ext < 262144
  | .recallGraceExpiry loan => loan < 4096
  | .tblRead view _ => view < 4
  | .tblWrite view _ => view < 4
  | .catalogueInitDone ext => ext < 262144
  | .acquireRegion view _ => view < 4
  | .releaseRegion view _ => view < 4
  | .orphanRegion view _ => view < 4
  | .regionDrainEnd view => view < 4
  | .openDraft view _ => view < 4
  | .publish view _ => view < 4
  | .abortDraft view _ => view < 4
  | .openRead view _ => view < 4
  | .closeRead view _ => view < 4
  | .renew view _ => view < 4
  | .reclaim view _ => view < 4
  | .addSpare view _ => view < 4
  | .dropRegion view _ => view < 4
  | .leaseSweep => true
  | .regionEventPop view => view < 4
  | .setRegion view _ => view < 4
  | .clearRegion view _ => view < 4
  | .setMember view _ => view < 4
  | .removeMember view _ => view < 4
  | .hostLost view _ => view < 4
  | .purgeExtent view _ => view < 4
  | .catalogueWalkEnd => true
  | .snoopTimeout line member => line < 2 ^ 51 && member < 64
  | .catEventPop view => view < 4
  | .openContext view _ => view < 4
  | .closeContext view _ => view < 4
  | .contextAbort view _ => view < 4
  | .contextQuery view _ => view < 4
  | .ctxTimeout ctx => ctx < 4096
  | .clvEventPop view => view < 4
  | .gfuReadReturn unit tag => unit < 32 && tag < 65536
  | .gfuRunLimitExpiry unit tag => unit < 32 && tag < 65536
  | .gfuUnitDisable view unit => view < 4 && unit < 32
  | .streamLoad view _ => view < 4
  | .streamStart view _ => view < 4
  | .streamStop view _ => view < 4
  | .streamAbort view _ => view < 4
  | .streamUnload view _ => view < 4
  | .streamQuery view _ => view < 4
  | .tileProductionStart stream => stream < 256
  | .tileHanded stream => stream < 256
  | .tileDeadline stream tile => stream < 256 && tile < 2 ^ 24
  | .memberStallTimer stream member => stream < 256 && member < 64
  | .strEventPop view => view < 4
  | .foldTableLoad view _ => view < 4
  | .foldTableDrop view _ => view < 4
  | .foldSlotWaitEnd => true
  | .foldSlotWaitTimeout => true
  | .jobStart view _ => view < 4
  | .jobAbort view _ => view < 4
  | .jobQuery view _ => view < 4
  | .jobEnd job => job < 64
  | .cmpEventPop view => view < 4
  | .mendDisable view engine => view < 4 && engine < 16
  | .submitCommand view _ => view < 4
  | .chuCancel view _ => view < 4
  | .chuQuery view _ => view < 4
  | .chuCommandStart unit => unit < 24
  | .chuCommandEnd unit => unit < 24
  | .chuUnitDisable view unit => view < 4 && unit < 24
  | .chuEventPop view => view < 4
  | .refreshDue channel => channel < 24
  | .dramRetrainStep channel => channel < 24
  | .subchannelLost channel => channel < 24
  | .fillStart view _ => view < 4
  | .fillAbort view => view < 4
  | .fillEnd => true
  | .surveyStart view _ => view < 4
  | .surveyAbort view => view < 4
  | .surveyEnd => true
  | .flipArm view _ => view < 4
  | .flipHitRead view => view < 4
  | .demote view _ => view < 4
  | .promote view _ => view < 4
  | .moveAbort view _ => view < 4
  | .moveCopyDone move => move < 64
  | .addRoom view _ => view < 4
  | .removeRoom view _ => view < 4
  | .removeRoomDone => true
  | .adopt view _ => view < 4
  | .discardExtent view _ => view < 4
  | .enroll view _ => view < 4
  | .enrollDone => true
  | .pageStaged page _ => page < 2 ^ 42
  | .nvmeCompletion drive cid status => drive < 8 && cid < 65536 && status < 32768
  | .nvmeTimeout drive cid => drive < 8 && cid < 65536
  | .nvmeAbortTimeout drive cid => drive < 8 && cid < 65536
  | .smartPoll drive critical percent => drive < 8 && critical < 256 && percent < 256
  | .nvmeAsyncEvent drive critical _ => drive < 8 && critical < 256
  | .driveLinkDown drive => drive < 8
  | .driveReady drive info => drive < 8 && driveFits info
  | .zoneReset drive zone => drive < 8 && zone < 2 ^ 16
  | .driveInserted drive => drive < 8
  | .npPerstRelease drive => drive < 8
  | .driveRemoved drive => drive < 8
  | .fltEventPop view => view < 4
  | .disableGallery view _ => view < 4
  | .enableGallery view _ => view < 4
  | .rinse view _ => view < 4
  | .rinseAll view _ => view < 4
  | .rinseDeferredStart => true
  | .rinseComplete gallery => gallery < 8
  | .galleryDrainEnd gallery => gallery < 8
  | .enterVitrine view _ => view < 4
  | .sealBinding view _ => view < 4
  | .unbindEntry view _ => view < 4
  | .keyInstall chan payload => chan < 3 && payload.length ≤ 4080
  | .rotate chan payload => chan < 3 && payload.length ≤ 4080
  | .collectionLoad chan payload => chan < 3 && payload.length ≤ 4080
  | .bindObject chan payload => chan < 3 && payload.length ≤ 4080
  | .reencryptPage page => page < 2 ^ 42
  | .galPortWrite view reg _ => view < 4 && reg < 32
  | .galEventPop view => view < 4
  | .holdExtent view _ => view < 4
  | .releaseHold view _ => view < 4
  | .mirrorCopy view _ => view < 4
  | .sysTwinWrite view _ => view < 4
  | .resumeTwin view _ => view < 4
  | .twinWriteTimeout agent tag => agent < 512 && tag < 65536
  | .beginStandIn view _ => view < 4
  | .sendExtents view _ => view < 4
  | .sendStall twin => twin < 4096
  | .abandonTwin view _ => view < 4
  | .takeIdentity view _ => view < 4
  | .abortStandin view _ => view < 4
  | .unquarantine view _ => view < 4
  | .selftest view _ => view < 4
  | .selftestRun engine wrong => engine < 80 && wrong ≤ 3
  | .spotCheck engine other charged => engine < 80 && other < 80 && charged.all (fun e => e < 80)
  | .reDisable view engine => view < 4 && engine < 64
  | .drainBoundExpiry target => targetFits target
  | .hostPortReset hp kind => hp < 2 && kind < 5
  | .functionDrainExpiry hp => hp < 2
  | .flrEventPop view => view < 4
  | .faultQueuePop view gallery => view < 4 && gallery < 8
  | .eventHeadLatch view which => view < 4 && which < 10
  | .getInfo chan payload => chan < 3 && payload.length ≤ 4080
  | .updateBegin chan payload => chan < 3 && payload.length ≤ 4080
  | .updateWrite chan payload => chan < 3 && payload.length ≤ 4080
  | .updateVerify chan payload => chan < 3 && payload.length ≤ 4080
  | .updateActivate chan payload => chan < 3 && payload.length ≤ 4080
  | .updateStatus chan payload => chan < 3 && payload.length ≤ 4080
  | .updateConfirm chan payload => chan < 3 && payload.length ≤ 4080
  | .updateAbort chan payload => chan < 3 && payload.length ≤ 4080
  | .configRead chan payload => chan < 3 && payload.length ≤ 4080
  | .configWrite chan payload => chan < 3 && payload.length ≤ 4080
  | .daybookRead chan payload => chan < 3 && payload.length ≤ 4080
  | .measureExtend chan payload => chan < 3 && payload.length ≤ 4080
  | .coldReset chan payload => chan < 3 && payload.length ≤ 4080
  | .coldResetExpiry env => envFits env
  | .norStepEnd => true
  | .getVersion chan req => chan < 3 && 4 ≤ req.length
  | .getCapabilities chan req => chan < 3 && 4 ≤ req.length
  | .negotiateAlgorithms chan req => chan < 3 && 4 ≤ req.length
  | .getDigests chan req => chan < 3 && 4 ≤ req.length
  | .getCertificate chan req => chan < 3 && 4 ≤ req.length
  | .challenge chan req => chan < 3 && 4 ≤ req.length
  | .getMeasurements chan req => chan < 3 && 4 ≤ req.length
  | .spdmUnsupportedRequest chan req => chan < 3 && 4 ≤ req.length
  | .poolWindowRead hp offset length => hp < 2 && 0 < length && offset % 4096 + length ≤ 4096
  | .poolWindowWrite hp offset data enables => hp < 2 && 0 < data.length && offset % 4096 + data.length ≤ 4096 && enables.length = data.length
  | .poolWindowAtomic hp kind _ data => hp < 2 && kind < 3 && (data.length / (if kind = 2 then 2 else 1)) ∈ [4, 8, 16]
  | .corePoolAccess kind offset data => accessFits kind offset data
  | .coreCacheUe unit line _ => 1 ≤ unit && unit ≤ 17 && line < 2 ^ 51
  | .apcHwErrorRead view => view < 4
  | .daybookFlush => true
  | .telCatQuery view _ => view < 4
  | .telClear view _ => view < 4
  | .censusStart view => view < 4
  | .censusGrant => true
  | .censusClose => true
  | .telEventPop view => view < 4
  | .registerWrite view offset size _ => view < 4 && offset < 2 ^ 26 && 0 < size && size ≤ 8
  | .cellTime => true
  | .messageStart port => port < 256
  | .lockLost port => port < 256
  | .jtagInstruction code => code < 32
  | .islandPowerLoss => true
  | .vin48Reaches39v env => envFits env
  | .perstDeassert hp => hp < 2
  | .npRefclkReturn => true

end Sys2Proof
end

