-- ==== Sys2Proof/Safety.lean ====
section
/-!
DEFINITION. The terms in which claims about the machine are made: when a register command can be performed at once, how the part
stands once its sequence has taken it, and the invariants of the part.
-/

namespace Sys2Proof.Machine

open Sys2Proof

/-- Nothing follows of itself: no message of the part's own waits, and no block has work that needs no further event. -/
def atRest (p : Part) : Prop := firstPump (pumps p) p = none

/-- A view can give a command of this sequence, and the sequence stands idle (R526, R527, R533): the view's agent can reach the
registers, the block is in service, the view is not BUSY, and no command runs or waits. -/
def canCommand (q : SeqName) (view : Nat) (p : Part) : Prop :=
  view < 4 ∧ viewOpen view p = true ∧ blockReady (seqBlock q) p = true ∧ (seqOf q p).busy.getD view false = false ∧
  (seqOf q p).running = none ∧ (seqOf q p).waiting = []

/-- The part once the sequence has taken a view's command (R527): the view is BUSY, the command runs, and it has been counted. -/
def took (q : SeqName) (view : Nat) (p : Part) : Part :=
  let p := countCommand (seqBlock q) p
  setSeq q { seqOf q p with busy := vset (seqOf q p).busy view true, waiting := [], running := some view } p

/-- The state after a command whose own effect leaves this part: what follows of itself has been done, and no command has been taken
from the queue or added to it. -/
def settled (s : State) (p : Part) : State := { s with part := settle p }

/-- The regions that are recorded as waiting for a page are those that do wait for one (R95). -/
def starvedNoted (p : Part) : Prop := p.regions.starved = starvedRegions p

/-- The memory of the pool is in its canonical form. -/
def memoryCanonical (p : Part) : Prop := p.dram.memory.wf = true

/-- A table of codewords of which none begins another, so that a bit string can be read in one way only. -/
def prefixFree (book : List (Nat × Nat × Nat)) : Prop :=
  book.Pairwise fun a b => ¬ (bitsMsb a.2.1 a.2.2 <+: bitsMsb b.2.1 b.2.2) ∧ ¬ (bitsMsb b.2.1 b.2.2 <+: bitsMsb a.2.1 a.2.2)

/-- Is the command the read of the event register of that queue by that view (R528)? -/
def popRow (q : QueueName) (view : Nat) (c : Instr) : Prop :=
  match q with
  | .region => c = .regionEventPop view
  | .cat => c = .catEventPop view
  | .gal => c = .galEventPop view
  | .flr => c = .flrEventPop view
  | .tel => c = .telEventPop view
  | .pwr => c = .pwrEventPop view
  | .clv => c = .clvEventPop view
  | .str => c = .strEventPop view
  | .cmp => c = .cmpEventPop view
  | .chu => c = .chuEventPop view
  | .flt => c = .fltEventPop view

/-- Is the command the arrival of a message of that opcode on that port (R60, R116, R426, R495, R516)? -/
def messageRow (op port : Nat) (m : Msg) (c : Instr) : Prop :=
  (op = 0x01 ∧ c = .rdLine port m) ∨ (op = 0x03 ∧ c = .wrLine port m) ∨
  (op = 0x04 ∧ c = .wrMasked port m) ∨ (op = 0x08 ∧ c = .atAdd port m) ∨
  (op = 0x09 ∧ c = .atMin port m) ∨ (op = 0x0A ∧ c = .atMax port m) ∨
  (op = 0x0B ∧ c = .atCas port m) ∨ (op = 0x10 ∧ c = .fence port m) ∨
  (op = 0x11 ∧ c = .fenceMark port m) ∨ (op = 0x18 ∧ c = .loanOffer port m) ∨
  (op = 0x19 ∧ c = .loanRecall port m) ∨ (op = 0x40 ∧ c = .contrib port m) ∨
  (op = 0x41 ∧ c = .result port m) ∨ (op = 0x48 ∧ c = .streamAttach port m) ∨
  (op = 0x49 ∧ c = .tile port m) ∨ (op = 0x4A ∧ c = .windowCredit port m) ∨
  (op = 0x50 ∧ c = .gatherReq port m) ∨ (op = 0x52 ∧ c = .filterReq port m) ∨
  (op = 0x51 ∧ c = .gatherData port m) ∨ (op = 0x53 ∧ c = .filterData port m) ∨
  (op = 0x80 ∧ c = .cpl port m) ∨ (op = 0x81 ∧ c = .rdData port m) ∨
  (op = 0x82 ∧ c = .atData port m) ∨ (op = 0x83 ∧ c = .loanReply port m) ∨
  (op = 0x8F ∧ c = .faultNotice port m) ∨ (op = 0x20 ∧ c = .rdShared port m) ∨
  (op = 0x21 ∧ c = .rdOwn port m) ∨ (op = 0x22 ∧ c = .upgrade port m) ∨
  (op = 0x23 ∧ c = .wbDirty port m) ∨ (op = 0x32 ∧ c = .cmpAck port m) ∨
  (op = 0x28 ∧ c = .snpShrFwd port m) ∨ (op = 0x29 ∧ c = .snpInv port m) ∨
  (op = 0x2A ∧ c = .snpInvFwd port m) ∨ (op = 0x2B ∧ c = .snpNa port m) ∨
  (op = 0x30 ∧ c = .snpRsp port m) ∨ (op = 0x31 ∧ c = .catCmp port m) ∨
  (op = 0x38 ∧ c = .dataS port m) ∨ (op = 0x39 ∧ c = .dataE port m) ∨
  (op = 0x3A ∧ c = .dataM port m) ∨ (op = 0x3B ∧ c = .dataMAt port m) ∨
  (op = 0x3C ∧ c = .snpData port m) ∨ (op = 0x60 ∧ c = .twinEntry port m) ∨
  (op = 0x61 ∧ c = .twinCheck port m) ∨ (op = 0x62 ∧ c = .twinSum port m) ∨
  (op = 0x70 ∧ c = .mgmtReq port m) ∨ (op = 0x71 ∧ c = .mgmtRsp port m) ∨
  (op = 0x74 ∧ c = .telReq port m) ∨ (op = 0x75 ∧ c = .telRsp port m)

/-- The part with a message counted and charged to ingress space on the logical port on which it has arrived (R54, R59). -/
def received (port : Nat) (m : Msg) (p : Part) : Part :=
  countPort port 0 1 (countPort port 2 (wireBytes m) (takeSpace port m.vc.toNat (creditsOf m) p))

/-- What becomes of a well-formed message that has arrived whole on an ACTIVE port (R58, R59, R384): from a peer it is classified as
it stands; from an endpoint its header is rewritten first, and one that an endpoint may not send, or a request of a gallery that is
not ACTIVE, is turned away. -/
def takeIn (port : Nat) (m : Msg) (p : Part) : Part :=
  let p := received port m p
  if (lport port p).peerYp then classified port m p
  else
    let m := rewriteHeader port m p
    if endpointMayNot m then turnAway port m stUnsupported (countDiscard port p)
    else if msgClass m = .req && !galleryActive m.gallery.toNat p then turnAway port m stGalleryFault p
    else classified port m p

/-- A requester of a mailbox channel can send a request: it reaches the channel, which the part has and which holds no request or
answer (R491). -/
def mailReady (c : Nat) (p : Part) : Prop :=
  c < p.mgmt.channels.length ∧ mailOpen c p = true ∧ (mailChannel c p).busy = false ∧ (mailChannel c p).done = false

/-- The part once the Curator has taken a request from a mailbox channel, and counted it (R491). -/
def asked (c op : Nat) (payload : List Byte) (p : Part) : Part :=
  count 1 0 0 1 (onMail c (fun x => { x with req := mailHeader op 0 payload.length 0 ++ payload }) p)

/-- The part once the Curator has answered on a mailbox channel: the response stands there with DONE, and vector 0 is raised where the
channel asks for it (R491). -/
def replied (c op result : Nat) (out : List Byte) (p : Part) : Part :=
  let p := onMail c (fun x => { x with rsp := mailHeader op result out.length 0 ++ out, done := true }) p
  if (mailChannel c p).intEn then raiseVector c 0 p else p

end Sys2Proof.Machine
end

