-- ==== Sys2Proof/Certificates/Slice0/Obligations.lean ====
section
/-!
DEFINITION. The statements about the machine. Each names the rules of the spec that it formalises; what rests on a choice of the model
says so.
-/

open Sys2Proof Sys2Proof.Machine

/-! ### The machine as a whole -/

/-- A step takes the command at the front of the queue and runs it on the part with the queue's rest. -/
def Obligations.StepRunsTheFront : Prop :=
  ∀ (c : Instr) (s : State), step { s with pending := c :: s.pending } = exec c s

/-- The queue is first in, first out: a step on an empty queue changes nothing (the model's choice, log entry 1), and one that answers
a next state has taken the front command from the queue, and no other. -/
def Obligations.TheQueueIsConsumed : Prop :=
  ∀ s : State,
    (s.pending = [] → step s = .next s) ∧
    (∀ (c : Instr) (rest : List Instr) (t : State), s.pending = c :: rest → step s = .next t → t.pending = rest)

/-- Nothing stops the machine but a VIN48 beyond the 80 V that R556 allows a transient, on a part that is powered, and nothing is
refused: every command, with any operands and in any state, completes, but for that one, which stops. -/
def Obligations.OnlyDamageStops : Prop :=
  ∀ s : State,
    (∀ c : Instr, (∀ mv : Nat, c ≠ .vinOvervoltage mv) → ∃ p : Machine.Part, exec c s = .next { s with part := settle p }) ∧
    (∀ mv : Nat, 80000 < mv ∧ s.part.cur.power ≠ .off → exec (.vinOvervoltage mv) s = .fault .damaged) ∧
    (∀ mv : Nat, ¬ (80000 < mv ∧ s.part.cur.power ≠ .off) → ∃ p : Machine.Part, exec (.vinOvervoltage mv) s = .next { s with part := settle p }) ∧
    (∀ f : Fault, step s = .fault f ↔
      f = .damaged ∧ s.part.cur.power ≠ .off ∧ ∃ (mv : Nat) (rest : List Instr), s.pending = .vinOvervoltage mv :: rest ∧ 80000 < mv) ∧
    (∀ r : Refusal, step s ≠ .refused r)

/-- An invariant of every step, from every state that meets it: the regions recorded as waiting for a page of an empty spare pool are
those whose next store waits for one (R95), so that SPARE_EMPTY is queued once for each. -/
def Obligations.StarvedRegionsStayNoted : Prop :=
  ∀ s t : State, starvedNoted s.part → step s = .next t → starvedNoted t.part

/-- The invariant of the starved regions holds at reset. -/
def Obligations.StarvedRegionsAreNotedAtReset : Prop := starvedNoted State.reset.part

/-- A part in which nothing follows of itself stays as it is: what a command leaves is final once no block has work that needs no
further event. -/
def Obligations.PartsAtRestStay : Prop :=
  ∀ p : Machine.Part, atRest p → starvedNoted p → settle p = p

/-- At reset the part is unpowered (R545): no command waits, no port is up, no core runs, memory lists nothing, and a read of any byte
gives what nothing has written reads as. The value of such a byte is the model's choice (log entry 3). -/
def Obligations.ResetIsUnpowered : Prop :=
  State.reset.pending = [] ∧ State.reset.part.cur.power = .off ∧ running State.reset.part = false ∧
    State.reset.part.mgmt.coresOn = false ∧ (∀ port : Nat, portActive port State.reset.part = false) ∧
    (∀ a : Nat, readByte State.reset.part.dram.memory a = 0)

/-! ### What the rules say of values -/

/-- Every message whose unused fields are zero and whose LEN is its length is what its own bytes say, for every value of every field
(R55, R56): nothing is lost or moved on the wire. -/
def Obligations.MessagesCrossTheWire : Prop :=
  ∀ m : Msg, onWire m = true → msgOfBytes (msgBytes m) = m

/-- The request header has the layout of R55: word w in bytes 8w to 8w + 7, each field in its bits, reserved bits zero, and LEN the
length of the message in 4-byte units. -/
def Obligations.RequestHeaderHasItsLayout : Prop :=
  ∀ m : Msg, longHeader (msgClass m) = true → onWire m = true →
    let w (k : Nat) : Nat := leAt (msgBytes m) (8 * k) 8
    field (w 0) 7 0 = m.op.toNat ∧ field (w 0) 10 8 = m.vc.toNat ∧ field (w 0) 17 11 = m.len.toNat ∧
    field (w 0) 20 18 = m.gallery.toNat ∧ field (w 0) 32 21 = m.srcPart.toNat ∧ field (w 0) 41 33 = m.srcPort.toNat ∧
    field (w 0) 53 42 = m.dstPart.toNat ∧ field (w 0) 62 54 = m.dstPort.toNat ∧ bitAt (w 0) 63 = false ∧
    field (w 1) 15 0 = m.tag.toNat ∧ field (w 1) 31 16 = m.epoch.toNat ∧ field (w 1) 55 32 = m.sseq.toNat ∧
    bitAt (w 1) 56 = m.ord ∧ bitAt (w 1) 57 = m.syn ∧ bitAt (w 1) 58 = m.retx ∧ bitAt (w 1) 59 = m.after ∧ field (w 1) 63 60 = 0 ∧
    field (w 2) 57 0 = m.addr.toNat ∧ bitAt (w 2) 58 = m.na ∧ field (w 2) 63 59 = 0 ∧ w 3 = m.oparg.toNat ∧
    4 * m.len.toNat = (msgBytes m).length

/-- The response header has the layout of R56: each field in its bits, reserved bits zero, and LEN the length of the message in 4-byte
units. -/
def Obligations.ResponseHeaderHasItsLayout : Prop :=
  ∀ m : Msg, longHeader (msgClass m) = false → onWire m = true →
    let w (k : Nat) : Nat := leAt (msgBytes m) (8 * k) 8
    field (w 0) 7 0 = m.op.toNat ∧ field (w 0) 10 8 = m.vc.toNat ∧ field (w 0) 17 11 = m.len.toNat ∧
    field (w 0) 20 18 = m.gallery.toNat ∧ field (w 0) 32 21 = m.dstPart.toNat ∧ field (w 0) 41 33 = m.dstPort.toNat ∧
    field (w 0) 53 42 = m.srcPart.toNat ∧ field (w 0) 57 54 = m.status.toNat ∧ bitAt (w 0) 58 = m.resync ∧ field (w 0) 63 59 = 0 ∧
    field (w 1) 15 0 = m.tag.toNat ∧ field (w 1) 39 16 = m.sseq.toNat ∧ field (w 1) 63 40 = m.aux.toNat ∧
    4 * m.len.toNat = (msgBytes m).length

/-- A flit that the part makes is 256 bytes, good by its CRC, and says what it was made of (R44, R45): its header in bytes 0 to 11, its
payload in bytes 12 to 247. A change of any one bit of it makes the CRC bad. That the CRC register is taken with its bits in the order
in which they go out is the model's reading (log entry 16). -/
def Obligations.FlitsAreChecked : Prop :=
  ∀ (header : Nat) (payload : List Byte), header < 2 ^ 96 → payload.length = 236 →
    let f := mkFlit header payload
    f.length = 256 ∧ flitGood f = true ∧ flitHeader f = header ∧ flitPayload f = payload ∧
    (∀ k i : Nat, k < 256 → i < 8 →
      flitGood (f.set k (f.getD k 0 ^^^ BitVec.ofNat 8 (2 ^ i))) = false)

/-- Writing bytes keeps the canonical form of the pool's memory; they read back as written, and every other byte reads as before. -/
def Obligations.MemoryReadsBack : Prop :=
  ∀ (m : Memory) (a : Nat) (bs : List Byte), m.wf = true →
    (writeBytes a bs m).wf = true ∧ readBytes (writeBytes a bs m) a bs.length = bs ∧
    (∀ b : Nat, b < a ∨ a + bs.length ≤ b → readByte (writeBytes a bs m) b = readByte m b)

/-- The channel hash (R22): a local offset's channel and channel byte address are the ones computed there; every channel holds exactly
one chunk of every group of 24; and two offsets meet in a channel byte only if they are equal. -/
def Obligations.ChannelHashIsOneToOne : Prop :=
  (∀ offset : Nat,
    let g := offset / 2 ^ 9
    let q := g / 24
    let j := g % 24
    let u := j / 3
    let t := j % 3
    let f8 := (List.range 13).foldl (fun x k => x ^^^ field q (3 * k + 2) (3 * k)) 0
    let f3 := q % 3
    interleaveHash offset = (3 * (u ^^^ f8) + (t + f3) % 3, q * 512 + field offset 8 0)) ∧
  (∀ q c : Nat, c < 24 → ∃ j : Nat, j < 24 ∧ ∀ k : Nat, k < 24 → ((interleaveHash ((24 * q + k) * 512)).1 = c ↔ k = j)) ∧
  (∀ a b : Nat, interleaveHash a = interleaveHash b → a = b)

/-- What an atomic does to its line (R61): it replaces the 4 or 8 bytes of its operand and no other byte; AT_ADD wraps, AT_MIN and
AT_MAX compare as OPARG says, AT_CAS stores its swap value where the compare value is there; and the old value is what is answered. -/
def Obligations.AtomicsTouchTheirOperand : Prop :=
  ∀ (m : Msg) (line : List Byte), isAtomic m.op.toNat = true → line.length = 128 →
    let w := if bitAt m.oparg.toNat 0 then 8 else 4
    let off := m.addr.toNat % 128
    let old := leAt line off w
    let a := leAt m.data 0 w
    let new := leAt (updatedLine m line).1 off w
    off % w = 0 →
      (updatedLine m line).1.length = 128 ∧ (updatedLine m line).2 = leBytes 8 old ∧
      (∀ k : Nat, k < off ∨ off + w ≤ k → (updatedLine m line).1.getD k 0 = line.getD k 0) ∧
      (m.op = 0x08 → new = (old + a) % 2 ^ (8 * w)) ∧
      (m.op = 0x09 → bitAt m.oparg.toNat 1 = false → new = min old a) ∧
      (m.op = 0x0A → bitAt m.oparg.toNat 1 = false → new = max old a) ∧
      (m.op = 0x09 → bitAt m.oparg.toNat 1 = true → signed (8 * w) new = min (signed (8 * w) old) (signed (8 * w) a)) ∧
      (m.op = 0x0A → bitAt m.oparg.toNat 1 = true → signed (8 * w) new = max (signed (8 * w) old) (signed (8 * w) a)) ∧
      (m.op = 0x0B → new = if old = a then leAt m.data 8 w else old)

/-- Integer reductions (R168): INT8 and INT32 inputs are widened to INT32; SUM saturates at both ends and sets SAT; MIN and MAX compare
as signed values; BAND, BOR and BXOR act on the patterns; an INT8 output saturates at -128 and 127 and sets SAT when it does; and
apart from saturation the results are exact. -/
def Obligations.IntegerReductionsAreExact : Prop :=
  (∀ (n i : Nat) (data : List Byte),
    signed 32 (chunkElement 8 n data i).1 = signed 8 (leAt data i 1) ∧ (chunkElement 9 n data i).1 = leAt data (4 * i) 4) ∧
  (∀ (fmt x y : Nat), fmt = 8 ∨ fmt = 9 → x < 2 ^ 32 → y < 2 ^ 32 →
    let a := signed 32 x
    let b := signed 32 y
    let r (op : Nat) : Nat × Bool := combineElement fmt op (x, false) (y, false)
    signed 32 (r 0).1 = max (-(2 ^ 31)) (min (2 ^ 31 - 1) (a + b)) ∧
    ((r 0).2 = true ↔ a + b < -(2 ^ 31) ∨ 2 ^ 31 - 1 < a + b) ∧
    signed 32 (r 1).1 = min a b ∧ signed 32 (r 2).1 = max a b ∧ (r 1).2 = false ∧ (r 2).2 = false ∧
    r 4 = (x &&& y, false) ∧ r 5 = (x ||| y, false) ∧ r 6 = (x ^^^ y, false)) ∧
  (∀ x : Nat, x < 2 ^ 32 →
    signed 8 (leAt (encodeChunk 8 [x]).1 0 1) = max (-128) (min 127 (signed 32 x)) ∧
    ((encodeChunk 8 [x]).2 = true ↔ signed 32 x < -128 ∨ 127 < signed 32 x) ∧
    encodeChunk 9 [x] = (leBytes 4 x, false))

/-- What a counter of each class holds after counting (R505): WRAP64 wraps, SAT32 and a bin of HIST16 stick at their limit and set OVF.
Which counter belongs to which class is the model's choice (log entry 8). -/
def Obligations.CountersStopAtTheirLimits : Prop :=
  ∀ (id n : Nat) (c : Counter),
    (ctrIsWrap id = true → c.value < 2 ^ 64 → bumpCounter id n c = { c with value := (c.value + n) % 2 ^ 64 }) ∧
    (ctrIsWrap id = false → ctrIsSat id = true → c.value ≤ 0xFFFFFFFF →
      (bumpCounter id n c).value = min 0xFFFFFFFF (c.value + n) ∧
      ((bumpCounter id n c).ovf = true ↔ c.ovf = true ∨ 0xFFFFFFFF ≤ c.value + n)) ∧
    (ctrIsWrap id = false → ctrIsSat id = false → c.value ≤ 0xFFFF →
      (bumpCounter id n c).value = min 0xFFFF (c.value + n) ∧
      ((bumpCounter id n c).ovf = true ↔ c.ovf = true ∨ 0xFFFF ≤ c.value + n))

/-- A command written while its view's BUSY reads 1, or to a block that is not in service, is ignored and recorded (R527, R533), for a
sequence of every kind. -/
def Obligations.BusyCommandsAreIgnored : Prop :=
  ∀ (s : State) (view : Nat) (cmd : Word64), view < 4 → viewOpen view s.part = true →
    let p := s.part
    let hindered (q : SeqName) : Prop := blockReady (seqBlock q) p = false ∨ (seqOf q p).busy.getD view false = true
    let ignored (q : SeqName) (code : Nat) : Host.Outcome State Fault Refusal :=
      .next (settled s (note (seqBlock q) 1 none .commandWhileBusy [view, code] p))
    (hindered .ext → exec (.revoke view cmd) s = ignored .ext (setField cmd.toNat 23 20 1)) ∧
    (hindered .region → exec (.acquireRegion view cmd) s = ignored .region (withOp 3 1 cmd)) ∧
    (hindered .tbl → exec (.tblRead view cmd) s = ignored .tbl (withOp 1 1 cmd)) ∧
    (hindered .cat → exec (.setRegion view cmd) s = ignored .cat (withOp 3 1 cmd)) ∧
    (hindered .clv → exec (.openContext view cmd) s = ignored .clv (withOp 3 1 cmd)) ∧
    (hindered .str → exec (.streamLoad view cmd) s = ignored .str (withOp 3 1 cmd)) ∧
    (hindered .slot → exec (.foldTableLoad view cmd) s = ignored .slot (withOp 1 1 cmd)) ∧
    (hindered .job → exec (.jobStart view cmd) s = ignored .job (withOp 3 1 cmd)) ∧
    (hindered .chu → exec (.submitCommand view cmd) s = ignored .chu (withOp 3 1 cmd)) ∧
    (hindered .flt → exec (.demote view cmd) s = ignored .flt (withOp 3 1 cmd)) ∧
    (hindered .gal → exec (.disableGallery view cmd) s = ignored .gal (withOp 3 1 cmd)) ∧
    (hindered .flr → exec (.holdExtent view cmd) s = ignored .flr (withOp 3 2 cmd))

/-! ### Commands of the pool registers -/

/-- REVOKE, MOVE_OUT, FORCE_RECALL and FREE (R31, R34, R38, R39) act on an extent whose state allows them. REVOKE: the epoch rises,
the extent is REVOKING, requests that wait at the home are turned away, and the command goes on until REVOKE_COMPLETE. MOVE_OUT: the
copy is accepted. FORCE_RECALL of a RECALLING extent: it is LOST. FREE: the extent is FREE, its object 0. -/
def Obligations.ExtentCommandsAct : Prop :=
  ∀ (s : State) (view : Nat) (cmd : Word64), canCommand .ext view s.part →
    let t := took .ext view s.part
    let e := field cmd.toNat 17 0
    let dest := field cmd.toNat 49 32
    noSuchExtent e t = false →
    ((extentAt e t).state = .live →
      exec (.revoke view cmd) s = .next (settled s
        (onPool (fun p =>
          { p with
            revokes := p.revokes ++ [{ ext := e, view := view }]
            extSeq := seqReport view (p.extSeq.result.getD view 0) (((extentAt e t).epoch + 1).toNat * 2 ^ 16) p.extSeq })
          (dropWaiting e stRevoked (chuRevoked e
            (onFlash (fun b => { b with moves := b.moves.map fun m => if m.src = e then { m with revoking := true } else m })
              (changeExtent e (fun x => { x with epoch := x.epoch + 1, state := .revoking }) t))))))) ∧
    (∀ (i : Nat) (l : Loan), noSuchExtent dest t = false → (extentAt e t).state = .recalling → loanOf e t = some (i, l) →
      l.state = .recalling → (t.pool.copies.any fun c => c.src = e) = false → isDramHome dest t = true →
      (extentAt dest t).state = .free → inUse dest t = false →
      exec (.moveOut view cmd) s = .next (settled s
        (extEnd view 0 e (startCopies (onPool (fun p =>
          { p with copies := p.copies ++ [{ src := e, dest := dest, lender := l.lender, running := false, stalled := false }] }) t))))) ∧
    (∀ (i : Nat) (l : Loan), inLoanWindow e = true → loanOf e t = some (i, l) → l.state = .recalling →
      (extentAt e t).state = .recalling →
      exec (.forceRecall view cmd) s = .next (settled s (extEnd view 0 e (loanEnds i (startCopies (loseExtent e t)))))) ∧
    ((extentAt e t).state = .live ∨ (extentAt e t).state = .lost →
      ((extentAt e t).cls = .catalogue → dirHeld e t = false) → extBusy e t = false → inFlashWindow e = false →
      exec (.freeExtent view cmd) s = .next (settled s
        (extEnd view 0 e (checkLoanOf e (unbindExtent e (changeExtent e (fun x => { x with state := .free, object := 0 }) t))))))

/-- TBL_READ fills the view's table data from the entry and TBL_WRITE writes the entry from it (R535, R536): here for an object
entry, whose eight words are the entry (R27), and for a route of up to sixteen ports (R24, R537), after which what is unacked on a
path that the route lost is sent again (R68). -/
def Obligations.TableWindowReadsAndWrites : Prop :=
  ∀ (s : State) (view : Nat) (cmd : Word64), canCommand .tbl view s.part →
    let t := took .tbl view s.part
    let tab := field cmd.toNat 5 2
    let i := field cmd.toNat 25 6
    let words := (t.pool.tblData.getD view []).map (·.toNat)
    tab ≤ 5 → i < tableSize tab t →
    exec (.tblRead view cmd) s = .next (settled s
      (tblEnd view 0 (onPool (fun p =>
        { p with tblData := lset p.tblData view ((List.range 8).map fun k =>
                   BitVec.ofNat 64 ((tableWords tab i t).getD k (words.getD k 0))) }) t))) ∧
    (tab = 1 → isTray t = true →
      exec (.tblWrite view cmd) s = .next (settled s
        (tblEnd view 0 (onPool (fun p =>
          { p with objects :=
                     if objectOfWords words = ObjectEntry.blank then tdel p.objects i else tset p.objects i (objectOfWords words) }) t)))) ∧
    (tab = 3 → routeOk false words = true →
      exec (.tblWrite view cmd) s = .next (settled s
        (tblEnd view 0 (resendRerouted t.pool.routeParts
          (onPool (fun p => { p with routeParts := tset p.routeParts i (routeOfWords words) }) t)))))

/-- The region register's object of a view, and the fields of POL_REGION_CMD (R106), as the statements below name them: ACQUIRE of a
region that has no owner entry enters it OWNED by the agent named, RELEASE by its owner removes the entry, and ORPHAN leaves it
ORPHANED (R82, R85). Each goes on until REGION_DRAIN_END. -/
def Obligations.OwnershipCommandsAct : Prop :=
  ∀ (s : State) (view : Nat) (cmd : Word64), canCommand .region view s.part →
    let t := took .region view s.part
    let object := t.regions.obj.getD view 0
    let part := field cmd.toNat 19 8
    let port := field cmd.toNat 28 20
    let waits (p : Part) : Part :=
      onRegions (fun r => { r with seq := seqReport view 0 0 r.seq, wait := some (.drain view object (regionReqs object p)) }) p
    regionRefusal object .owned t = 0 →
    (ownerOf object t = none → t.regions.owners.length < 16384 →
      exec (.acquireRegion view cmd) s = .next (settled s
        (waits (onRegions (fun r =>
          { r with owners := r.owners ++ [{ object := object, part := part, port := port, owned := true, lastFence := none }] }) t)))) ∧
    (∀ o : OwnerEntry, ownerOf object t = some o → o.owned = true →
      (o.part = part → o.port = port →
        exec (.releaseRegion view cmd) s = .next (settled s
          (waits (chuReleased object
            (onRegions (fun r => { r with owners := r.owners.filter fun q => q.object ≠ object }) t))))) ∧
      exec (.orphanRegion view cmd) s = .next (settled s
        (waits (chuReleased object (onRegions (fun r =>
          { r with owners := r.owners.map fun q => if q.object = object then { q with owned := false } else q }) t)))))

/-- The commands on editions (R95, R97, R99 to R102, R106), each where the spec lets it act: a draft opens in a FREE slot; PUBLISH
makes the draft CURRENT and a slot that was CURRENT RETIRED, of which the issuing part queues RECLAIM_READY at once if it has no
reader; ABORT_DRAFT frees the draft's slot and gives its private pages back; OPEN_READ takes a lease on the CURRENT slot, CLOSE_READ
ends the agent's lease on the slot named, RENEW sets the expiry of the agent's leases anew; RECLAIM of a RETIRED slot without readers
frees it; ADD_SPARE adds the 4,096 pages of a FREE extent; DROP removes the region's entry. The model's choices (log entry 80): RENEW
is refused with WRONG_CLASS where the part has issued no object, the writer's lease ends with PUBLISH, and DROP frees the spare pool. -/
def Obligations.EditionCommandsAct : Prop :=
  ∀ (s : State) (view : Nat) (cmd : Word64), canCommand .region view s.part →
    let t := took .region view s.part
    let object := t.regions.obj.getD view 0
    let k := field cmd.toNat 7 4
    let part := field cmd.toNat 19 8
    let port := field cmd.toNat 28 20
    let arg := field cmd.toNat 63 32
    (t.pool.objects ≠ [] → exec (.renew view cmd) s = .next (settled s
      (regEnd view 0 0 0 (onRegions (fun r =>
        { r with leases := r.leases.map fun l =>
                   if l.part = part && l.port = port then { l with expiry := leaseExpiry t } else l }) t)))) ∧
    (t.pool.objects = [] → exec (.renew view cmd) s = .next (settled s (regEnd view 5 0 0 t))) ∧
    (regionRefusal object .edition t = 0 →
      (isDramHome (field arg 17 0) t = true → isReserved (field arg 17 0) t = false → (extentAt (field arg 17 0) t).state = .free →
        inUse (field arg 17 0) t = false →
        exec (.addSpare view cmd) s = .next (settled s
          (regEnd view 0 0 0
            (addPages object ((List.range 4096).map fun i => field arg 17 0 * 4096 + i) [field arg 17 0] t)))) ∧
      (∀ r : EditionRegion, editionOf object t = some r →
        ((t.flt.moves.any fun m => m.demote && (extentsOf object t).any fun p => p.1 = m.src) = false →
          ((extentsOf object t).any fun p => p.2.place = .flash || p.2.place = .loan) = false → slotIn r .draft = none →
          (∀ f : Nat, isIssuer object t = true → slotIn r .free = some f → t.regions.leases.length < 65536 →
            exec (.openDraft view cmd) s = .next (settled s (draftOpens view object f (nextSerial object t) part port r t))) ∧
          (isIssuer object t = false → (slotAt r k).state = .free → arg ≠ 0 →
            exec (.openDraft view cmd) s = .next (settled s (draftOpens view object k arg part port r t)))) ∧
        ((slotAt r k).state = .draft → slotIn r .current = none →
          exec (.publish view cmd) s = .next (settled s
            (regEnd view 0 0 0 (syncRegion object
              (onSlot object k (fun q => { q with state := .current }) (dropLeases object k t)))))) ∧
        (∀ o : Nat, (slotAt r k).state = .draft → slotIn r .current = some o →
          exec (.publish view cmd) s = .next (settled s
            (regEnd view 0 0 0 (syncRegion object (onSlot object k (fun q => { q with state := .current })
              (let p := onSlot object o (fun q => { q with state := .retired }) (dropLeases object k t)
               if isIssuer object t ∧ (slotAt r o).readers = 0 then regionEvent 1 o object.toNat p else p)))))) ∧
        ((slotAt r k).state = .draft →
          exec (.abortDraft view cmd) s = .next (settled s
            (regEnd view 0 0 0 (syncRegion object (onSlot object k (fun _ => SlotRec.blank)
              (dropSlotMaps object k (dropLeases object k
                (addPages object (privatePages r k (dramExtents object t)) [] t)))))))) ∧
        (∀ c : Nat, isIssuer object t = true → slotIn r .current = some c → t.regions.leases.length < 65536 →
          exec (.openRead view cmd) s = .next (settled s
            (regEnd view 0 c (slotAt r c).serial.toNat (syncRegion object (takeLease part port object c t))))) ∧
        (∀ l : Lease, isIssuer object t = true →
          (t.regions.leases.find? fun l => l.object = object && l.slot = k && l.part = part && l.port = port) = some l →
          exec (.closeRead view cmd) s = .next (settled s (regEnd view 0 0 0 (endLease l t)))) ∧
        ((slotAt r k).state = .retired → (slotAt r k).readers = 0 → slotMoving object k t = false →
          exec (.reclaim view cmd) s = .next (settled s
            (regEnd view 0 0 0 (syncRegion object (onSlot object k (fun _ => SlotRec.blank)
              (dropSlotMaps object k (addPages object
                ((slotPages r k (dramExtents object t)).eraseDups.filter fun p =>
                  p ∉ ((List.range r.slots.length).filter fun j => j ≠ k && (slotAt r j).state ≠ .free).flatMap fun j =>
                    slotPages r j (dramExtents object t)) [] t))))))) ∧
        ((slotAt r k).state = .current → (slotAt r k).readers = 0 →
          ((List.range r.slots.length).any fun j => j ≠ k && (slotAt r j).state ≠ .free) = false → ownerOf object t = none →
          (t.regions.leases.any fun l => l.object = object) = false →
          exec (.dropRegion view cmd) s = .next (settled s
            (regEnd view 0 0 0 (onRegions (fun b =>
              { b with
                editions := b.editions.filter fun e => e.object ≠ object
                spares := b.spares.filter fun p => p.object ≠ object })
              (syncRegion object (onEdition object
                (fun _ => { r with slots := List.replicate editionSlots SlotRec.blank }) t))))))))

/-- The commands on catalogue regions (R112, R113, R135, R137, R140, R141) of a tray part, each where the spec lets it act:
SET_REGION enters the region, CLEAR_REGION removes it, SET_MEMBER enters a member ACTIVE; REMOVE_MEMBER, HOST_LOST and PURGE_EXTENT
mark the member, which a lost one's open transactions no longer wait for, and begin the walk over the lines concerned. -/
def Obligations.CatalogueCommandsAct : Prop :=
  ∀ (s : State) (view : Nat) (cmd : Word64), canCommand .cat view s.part → isTray s.part = true →
    memberWalks (withOp 3 3 cmd) s.part = false →
    let t := took .cat view s.part
    let object := t.cat.obj.getD view 0
    let group := field cmd.toNat 16 8
    let n := field cmd.toNat 24 17
    let e := t.cat.cmdExt.getD view 0 % 2 ^ 18
    (∀ mode : PredMode, (mode = .adaptive ∧ field cmd.toNat 48 47 = 0 ∨ mode = .home ∧ field cmd.toNat 48 47 = 1 ∨
        mode = .near ∧ field cmd.toNat 48 47 = 2) → catRegionOf object t = none → t.cat.regions.length < 512 →
      exec (.setRegion view cmd) s = .next (settled s
        (catEnd view 0 0 (onCatalogue (fun c =>
          { c with regions := c.regions ++
                     [{ object := object, group := group, revert := bitAt cmd.toNat 51, predMode := mode,
                        predInit := field cmd.toNat 50 49, nearest := bitAt cmd.toNat 52 }] }) t)))) ∧
    ((catRegionOf object t).isSome = true → catRegionLive object t = false →
      exec (.clearRegion view cmd) s = .next (settled s
        (catEnd view 0 0 (onCatalogue (fun c => { c with regions := c.regions.filter fun r => r.object ≠ object }) t)))) ∧
    (n < t.cat.groupSize → catMember group n t = none →
      exec (.setMember view cmd) s = .next (settled s
        (catEnd view 0 0 (onCatalogue (fun c =>
          { c with members := tset c.members (group * 256 + n)
                     { part := field cmd.toNat 36 25, port := field cmd.toNat 45 37, nearAt := bitAt cmd.toNat 46, state := .active } }) t)))) ∧
    (∀ m : CatMember, catMember group n t = some m → m.state = .active →
      exec (.removeMember view cmd) s = .next (settled s
        (let p := onCatalogue (fun c => { c with members := tset c.members (group * 256 + n) { m with state := .removing } }) t
         let named := ((groupLines group p).filter fun q => removeTouches n q.2).map (·.1)
         beginWalk { kind := .remove, group := group, member := n, ext := 0, view := view } (.drop (some n))
          (named ++ (grantLines group n p).filter fun l => l ∉ named) p)) ∧
      exec (.hostLost view cmd) s = .next (settled s
        (let p := onCatalogue (fun c => { c with members := tset c.members (group * 256 + n) { m with state := .lost } }) t
         let p := (memberSnoops group n p).foldl (fun p q => loseSnoop q.1 q.2 p) p
         let p := (p.cat.txns.filter fun q => q.2.group = group && q.2.member = some n && q.2.awaitAck).foldl
          (fun p q => closeTxn q.1 p) p
         beginWalk { kind := .hostLost, group := group, member := n, ext := 0, view := view } .fix
          (((groupLines group p).filter fun q => n ∈ ptrsOf q.2).map (·.1)) p))) ∧
    ((extentAt e t).cls = .catalogue → (extentAt e t).state ≠ .free → (extentAt e t).state ≠ .lost →
      exec (.purgeExtent view cmd) s = .next (settled s
        (beginWalk { kind := .purge, group := 0, member := 0, ext := e, view := view } (.drop none)
          (((dirList t).filter fun p => p.1 / linesPerExtent = e && dirHolds p.2).map (·.1)) t)))

/-! ### Commands of the engines and the memory services -/

/-- OPEN of a FREE context whose descriptor, gallery, group and allocation pass the checks makes it OPEN under that descriptor (R155,
R174); CLOSE of a RUNNING context makes it CLOSING, and of an OPEN, DONE or FAILED one frees it; ABORT answers the contributions that
wait for it LATE, sends its unsent results with TIMEOUT and frees it (R174); QUERY reports and changes nothing (R179). -/
def Obligations.ContextCommandsAct : Prop :=
  ∀ (s : State) (view : Nat) (cmd : Word64), canCommand .clv view s.part →
    let t := took .clv view s.part
    let c := field cmd.toNat 15 4
    let d := t.clv.descs.getD view []
    (ctxAt c t = none → ctxValid d = true → galleryActive (ctxGallery d) t = true → ctxGroupOk d t = true →
      allocOk (ctxAlloc d t) t = true →
      exec (.openContext view cmd) s = .next (settled s
        (clvEnd view c 0 (putCtx c (freshContext d (ctxGen d) (ctxAlloc d t)) t)))) ∧
    (∀ x : Context, ctxAt c t = some x →
      (x.state = .running →
        exec (.closeContext view cmd) s = .next (settled s (clvEnd view c 0 (putCtx c { x with state := .closing } t)))) ∧
      (x.state = .opened ∨ x.state = .done ∨ x.state = .failed →
        exec (.closeContext view cmd) s = .next (settled s (clvEnd view c 0 (freeCtx c t)))) ∧
      (x.state = .opened ∨ x.state = .running ∨ x.state = .closing →
        exec (.contextAbort view cmd) s = .next (settled s
          (clvEnd view c 0 (freeCtx c (lateQueued c x ((unsentResults x).foldl (fun p k => timeoutResult x k p) t))))))) ∧
    exec (.contextQuery view cmd) s = .next (settled s (clvEnd view c 0 t))

/-- LOAD of a free stream at a 128-byte aligned address begins to read the program (R221, R233); START of a LOADED or FAILED stream
with members in an ACTIVE gallery makes it RUNNING at the Curator's time (R384), STOP of a RUNNING one lets it drain while the
sequence goes on to the commands of other views (R527), ABORT ends it, UNLOAD frees it, QUERY reports its late and handed tiles (R233,
R239). -/
def Obligations.StreamCommandsAct : Prop :=
  ∀ (s : State) (view : Nat) (cmd : Word64), canCommand .str view s.part →
    let t := took .str view s.part
    let i := field cmd.toNat 11 4
    let base := t.str.progAddr.getD view 0 % 2 ^ 58
    let arg := t.str.progArg.getD view 0
    (strAt i t = none → base % 128 = 0 →
      exec (.streamLoad view cmd) s = .next (settled s
        (goLoad 64 (onStreaming (fun b =>
          { b with load := some { view := view, tried := 0, stream := i, base := base, epoch := field arg 15 0, handle := field arg 31 16,
                                  reads := [], bytes := [] } }) t)))) ∧
    (∀ x : Stream, strAt i t = some x →
      (x.state = .loaded ∨ x.state = .failed →
        (x.members ≠ [] → galleryActive x.gallery t = true →
          exec (.streamStart view cmd) s = .next (settled s
            (strEnd view i 0 (putStr i { x with
              state := .running, pass := 0, record := 0, nextTile := 0, t0 := t.cur.timer, lastHand := none, badPass := false, latePass := 0,
              handed := 0, members := x.members.map fun m => { m with joined := true, first := 0, released := 0 } } t)))) ∧
        exec (.streamUnload view cmd) s = .next (settled s
          (strEnd view i 0 (onStreaming (fun b => { b with streams := tdel b.streams i }) t)))) ∧
      (x.state = .running →
        exec (.streamStop view cmd) s = .next (settled s
          (settleStream i { x with state := .stopping, starting := false, view := some view }
            (onStreaming (fun b => { b with seq := seqLeave b.seq }) t)))) ∧
      (x.state = .running ∨ x.state = .stopping →
        exec (.streamAbort view cmd) s = .next (settled s (strEnd view i 0 (leaveStream i .loaded x t)))) ∧
      exec (.streamQuery view cmd) s = .next (settled s
        (strEnd view i 0 (onStreaming (fun b => { b with query := x.latePass + x.handed % 2 ^ 32 * 2 ^ 32 }) t))))

/-- LOAD of a generation that the slot does not hold, in an ACTIVE gallery, and DROP of one that it holds (R253, R384): where no
reference has to end first the command goes on at once, and else it waits for that with the slot as it stands. A LOAD reads its image
with the arguments as they stood at the write (R268). -/
def Obligations.FoldTableCommandsAct : Prop :=
  ∀ (s : State) (view : Nat) (cmd : Word64), canCommand .slot view s.part →
    let t := took .slot view s.part
    let n := field cmd.toNat 5 2
    let gen := field cmd.toNat 13 6
    let x := foldSlot n t
    let run (load : Bool) : SlotRun :=
      { view := view, addr := t.cmp.tblAddr.getD view 0 % 2 ^ 58, arg := t.cmp.tblArg.getD view 0, load := load, slot := n, gen := gen,
        waiting := true, read := none }
    (holdsGen gen x = false → galleryActive x.gallery t = true →
      (x.old = none → exec (.foldTableLoad view cmd) s = .next (settled s (slotProceed (run true) t))) ∧
      (∀ old : FoldTable, x.old = some old → tableRefs n old.gen t ≠ 0 →
        exec (.foldTableLoad view cmd) s = .next (settled s (onCompression (fun b => { b with slotRun := some (run true) }) t)))) ∧
    (holdsGen gen x = true →
      (tableRefs n gen t = 0 →
        exec (.foldTableDrop view cmd) s = .next (settled s (slotEnd view 0 (putFoldSlot n (dropTable gen x) t)))) ∧
      (tableRefs n gen t ≠ 0 →
        exec (.foldTableDrop view cmd) s = .next (settled s (onCompression (fun b => { b with slotRun := some (run false) }) t))))

/-- START of a FOLD whose descriptor, gallery and table pass the checks makes the job RUNNING from its first value, on the folder
with the fewest of them (log entry 84), and of an UNFOLD reads the source's header before the job runs (R257); ABORT of a running
job that has not been told to end stops it as ABORTED at a line that is a free value (R258), and QUERY reports one (R271). -/
def Obligations.JobCommandsAct : Prop :=
  ∀ (s : State) (view : Nat) (cmd : Word64), canCommand .job view s.part →
    let t := took .job view s.part
    let i := field cmd.toNat 9 4
    let d := t.cmp.jobDescs.getD view []
    let new : FoldJob :=
      { unit := 0, turn := .idle, desc := d, state := .running, status := 0, written := 0, phase := .values, go := false, budget := 0, ask := none,
        reads := [], bytes := [], taken := 0, blocks := 0, out := [], at_ := 0, first := [], hist := List.replicate 256 0,
        writes := [], reader := none }
    ((jobAt i t).map (·.state) ≠ some .running → jobDescOk d = true → galleryActive (jdGallery d) t = true →
      (jdFold d = true → (∃ f : FoldTable, slotTable (jdSlot d) (jdGen d) t = some f ∧ f.kind = jdKind d) →
        slotGallery (jdSlot d) t = jdGallery d →
        exec (.jobStart view cmd) s = .next (settled s
          (jobEnd view i 0 (putJob i { new with unit := freeFolder t, at_ := 128 } t)))) ∧
      (jdFold d = false →
        let r := FoldReader.start (freeUnfolder t) (jdSrc d) (jdGallery d) (jdSrcEpoch d) (jdSrcHandle d)
        exec (.jobStart view cmd) s = .next (settled s
          (goCheck 8 (onCompression (fun b => { b with check := some { view := view, job := i, run := { new with reader := some r } } })
            t))))) ∧
    (∀ x : FoldJob, jobAt i t = some x → x.state = .running →
      (x.go = false →
        let p := { t with freeCtr := t.freeCtr + 1 }
        let w := (Config.freeWord t.freeCtr).toNat
        exec (.jobAbort view cmd) s = .next (settled s
          (goJob jobSteps i (putJob i { x with ask := some (true, view), budget := w } p))) ∧
        exec (.jobQuery view cmd) s = .next (settled s
          (goJob jobSteps i (putJob i { x with ask := some (false, view), budget := w } p)))) ∧
      (x.go = true →
        exec (.jobAbort view cmd) s = .next (settled s
          (jobEnd view i 0 (jobStops i .aborted 0 { x with ask := none, budget := 0 } t)))))

/-- FILL START of lines that pass the checks begins a fill (R308, R309, R321): the command stays BUSY and the sequence goes on. Where no
write-through has to end first and the class holds the energy, the pages written at once are a free choice, and else none is (R454).
ABORT of the running fill ends it with RESULT 5 for the
view that started it. -/
def Obligations.FillCommandsAct : Prop :=
  ∀ (s : State) (view : Nat) (cmd : Word64),
    (canCommand .fill view s.part → isTray s.part = true →
      let t := took .fill view s.part
      let lines := t.dram.fillLines.getD view 0
      let waits := fillWaits (fillLinesOf (withOp 1 1 cmd) lines).1 (fillLinesOf (withOp 1 1 cmd) lines).2 t ||
        !canSpend (fillClass (bitAt cmd.toNat 3)) (fillCost (fillLinesOf (withOp 1 1 cmd) lines).2) t
      let r : FillRun :=
        { view := view, poison := fcPoison (withOp 1 1 cmd), background := bitAt cmd.toNat 3,
          firstLine := (fillLinesOf (withOp 1 1 cmd) lines).1, lines := (fillLinesOf (withOp 1 1 cmd) lines).2,
          pattern := t.dram.fillPattern.getD view 0, early := if waits then none else some t.freeCtr, paid := 0 }
      let begun := onDram (fun d =>
        { d with
          fill := some r
          fillSeq := seqLeave (seqReport view (d.fillSeq.result.getD view 0) (extentsDone r * 2 ^ 32) d.fillSeq) })
        { t with freeCtr := t.freeCtr + 1 }
      t.dram.fill = none → fillCheck (withOp 1 1 cmd) lines t = 0 →
      exec (.fillStart view cmd) s = .next (settled s
        (if waits then begun else fillFollows r (isEarly r) (onMemory (fillLines (fillRange r)) begun)))) ∧
    (∀ r : FillRun, view < 4 → viewOpen view s.part = true → blockReady 11 s.part = true → isTray s.part = true →
      s.part.dram.fill = some r → r.view = view →
      exec (.fillAbort view) s = .next (settled s
        (fillEndCmd view 5 (extentsDone r * 2 ^ 32) (onDram (fun d => { d with fill := none }) s.part))))

/-- SURVEY START of a range of backed lines begins a survey under the next SURVEY_ID with an empty summary, and the lines read at once
are a free choice, and none where the class does not hold the energy (R313, R322, R454); ABORT of the running survey keeps what it has read, with ABORTED (R315). -/
def Obligations.SurveyCommandsAct : Prop :=
  ∀ (s : State) (view : Nat) (cmd : Word64),
    (canCommand .survey view s.part → isTray s.part = true →
      let t := took .survey view s.part
      let base := t.dram.surveyBase.getD view 0 % 2 ^ 46
      let len := t.dram.surveyLen.getD view 0 % 2 ^ 46
      let ident := t.dram.surveyId + 1
      let r : SurveyRun :=
        { view := view, base := base, len := len, repair := bitAt cmd.toNat 2, skipFree := bitAt cmd.toNat 3,
          early := if canSpend 8 (surveyCost len) t then some t.freeCtr else none, paid := 0 }
      t.dram.survey = none → base % 128 = 0 → len % 128 = 0 → len ≠ 0 → isDramHome ((base + len - 1) / 2 ^ 28) t = true →
      exec (.surveyStart view cmd) s = .next (settled s
        (surveyLines r (surveyEarly r.early) (onDram (fun d =>
          { d with
            survey := some r, surveyId := ident, summary := [0, 0, 0, 0, 0, ident.toNat * 2 ^ 32, 0, 0]
            surveySeq := seqLeave d.surveySeq })
          { t with freeCtr := t.freeCtr + 1 })))) ∧
    (∀ r : SurveyRun, view < 4 → viewOpen view s.part = true → blockReady 11 s.part = true → isTray s.part = true →
      s.part.dram.survey = some r → r.view = view →
      exec (.surveyAbort view) s = .next (settled s
        (surveyOver r (onDram (fun d => { d with summary := lset d.summary 5 (d.summary.getD 5 0 ||| 2 ^ 48) }) s.part))))

/-- SUBMIT of a descriptor that passes every check queues the command on its unit under the unit's next ticket (R280); CANCEL of a
queued command takes it away with a CANCELLED event, and QUERY reports it (R282, R293). -/
def Obligations.ChannelUnitCommandsAct : Prop :=
  ∀ (s : State) (view : Nat) (cmd : Word64), canCommand .chu view s.part →
    let t := took .chu view s.part
    let d := t.chu.descs.getD view []
    let next := (t.chu.tickets.getD (chuUnit d) 0 + 1) % 65536
    let unit := field cmd.toNat 8 4
    let ticket := field cmd.toNat 31 16
    (submitResult d t = 0 →
      exec (.submitCommand view cmd) s = .next (settled s
        (chuEndCmd view 0 (chuFields (chuUnit d) next false 0) (onChannelUnits (fun b =>
          { b with
            cmds := b.cmds ++ [{ unit := chuUnit d, ticket := next, desc := d, done := 0, poisoned := 0, firstBad := 0,
                                 status := stOK, running := false, ended := false, cancelled := false, paid := 0 }]
            tickets := lset b.tickets (chuUnit d) next }) t)))) ∧
    (∀ c : ChuCmd, (t.chu.cmds.find? fun c => c.unit = unit && c.ticket = ticket) = some c → c.running = false →
      exec (.chuCancel view cmd) s = .next (settled s
        (chuEndCmd view 0 (chuFields unit ticket false 0) (chuEvent 3 stOK c (onChannelUnits (fun b =>
          { b with cmds := b.cmds.filter fun k => !(k.unit = c.unit && k.ticket = c.ticket) }) t)))) ∧
      exec (.chuQuery view cmd) s = .next (settled s (chuEndCmd view 0 (chuFields unit ticket false 0) t)))

/-- The commands of the flash tier on a tray part, each where the spec lets it act: DEMOTE and PROMOTE begin a move (R338, R339), ABORT
stops one (R341), ADD_ROOM adds an extent to the anteroom and REMOVE_ROOM begins to empty one (R335), ADOPT makes a bound extent that
is FREE LIVE on flash again under the epoch given, DISCARD of a LIVE one makes it LOST (R345), and ENROLL of a drive that is
UNENROLLED or FOREIGN, or READY without a bound extent, begins to reset its zones (R332); that demotions to it stop first is the
model's choice (log entry 47). -/
def Obligations.FlashCommandsAct : Prop :=
  ∀ (s : State) (view : Nat) (cmd : Word64), canCommand .flt view s.part → isTray s.part = true →
    let t := took .flt view s.part
    let e := field cmd.toNat 25 8
    let dest := field cmd.toNat 43 26
    let zone := field cmd.toNat 59 44
    let arg := t.flt.cmdArg.getD view 0
    (demoteResult e dest zone t = 0 →
      exec (.demote view cmd) s = .next (settled s (startMove view true (bitAt cmd.toNat 4) e dest zone t))) ∧
    (promoteResult e dest t = 0 →
      exec (.promote view cmd) s = .next (settled s (startMove view false (bitAt cmd.toNat 4) e dest 0 t))) ∧
    ((moveNum (field arg 21 16) t).isSome = true →
      exec (.moveAbort view cmd) s = .next (settled s (fltEnd view 0 (stopMove (field arg 21 16) (some stOK) t)))) ∧
    (e < interleavedExtents t → isReserved e t = false → (extentAt e t).state = .free → inUse e t = false →
      t.flt.room.length < 1024 →
      exec (.addRoom view cmd) s = .next (settled s
        (stageWaiting (fltEnd view 0 (onFlash (fun b => { b with room := b.room ++ [e] }) t))))) ∧
    (e ∈ t.flt.room →
      exec (.removeRoom view cmd) s = .next (settled s
        (evictRoom e (onFlash (fun b => { b with removing := b.removing ++ [e], run := some (.removeRoom view e) }) t)))) ∧
    (inFlashWindow e = true →
      (∀ b : JRec, tget? t.flt.bound e = some b → extClassOf b.cls ≠ .edition → (extentAt e t).state = .free →
        isMoveDest e t = false →
        exec (.adopt view cmd) s = .next (settled s
          (fltEnd view 0 (onFlash (fun f => { f with staged := f.staged.filter fun p => !(p.1 / 4096 = e && p.2.kept) })
            (changeExtent e (fun _ =>
              { object := b.object, epoch := BitVec.ofNat 16 (field arg 15 0), twinPart := b.twinPart, twinValid := b.twinValid,
                gallery := b.gallery, state := .live, cls := extClassOf b.cls, opset := b.opset, place := .flash, detail := 0,
                ordinal := b.ordinal }) t))))) ∧
      ((extentAt e t).state = .live → isMoveDest e t = false →
        exec (.discardExtent view cmd) s = .next (settled s
          (checkRoom (fltEnd view 0 (dropStaged e
            (dropWaiting e stLost (changeExtent e (fun x => { x with state := .lost }) (unbindExtent e t))))))))) ∧
    ((drive (zone % 8) t).state = .unenrolled ∨ (drive (zone % 8) t).state = .foreign ∨
        (drive (zone % 8) t).state = .ready ∧ (t.flt.bound.any fun p => driveOf p.1 = zone % 8) = false →
      exec (.enroll view cmd) s = .next (settled s
        (nvme (zone % 8) .resetAll false (onFlash (fun b => { b with run := some (.enroll view (zone % 8)) })
          ((t.flt.moves.filter fun m => m.demote && m.drive = zone % 8).foldl (fun p m => stopMove m.num (some stOK) p) t)))))

/-- DISABLE of an ACTIVE gallery makes it DRAINING, ENABLE of a DISABLED one ACTIVE (R385); RINSE of a DISABLED gallery, and RINSE_ALL
where no gallery is ACTIVE, DRAINING or RINSING, start the rinse unless a census runs (R386, R387); ENTER_VITRINE enters Vitrine mode
(R402); SEAL seals an IMPORTING binding and UNBIND frees one (R401). -/
def Obligations.GalleryCommandsAct : Prop :=
  ∀ (s : State) (view : Nat) (cmd : Word64), canCommand .gal view s.part →
    let t := took .gal view s.part
    let g := field cmd.toNat 6 4
    let n := field cmd.toNat 13 8
    let off := (List.range 8).filter fun g => (gallery g t).state = .disabled
    let waits (gs : List Nat) := onGalleries (fun b => { b with waitViews := b.waitViews ++ gs.map fun g => (view, g) }) t
    ((gallery g t).state = .active →
      exec (.disableGallery view cmd) s = .next (settled s
        (drainGallery g (onGalleries (fun b => { b with waitViews := b.waitViews ++ [(view, g)] })
          (onGallery g (fun x => { x with state := .draining }) t))))) ∧
    ((gallery g t).state = .disabled →
      exec (.enableGallery view cmd) s = .next (settled s (galEnd view 0 (onGallery g (fun x => { x with state := .active }) t))) ∧
      (t.tel.census ≠ .running → exec (.rinse view cmd) s = .next (settled s (rinseStarts [g] false (waits [g])))) ∧
      (t.tel.census = .running →
        exec (.rinse view cmd) s = .next (settled s
          (onGalleries (fun b => { b with rinseWait := [g], rinseAll := false, rinseView := some view }) (waits [g]))))) ∧
    ((t.gals.gals.all fun x => x.state = .disabled || x.state = .vacant) = true → t.tel.census ≠ .running →
      exec (.rinseAll view cmd) s = .next (settled s (rinseIdle view off (rinseStarts off true (waits off))))) ∧
    (t.gals.vitrine = false → exec (.enterVitrine view cmd) s = .next (settled s (galEnd view 0 (enterVitrine false t)))) ∧
    ((bindEntry n t).state = .importing →
      exec (.sealBinding view cmd) s = .next (settled s
        (galEnd view 0 (onGalleries (fun b =>
          { b with bindings := tset b.bindings n { bindEntry n t with state := .sealed } }) t)))) ∧
    ((bindEntry n t).state ≠ .free →
      exec (.unbindEntry view cmd) s = .next (settled s
        (galEnd view 0 (onGalleries (fun b => { b with bindings := tdel b.bindings n }) t))))

/-- The commands of failure and recovery, each where the spec lets it act (R415, R420, R425, R427, R428, R430, R434, R440 to R442):
FAST_RESET resets at once, and sends the entries that it changed to their twins; HOLD enters a hold on a FREE extent and RELEASE_HOLD removes it; MIRROR_COPY starts to copy; RESUME_TWIN takes the
twin off the list of those that are down; BEGIN makes a spare part the shadow of another; SEND starts to send the copies held;
ABANDON_TWIN, TAKE and ABORT_STANDIN end a stand-in's waiting, its life as a stand-in, or all of it; UNQUARANTINE and SELFTEST act on
an engine. -/
def Obligations.RecoveryCommandsAct : Prop :=
  ∀ (s : State) (view : Nat) (cmd : Word64), canCommand .flr view s.part →
    let t := took .flr view s.part
    let e := field cmd.toNat 25 8
    let p := field cmd.toNat 37 26
    let arg := t.flr.cmdArg.getD view 0
    let target := field cmd.toNat 49 38
    let engine := field arg 24 18
    (mayReset t = true →
      exec (.fastReset view cmd) s = .next (settled s
        (let q := onCurator (fun c => { c with fastPending := true }) t
         trainPorts (tellTwins q (note 255 2 none .fastReset [2] (onTelemetry (fun b => { b with later := [] }) (resetBlocks 2 q))))))) ∧
    (isDramHome e t = true →
      (isReserved e t = false → isCopyDest e t = false → (extentAt e t).state = .free → inUse e t = false → holdOf p (field arg 17 0) t = none →
        exec (.holdExtent view cmd) s = .next (settled s
          (flrEnd view 0 (onRecovery (fun b =>
            { b with holds := tset b.holds e
                       { object := 0, srcPart := p, srcExt := field arg 17 0, epoch := 0, gallery := 0, state := .free, cls := .owned,
                         opset := 0, synced := false, next := 0 } }) t)))) ∧
      (isHeld e t = true →
        exec (.releaseHold view cmd) s = .next (settled s
          (flrEnd view 0 (onRecovery (fun b => { b with holds := tdel b.holds e }) t))))) ∧
    (isBacked e t = true → (extentAt e t).twinValid = true → isTwinDown (extentAt e t).twinPart t = false →
      (t.flr.mirrors.any fun r => r.ext = e) = false →
      exec (.mirrorCopy view cmd) s = .next (settled s (flrEnd view 0 (startMirror e (extentAt e t).twinPart false t)))) ∧
    exec (.resumeTwin view cmd) s = .next (settled s
      (flrEnd view 0 (onRecovery (fun b => { b with twinDown := b.twinDown.filter fun x => x ≠ p }) t))) ∧
    (isSpare t = true → p ≠ myPart t →
      exec (.beginStandIn view cmd) s = .next (settled s
        (flrEnd view 0 (onRecovery (fun b =>
          { b with standIn := .shadow, forPart := p, standExts := [], tablesIn := false, senders := [] })
          (onLinks (fun l => { l with resync := true }) t))))) ∧
    ((t.flr.sends.any fun r => r.standIn = target) = false →
      let r := sendGo 1024 { failed := p, standIn := target, exts := heldFor p t, next := none, out := 0, view := some view }
        (onRecovery (fun b => { b with standIns := tset b.standIns p target }) t)
      exec (.sendExtents view cmd) s = .next (settled s (sendPut r.1 r.2))) ∧
    (t.flr.standIn = .shadow ∨ t.flr.standIn = .compare → t.flr.standExts = [] →
      exec (.abandonTwin view cmd) s = .next (settled s
        (let q := onRecovery (fun b => { b with senders := b.senders.filter fun x => x ≠ p }) t
         flrEnd view 0 (if t.flr.standIn = .compare then goCompare q else checkShadow q)))) ∧
    (t.flr.standIn = .compare → compareOver t = true → bitAt cmd.toNat 4 = false →
      exec (.takeIdentity view cmd) s = .next (settled s
        (flrEnd view 0 (flrEvent 6 0 t.flr.forPart 0 (scanDirectory (onRecovery (fun b => { b with standIn := .taken, forPart := 0 })
          (adoptStreams (onPool (fun b => { b with partNumber := t.flr.forPart }) t)))))))) ∧
    (t.flr.standIn = .shadow ∨ t.flr.standIn = .compare →
      exec (.abortStandin view cmd) s = .next (settled s
        (flrEnd view 0 (onRecovery (fun b =>
          { b with standIn := .spare, forPart := 0, standExts := [], tablesIn := false, senders := [] })
          (onLinks (fun l => { l with reseq := l.reseq.filter fun q => decide (q.1 < 2 ^ 21) })
          (onFlash (fun f => { f with staged := f.staged.filter fun q => !q.2.kept })
          (onCatalogue (fun c =>
            { c with regions := [], members := [], dir := [], dirCache := [], dirInit := [], txns := [], waiting := [] })
          (onRegions (fun r => { r with owners := [], editions := [], spares := [], leases := [] })
          (onPool (fun b => { b with extents := [], objects := [], loans := [] }) t))))))))) ∧
    (engine < 80 →
      exec (.unquarantine view cmd) s = .next (settled s
        (flrEnd view 0 (onRecovery (fun b => { b with quarantined := b.quarantined.filter fun x => x ≠ engine }) t))) ∧
      exec (.selftest view cmd) s = .next (settled s
        (flrEnd view 0 (onRecovery (fun b =>
          { b with selftests := if engine ∈ b.selftests then b.selftests else b.selftests ++ [engine] }) t))))

/-! ### Events, registers and telemetry -/

/-- The read of an event register by a view pops its queue (R528): a latched entry that is still queued leaves it, a latched entry
that is gone pops nothing, and without a latched entry the head leaves. The view reads VALID, the event's fields and OVERFLOW, and the
latch ends. -/
def Obligations.EventReadsPop : Prop :=
  ∀ (s : State) (q : QueueName) (view : Nat) (c : Instr), popRow q view c → viewOpen view s.part = true →
    let p := s.part
    let old := getQueue q p
    let latched := (p.views[view]?).bind fun w => tget? w.latched (queueBlock q)
    let after (e : Option Event) (entries : List Event) : Part :=
      returnRead view (eventWord (queueOvfBit q) e old.overflow)
        (onView view (fun w => { w with latched := tdel w.latched (queueBlock q) }) (setQueue q { old with entries := entries } p))
    (∀ e : Event, latched = some e →
      (e ∈ old.entries → exec c s = .next (settled s (after (some e) (old.entries.erase e)))) ∧
      (e ∉ old.entries → exec c s = .next (settled s (after none old.entries)))) ∧
    (∀ (e : Event) (es : List Event), latched = none → old.entries = e :: es →
      exec c s = .next (settled s (after (some e) es))) ∧
    (latched = none → old.entries = [] → exec c s = .next (settled s (after none [])))

/-- The read of FLR_FAULT_POP_g pops a gallery's fault queue for a view with nothing latched: VALID, OVERFLOW and the entries left are
read (R446). -/
def Obligations.FaultQueueReadsPop : Prop :=
  ∀ (s : State) (view g next : Nat) (es : List FaultEntry) (e : FaultEntry) (overflow : Bool),
    viewOpen view s.part = true → g < 8 → ((s.part.views[view]?).bind fun w => tget? w.latched (faultLatch g)) = none →
    faultQueue g s.part = { entries := e :: es, overflow := overflow, next := next } →
    exec (.faultQueuePop view g) s = .next (settled s
      (returnRead view (1 + bitOf overflow * 2 + es.length * 4)
        (onView view (fun w => { w with latched := tdel w.latched (faultLatch g) })
          (onRecovery (fun b => { b with faults := lset b.faults g { entries := es, overflow := overflow, next := next } }) s.part))))

/-- A read of CAT_EVENT_ADDR, FLT_EVENT_INFO or word 0 of FLR_FAULT_ENTRY_g latches the head of its queue for the view and returns that
head's word; on an empty queue it returns 0 (R528). -/
def Obligations.HeadReadsLatch : Prop :=
  ∀ (s : State) (view : Nat), viewOpen view s.part = true →
    (∀ (which : Nat) (q : QueueName), (which = 0 ∧ q = .cat ∨ which = 1 ∧ q = .flt) →
      (∀ (e : Event) (es : List Event), (getQueue q s.part).entries = e :: es →
        exec (.eventHeadLatch view which) s = .next (settled s
          (returnRead view e.info (onView view (fun w => { w with latched := tset w.latched (queueBlock q) e }) s.part)))) ∧
      ((getQueue q s.part).entries = [] →
        exec (.eventHeadLatch view which) s = .next (settled s
          (returnRead view 0 (onView view (fun w => { w with latched := tdel w.latched (queueBlock q) }) s.part))))) ∧
    (∀ (g : Nat) (e : FaultEntry) (es : List FaultEntry), g < 8 → (faultQueue g s.part).entries = e :: es →
      exec (.eventHeadLatch view (g + 2)) s = .next (settled s
        (returnRead view e.addr (onView view (fun w => { w with latched := tset w.latched (faultLatch g) (faultEvent e) }) s.part))))

/-- A read of the cores' hardware error register of a tray part returns it and clears it, and a read of MEM_FLIP_HIT returns it and
clears its VALID (R504, R323, R525). -/
def Obligations.ClearingReadsClear : Prop :=
  ∀ (s : State) (view : Nat), viewOpen view s.part = true →
    (isTray s.part = true →
      exec (.apcHwErrorRead view) s = .next (settled s
        (returnRead view s.part.mgmt.apcError.toNat (onManagement (fun m => { m with apcError := 0 }) s.part)))) ∧
    exec (.flipHitRead view) s = .next (settled s
      (onDram (fun d => { d with flipHit := d.flipHit &&& 0x7FFFFFFFFFFFFFFF })
        (returnRead view s.part.dram.flipHit.toNat s.part)))

/-- Clearing ENABLE of a running unit disables it (R436): a gather or filter unit, a mending engine and a channel unit drain while they
have work, a mending engine loses its factor sets and its panels (R273), a channel unit turns its queued commands away (R282), and a reduce engine is
out of service at once (R445). -/
def Obligations.UnitsAreDisabled : Prop :=
  ∀ (s : State) (view n : Nat), viewOpen view s.part = true →
    let p := s.part
    (n < 32 → p.gfu.enable.getD n true = true →
      exec (.gfuUnitDisable view n) s = .next (settled s (onGatherFilter (fun b =>
        { b with enable := lset b.enable n false, draining := lset b.draining n (decide (0 < unitLoad n p)) }) p))) ∧
    (n < 16 → (mendEngine n p).enable = true →
      exec (.mendDisable view n) s = .next (settled s (onCompression (fun b =>
        { b with
          mend := lset b.mend n { mendEngine n p with enable := false, draining := decide (0 < mendLoad n p), panels := [] }
          mendSets := b.mendSets.filter fun m => m.2.2 ≠ n }) p))) ∧
    (n < 24 → p.chu.enable.getD n true = true → (p.chu.cmds.any fun c => c.unit = n) = false →
      exec (.chuUnitDisable view n) s = .next (settled s (onChannelUnits (fun b => { b with enable := lset b.enable n false }) p))) ∧
    (n < 64 → p.flr.reEnable.getD n true = true →
      (let q := onRecovery (fun b => { b with reEnable := lset b.reEnable n false }) p
       exec (.reDisable view n) s = .next (settled s (if bayOut (n / 8) q then failBay (n / 8) q else q))))

/-- The register rows write what they name, each with a value in its range: a shaper's rate and burst, whose bucket starts full or
empty as RESET_FULL says (R364, R380); a policer, both of whose buckets are filled (R367, R381); the bits of the flip mask outside
Vitrine mode (R317, R323); TEL_CAT (R520); FLR_SYS_TWIN (R444); and PWR_MODE written with its mode unchanged (R450). -/
def Obligations.RegisterRowsWrite : Prop :=
  ∀ (s : State) (view : Nat), viewOpen view s.part = true →
    let p := s.part
    (∀ (n : Nat) (v : Word64), n < 512 → field v.toNat 23 0 ≠ 0 → 1024 ≤ field v.toNat 47 24 →
      exec (.shaperConfigWrite view n v) s = .next (settled s (onSwitch (fun b =>
        { b with shapers := tset b.shapers n
                   { rate := field v.toNat 23 0, burst := field v.toNat 47 24, resetFull := bitAt v.toNat 48,
                     tokens := if bitAt v.toNat 48 then (field v.toNat 47 24 : Int) * 1024 else 0,
                     opening := if bitAt v.toNat 48 then (field v.toNat 47 24 : Int) * 1024 else 0, used := [] } }) p))) ∧
    (∀ (n : Nat) (v : Word64), n < 1024 →
      let old := tget p.sw.policers n Policer.reset
      let x : Policer :=
        { old with twoRate := bitAt v.toNat 0, refuse := bitAt v.toNat 1, cir := field v.toNat 31 8, pir := field v.toNat 55 32 }
      policerOk x = true →
      exec (.policerConfigWrite view n 0 v) s = .next (settled s (onSwitch (fun b =>
        { b with policers := tset b.policers n { x with tokC := x.cbs * 1024, tokE := x.ebs * 1024 } }) p))) ∧
    (∀ (n : Nat) (v : Word64), n < 1024 →
      let x : Policer := { tget p.sw.policers n Policer.reset with cbs := field v.toNat 23 0, ebs := field v.toNat 47 24 }
      policerOk x = true →
      exec (.policerConfigWrite view n 1 v) s = .next (settled s (onSwitch (fun b =>
        { b with policers := tset b.policers n { x with tokC := x.cbs * 1024, tokE := x.ebs * 1024 } }) p))) ∧
    (∀ v : Word32, p.gals.vitrine = false → field v.toNat 24 20 ≤ 23 →
      exec (.flipArm view v) s = .next (settled s (onDram (fun d => { d with flipCtrl := BitVec.ofNat 32 (v.toNat % 2 ^ 26) }) p))) ∧
    (∀ id : Word32,
      exec (.telCatQuery view id) s = .next (settled s (onView view (fun w => { w with telCat := id.toNat % 2 ^ 28 }) p))) ∧
    (∀ v : Word32, bitAt v.toNat 12 = false →
      exec (.sysTwinWrite view v) s = .next (settled s (onRecovery (fun b =>
        { b with sysTwin := field v.toNat 11 0, sysValid := false, sysLines := [], mirrors := b.mirrors.filter fun r => !r.system }) p))) ∧
    (∀ v : Word32, pmOk v.toNat = true → pmMode v.toNat = p.power.modeNow →
      exec (.modeWrite view v) s = .next (settled s
        (newTarget false p.power.mode.toNat v.toNat
          (onPower (fun b => { b with mode := BitVec.ofNat 32 (pmMask v.toNat) }) p))))

/-- GAL_PORT_n is written nibble by nibble (R383): where one nibble differs and that port's physical port is disabled, the port takes
the gallery written, and the nibbles that do not differ change nothing. -/
def Obligations.GalleryPortIsWritten : Prop :=
  ∀ (s : State) (view n k : Nat) (v : Word32), viewOpen view s.part = true → n < 32 → k < 8 →
    (∀ j, j < 8 → j ≠ k → field v.toNat (4 * j + 2) (4 * j) = portGallery (8 * n + j) s.part) →
    field v.toNat (4 * k + 2) (4 * k) ≠ portGallery (8 * n + k) s.part →
    tget s.part.links.enable ((8 * n + k) / 2) false = false →
    exec (.galPortWrite view n v) s = .next (settled s
      (onGalleries (fun b => { b with ports := tset b.ports (8 * n + k) (field v.toNat (4 * k + 2) (4 * k)) }) s.part))

/-- TEL_CLEAR of a SAT32 counter puts it back to zero and ends DONE (R508, R520, R527); CENSUS_START of an idle census makes it PENDING
under the next CENSUS_ID; CENSUS_GRANT makes a PENDING one RUNNING, once its class holds the energy, with the time and every counter in
the shadow bank, the two public ones among them; CENSUS_CLOSE makes it DONE and queues CENSUS_DONE (R454, R512 to R515). -/
def Obligations.TelemetryCommandsAct : Prop :=
  ∀ (s : State) (view : Nat),
    (canCommand .census view s.part →
      let t := took .census view s.part
      (∀ id : Word32, ctrClass (id.toNat % 2 ^ 28) = 2 →
        exec (.telClear view id) s = .next (settled s
          (onTelemetry (fun b => { b with live := tdel b.live (id.toNat % 2 ^ 28), seq := seqEnd view 0 0 b.seq }) t))) ∧
      (t.tel.census ≠ .pending → t.tel.census ≠ .running →
        exec (.censusStart view) s = .next (settled s
          (onTelemetry (fun b =>
            { b with census := .pending, censusId := b.censusId + 1, seq := seqEnd view 0 0 b.seq }) t)))) ∧
    (s.part.tel.census = .pending → rinsing s.part = false → canSpend 13 lineCost s.part = true →
      let q := onTelemetry (fun b => { b with census := .running, time := s.part.cur.timer }) (spend 13 lineCost s.part)
      exec .censusGrant s = .next (settled s (onTelemetry (fun b =>
        { b with
          shadowId := b.censusId
          shadow := tset (tset b.live idThrottle { value := throttleCounter q, ovf := false })
            idCensus { value := censusCounter q, ovf := false } }) q))) ∧
    (s.part.tel.census = .running →
      exec .censusClose s = .next (settled s
        (pushEvent .tel 6 (s.part.tel.censusId.toNat * 2 ^ 32) (onTelemetry (fun b => { b with census := .done }) s.part))))

/-- REGISTER_WRITE by offset (R523 to R525): an access of the wrong width or alignment changes no register and is recorded; one at an
unoccupied offset is counted; an 8-byte write of a 64-bit register, and a write of a 32-bit one, reach the register; a write of a low
half is held for the view; and a write of a high half reaches the register together with the half held. -/
def Obligations.RegisterWritesReachTheRegister : Prop :=
  ∀ (s : State) (view off size : Nat) (value : Word64), viewOpen view s.part = true →
    let p := s.part
    let v := value.toNat % 2 ^ (8 * size)
    (widthOk off size (regAt off) = false →
      exec (.registerWrite view off size value) s = .next (settled s (note (blockOf off) 1 none .badAccess [off, size] p))) ∧
    (widthOk off size (regAt off) = true → regAt off = none →
      exec (.registerWrite view off size value) s = .next (settled s (count 1 0 3 1 p))) ∧
    (∀ r : RegPlace, widthOk off size (regAt off) = true → regAt off = some r → blockAnswers (blockOf off) view p = true →
      (r.wide = false →
        exec (.registerWrite view off size value) s = .next (settled s (regWrite r.reg view v p))) ∧
      (r.wide = true → size = 8 →
        exec (.registerWrite view off size value) s = .next (settled s (regWrite r.reg view v (dropHeld view (off - r.at_) p)))) ∧
      (r.wide = true → size = 4 → r.at_ = 0 →
        exec (.registerWrite view off size value) s = .next (settled s
          (onView view (fun w => { w with held := tset w.held off v }) p))) ∧
      (∀ low : Nat, r.wide = true → size = 4 → r.at_ = 4 →
        ((p.views[view]?).bind fun w => tget? w.held (off - 4)) = some low →
        exec (.registerWrite view off size value) s = .next (settled s
          (regWrite r.reg view (low + v * 2 ^ 32) (dropHeld view (off - 4) p)))))

/-! ### Messages, links and the switch core -/

/-- Each of the 48 messages that arrives whole and well formed on an ACTIVE logical port is counted, charged to ingress space and
taken in (R53, R54, R58, R59, R384): one from a peer part as it stands, one from an endpoint with the header that the ingress part
writes, unless it is one that an endpoint may not send or a request of a gallery that is not ACTIVE. -/
def Obligations.MessagesAreTakenIn : Prop :=
  ∀ (s : State) (op port : Nat) (m : Msg) (c : Instr), messageRow op port m c → portActive port s.part = true →
    msgFits op m = true → exec c s = .next (settled s (takeIn port m s.part))

/-- Bring-up moves a logical port from DOWN by TRAIN, LOCK, ALIGN and PARAM to ACTIVE (R43, R47 to R49): ENABLE begins TRAIN where
links run and clearing it takes the port DOWN; a timer that runs out in TRAIN or PARAM takes it DOWN to try again, and one in LOCK or
ALIGN back to TRAIN; in ALIGN it sends its start ordered set and a NULL flit; the peer's start ordered set has it send its INIT flit; and
the peer's INIT flit makes it ACTIVE, with the credits that the peer offers, or takes it DOWN where it does not suit. -/
def Obligations.LinksComeUp : Prop :=
  ∀ (s : State) (port : Nat),
    let p := s.part
    let x := lport port p
    (∀ fp : Nat, fp < 128 → p.cur.power = .coreOn → p.cur.fastPending = false →
      (tget p.links.enable fp false = false → linksRun p = true → fp ∉ p.power.ecoDown →
        exec (.linkEnable fp) s = .next (settled s
          ((portsOf fp p).foldl (fun s p => beginTrain p s) (onLinks (fun l => { l with enable := tset l.enable fp true }) p)))) ∧
      (tget p.links.enable fp false = true →
        exec (.linkDisable fp) s = .next (settled s
          ((portsOf fp p).foldl (fun s p => disablePort p s) (onLinks (fun l => { l with enable := tset l.enable fp false }) p))))) ∧
    (x.link = .train → exec (.pmdTrained port) s = .next (settled s
      (onPort port (fun y => { y with link := .lock, startSeen := false }) p))) ∧
    (x.link = .train → x.retraining = false → exec (.trainTimeout port) s = .next (settled s
      (note 3 1 none .trainFailed [port, BringUpFailure.train.detail]
        (onPort port (fun y => { y with link := .down, retryWait := true, startSeen := false }) p)))) ∧
    (portEnabled port p = true → linksRun p = true → (port % 2 = 0 ∨ brokenOut (port / 2) p = true) → port < 256 → x.link = .down →
      exec (.trainRetry port) s = .next (settled s
        (onPort port (fun y =>
          if y.link = .down then
            { y with link := .train, lanes := if brokenOut (port / 2) p then 2 else 4, retraining := false, startSeen := false }
          else y) p))) ∧
    (x.link = .lock → exec (.pcsLocked port) s = .next (settled s
        (onPort port (fun y => { y with link := .align, startSeen := false, out := [startOrderedSet, idleFlit y] }) p)) ∧
      exec (.lockTimeout port) s = .next (settled s (onPort port (fun y => { y with link := .train, startSeen := false }) p))) ∧
    (x.link = .align → exec (.xenusStartSet port) s = .next (settled s
        (onPort port (fun y => { y with link := .param, startSeen := true, out := [initFlit port p] }) p)) ∧
      exec (.alignTimeout port) s = .next (settled s (onPort port (fun y => { y with link := .train, startSeen := false }) p))) ∧
    (x.link = .param → x.retraining = false →
      (∀ f : List Byte, flitGood f = true → flitType f = 2 →
        (initSuits x f = true →
          exec (.initFlit port f) s = .next (settled s (takeLinkHeader port f (zeroTimes port (onPort port (freshActive f) p))))) ∧
        (initSuits x f = false →
          exec (.initFlit port f) s = .next (settled s
            (note 3 1 none .paramMismatch [port, (initMismatch f).detail]
              (onPort port (fun y => { y with link := .down, retryWait := true, startSeen := false }) p))))) ∧
      exec (.paramTimeout port) s = .next (settled s
        (note 3 1 none .paramMismatch [port, BringUpFailure.noInit.detail]
          (onPort port (fun y => { y with link := .down, retryWait := true, startSeen := false }) p))))

/-- What flits do on an ACTIVE logical port (R44, R46, R50, R51): a DATA flit with a good CRC and the next SEQ is accepted, and the
bytes of its payload are taken; a NULL or CONTROL flit's acknowledgement, credits and NAK are taken (R54); an acknowledgement or credits due are sent; an
acknowledgement that does not come has every unacknowledged flit sent again, up to the replay limit; a lost lock, or the command to,
retrains the port; and a retraining that does not end takes it DOWN. -/
def Obligations.LinksCarryFlits : Prop :=
  ∀ (s : State) (port : Nat),
    let p := s.part
    let x := lport port p
    (x.retraining = true → exec (.retrainTimeout port) s = .next (settled s (portGoesDown port .portDown true p))) ∧
    (portActive port p = true →
      (∀ f : List Byte, flitGood f = true → flitType f = 1 → flitSeq f = x.rxExp.toNat →
        exec (.dataFlit port f) s = .next (settled s
          (let q := onPort port (fun y => { y with rxExp := y.rxExp + 1, rxAny := true, nakSent := false, unacked := y.unacked + 1 })
            (takeLinkHeader port f (countPort port 4 1 p))
           takePayload port (flitFirst f) (flitPayload f)
            (if 16 ≤ (lport port q).unacked then sendNull port false q else q)))) ∧
      (∀ f : List Byte, flitGood f = true → flitType f = 0 →
        exec (.nullFlit port f) s = .next (settled s (takeLinkHeader port f (countPort port 4 1 p)))) ∧
      (∀ f : List Byte, flitGood f = true → flitType f = 2 →
        exec (.initFlit port f) s = .next (settled s (takeLinkHeader port f (countPort port 4 1 p)))) ∧
      (0 < x.unacked ∨ creditsNow port p ≠ [] → exec (.ackDue port) s = .next (settled s (sendNull port false p))) ∧
      (x.replay ≠ [] → x.replays < tget p.links.replayLimit (port / 2) 8 →
        exec (.ackTimeout port) s = .next (settled s
          (countPort port 64 1 (onPort port (fun y => { y with replays := y.replays + 1, out := y.replay }) p)))) ∧
      (let again := countPort port 65 1 (onPort port (fun y => { y with link := .train, retraining := true, startSeen := false }) p)
       exec (.linkRetrain port) s = .next (settled s again) ∧ exec (.lockLost port) s = .next (settled s again)))

/-- The switch core (R354, R357, R361 to R363, R367, R368, R373): a cell time fills the buckets and moves the cells that the matcher
has paired, and the messages to be replicated are; a transmitter starts the head it chooses, where the replay buffer holds its flits, and
sends a NULL flit where it has none; a stalled message is truncated unless a replay is awaited; and a
message that waits, held red or for room, is coloured again or admitted. -/
def Obligations.SwitchCoreMoves : Prop :=
  ∀ (s : State) (port vc : Nat),
    let p := s.part
    exec .cellTime s = .next (settled s
      (let q := onSwitch (fun w => { w with shapers := tmap w.shapers refillShaper, policers := tmap w.policers refillPolicer }) p
       multicastCell q)) ∧
    (portActive port p = true →
      (∀ q : Queued, chooseHead port p = some q → (lport port p).replay.length + flitsOf q.msg ≤ 64 →
        exec (.messageStart port) s = .next (settled s (sendMessage port q.msg (headStarts q (mirrorOut q p))))) ∧
      (chooseHead port p = none → exec (.messageStart port) s = .next (settled s (sendNull port false p))) ∧
      (∀ b : Partial, (lport port p).rxPartial = some b → b.vc = vc → (lport port p).nakSent = false →
        exec (.stallTimerExpiry port vc) s = .next (settled s (truncatePort port p)))) ∧
    (∀ (w : Waiting) (rest : List Waiting), tget p.sw.waiting (waitKey port vc) [] = w :: rest →
      (w.colour = .red → (colourMsg port w.policer w.msg p).1 ≠ .red →
        exec (.policerRecolour port vc) s = .next (settled s
          (let r := colourMsg port w.policer w.msg p
           admitWaiting port vc (onSwitch (fun x =>
            { x with waiting := tset x.waiting (waitKey port vc) ({ w with colour := r.1 } :: rest) }) r.2)))) ∧
      (∀ t : Part, w.colour ≠ .red → passOn port w (dropFirstWaiting (waitKey port vc) p) = some t →
        exec (.bufferAdmission port vc) s = .next (settled s t)))

/-! ### What the timers and the engines of the part bring about -/

/-- The timers of ordering (R68, R70, R72, R75, R76, R282, R428, R434): an ordered message that is still unacknowledged is sent
again; a request that is not answered completes with TIMEOUT, unless it is a recall notice that its loan still holds (R33), and so
does a fence whose messages are not; an idle stream begins anew, but for what it has carried since its last mark (R74), and the
empty slots of one at its destination are freed; a kept answer of an atomic is dropped; a write-through that its twin has not
answered ends as one that the twin refused; and a SEND that stands still is reported. That an unacknowledged FENCE_MARK leaves its
stream idle, that a message still held at this home is discarded unperformed at its completion timeout, and how the failed
write-through of a channel unit ends its command are the model's readings (log entries 17 and 57). -/
def Obligations.OrderingTimersAct : Prop :=
  ∀ (s : State) (part agent tag dst : Nat) (sseq : BitVec 24),
    let p := s.part
    (∀ u : Unacked, (stream agent dst p).unacked.find? (fun u => decide (u.msg.sseq = sseq)) = some u →
      exec (.retransmitTimer agent dst sseq) s = .next (settled s (retransmit agent dst u p))) ∧
    (let q := discardHeld part agent tag p
     part = myPart q →
      (∀ f : FenceRec, q.links.fences.find? (fun f => decide (f.agent = agent) && decide (f.msg.tag.toNat = tag)) = some f →
        exec (.completionTimeout part agent tag) s = .next (settled s (fenceTimeout f q))) ∧
      (∀ t : Tracked, q.links.fences.find? (fun f => decide (f.agent = agent) && decide (f.msg.tag.toNat = tag)) = none →
        tget? q.links.tracked (trackKey agent tag) = some t →
        exec (.completionTimeout part agent tag) s = .next (settled s (if recallPends t.msg q then q else timeoutRequest agent t q)))) ∧
    (((stream agent dst p).unacked.all fun u => decide (u.msg.op = 0x11)) = true →
      exec (.streamIdleExpiry agent dst) s = .next (settled s
        (onLinks (fun l =>
          { l with streams :=
            if (stream agent dst p).sinceMark then tset l.streams (streamKey agent dst) { SrcStream.start with sinceMark := true }
            else tdel l.streams (streamKey agent dst) }) p))) ∧
    exec (.reseqSlotIdle part agent) s = .next (settled s (onLinks (fun l =>
      { l with
        reseq := l.reseq.filter fun r =>
          !((r.1 = part * 512 + agent || r.1 = part * 512 + agent + 2 ^ 21) && r.2.held.isEmpty) }) p)) ∧
    exec (.atomicCacheExpiry part agent sseq) s = .next (settled s (onLinks (fun l =>
      { l with atomics := l.atomics.filter fun a => !(a.part = part && a.agent = agent && a.sseq = sseq) }) p)) ∧
    (∀ w : WriteThrough, p.flr.throughs.find? (fun w => decide (w.agent = agent) && decide (w.tag.toNat = tag)) = some w → w.kind ≠ .send →
      exec (.twinWriteTimeout agent tag) s = .next (settled s
        (throughAnswered agent tag stTimeout (if agent = agChu then chuThroughFails tag stTimeout p else p)))) ∧
    (∀ twin : Nat, p.flr.standIn = .shadow → twin ∈ p.flr.senders → shadowOver p = false →
      exec (.sendStall twin) s = .next (settled s (flrEvent 3 0 twin 0 p)))

/-- The timers of the pool (R29, R31, R33, R34, R85, R99, R100, R111, R135 to R137, R141): an offer that still stands is declined;
the grace of a recall ends with the loan lost; a recalled extent is copied to the place kept for it, line by line as the lender returns
them, which is as they were encrypted, with its tags; a stalled copy asks again; a
revocation ends with the lender's requests of the old epoch abandoned and the extent LIVE, and a move that waited for it switches
(R340); a directory's initialisation ends; the command that waits for a region's requests ends; every lease whose time has come
expires; a walk of the directory ends; and a member that has not answered a snoop is taken as having lost the line. -/
def Obligations.PoolTimersAct : Prop :=
  ∀ (s : State) (i e view : Nat),
    let p := s.part
    ((loanAt i p).state = .offered → exec (.loanOfferExpiry i) s = .next (settled s (declineOffer i p))) ∧
    ((loanAt i p).state = .recalling → exec (.recallGraceExpiry i) s = .next (settled s (loseLoan i p))) ∧
    (∀ (c : CopyJob) (bytes : List (List Byte)), p.pool.copies.find? (fun c => decide (c.src = e) && c.running) = some c →
      c.stalled = false → bytes.isEmpty = false → portActive c.lender p = true →
      exec (.recallCopyDone e bytes) s = .next (settled s
        (let x := extentAt e p
         let q := (List.range pagesPerExtent).foldl (fun q n =>
          setTag (c.dest * pagesPerExtent + n) (pageTag (e * pagesPerExtent + n) q).epoch
            (pageTag (e * pagesPerExtent + n) q).split q) p
         let q := (List.range linesPerExtent).foldl (fun q n =>
          let b := lenderLine bytes n
          storeLine (c.dest * linesPerExtent + n) (if b.length ≠ 128 then errorValue 128 else b) (decide (b.length ≠ 128)) none q) q
         let place : Place := if c.dest < interleavedExtents q then .interleaved else .channelLocal
         let l := ((loanOf e q).map (·.1)).getD 4096
         let q := putExtent e { x with state := .free, object := 0 }
          (putExtent c.dest { x with state := .live, place := place, detail := 0 } q)
         loanEnds l (startCopies (loanEvent 7 (e + c.dest * 2 ^ 18)
          (onPool (fun b => { b with copies := b.copies.filter fun d => d.src ≠ e }) q)))))) ∧
    exec (.lenderReadRetry e) s = .next (settled s (onPool (fun b =>
      { b with
        copies := b.copies.map fun c => if c.src = e && portActive c.lender p then { c with stalled := false } else c }) p)) ∧
    (∀ r : Revocation, p.pool.revokes.find? (fun r => decide (r.ext = e)) = some r →
      exec (.revokeComplete e) s = .next (settled s
        (switchReady (let q := (p.pool.lenderReqs.filter fun q => q.ext = e && q.epoch ≠ (extentAt e p).epoch).foldl (fun s q => abandonLender q s) p
         let q := onPool (fun b => { b with revokes := b.revokes.erase r }) q
         let q := if (extentAt e q).state = .revoking then changeExtent e (fun x => { x with state := .live }) q else q
         let q := onFlash (fun b => { b with moves := b.moves.map fun m => if m.src = e then { m with revoking := false } else m }) q
         runSeq (·.pool.extSeq) (fun k => onPool fun b => { b with extSeq := k }) extPerform 8 (extEnd r.view 0 e q))))) ∧
    exec (.catalogueInitDone e) s = .next (settled s
      (onCatalogue (fun b => { b with initBusy := b.initBusy.filter fun x => x ≠ e }) p)) ∧
    (∀ (object : Word64) (before : List Msg), p.regions.wait = some (.drain view object before) → regionBusy before p = false →
      exec (.regionDrainEnd view) s = .next (settled s (runRegions (onRegions (fun b =>
        { b with wait := none, seq := seqEnd view 0 (p.regions.seq.value.getD view 0) p.regions.seq }) p)))) ∧
    (running p = true → exec .leaseSweep s = .next (settled s
      ((p.regions.leases.filter fun l => l.expiry ≤ p.cur.timer).foldl (fun s l => leaseExpires l s) p))) ∧
    (∀ (w : Walk) (rest : List Walk), p.cat.walks = w :: rest → walkBusy w p = false →
      exec .catalogueWalkEnd s = .next (settled s
        (let walked := (walkExtents w p).length
         let q := onCatalogue (fun c =>
          { c with
            walks := rest
            members := if w.kind = .remove then tdel c.members (w.group * 256 + w.member) else c.members }) p
         let q := if w.kind = .hostLost then catEvent 3 w.group w.member 0 q else q
         runSeq (·.cat.seq) (fun k => onCatalogue fun c => { c with seq := k }) catPerform 8 (catEnd w.view 0 walked q)))) ∧
    (∀ (line n : Nat) (t : CatTxn) (w : SnoopWait), tget? p.cat.txns line = some t → t.snoops.find? (fun w => decide (w.member = n)) = some w →
      exec (.snoopTimeout line n) s = .next (settled s (snoopLost line t w (catEvent 1 t.group n (catAddr line p) p))))

/-- The events of the engines (R171 to R174, R189, R190, R212, R223, R231, R232, R240, R253, R258): a stalled reduction marks shards
absent where it runs and its descriptor is PARTIAL, and fails where it does not; a gather takes a line that has been read, and is
stopped at its run limit; a running stream's next tile is begun; a produced tile is handed to every member that takes it, with the
error value where it failed, and TILE_BAD for the first bad one of a pass; a tile is counted late once under the cause that holds it,
be it begun or not; a member that holds every slot is reported, and detached where the part is set to; the LOAD or DROP that waits for
a table's last reference goes on, or is refused with SLOT_BUSY; and a running job runs to its end. -/
def Obligations.EngineEventsAct : Prop :=
  ∀ (s : State) (i n : Nat),
    let p := s.part
    (∀ x : Context, ctxAt i p = some x → ctxStalled x = true →
      (x.state = .running → ctxPartial x.desc = true → exec (.ctxTimeout i) s = .next (settled s (partialCtx i x p))) ∧
      ((x.state = .running ∧ ctxPartial x.desc = false ∨ x.state = .closing) →
        exec (.ctxTimeout i) s = .next (settled s (failCtx i x p)))) ∧
    (∀ (k tag : Nat) (q : GfuReq),
      (p.gfu.requests.find? (fun r => decide (r.2.unit = i) && r.2.reads.any fun a => a.tag = tag && a.answer.isSome && !a.taken)
          = some (k, q) →
        exec (.gfuReadReturn i tag) s = .next (settled s (gfuGo k { q with
          reads := q.reads.map fun a => if a.tag = tag && a.answer.isSome then { a with taken := true } else a } p))) ∧
      (p.gfu.requests.find? (fun r => decide (r.2.unit = i) && decide (r.2.req.tag.toNat = tag)) = some (k, q) →
        exec (.gfuRunLimitExpiry i tag) s = .next (settled s (gfuHalt k stTimeout p)))) ∧
    (∀ x : Stream, strAt i p = some x →
      (x.state = .running → exec (.tileProductionStart i) s = .next (settled s
        (goStream streamSteps i (putStr i { x with starting := true } p)))) ∧
      (∀ (t : TileRun) (rest : List TileRun), x.tiles = t :: rest → t.stage = .ready →
        exec (.tileHanded i) s = .next (settled s
          (let data := if t.filled then errorValue (tdBytes t.desc) else tileData t.desc t.values
           let members := (x.members.filter fun m => m.joined && m.first ≤ t.number).map (·.index)
           let ms := tilePieces x t data p
           let q := ms.foldl (fun q m => replicate m (prGroup x.header) 0 (some members) (tileBay i t) q) (putStr i { x with tiles := rest } p)
           let q := count 9 i 0 1 (count 9 i 1 ms.length (sampleTime 9 i 0 q))
           let q := if t.filled then q else count 9 i 68 (clampedCount t.desc t.values data) (count 9 i 69 (nanBlocks t.desc data) q)
           let q := if t.status = 0 then q else count 9 i 70 1 q
           let q := if t.status = 0 ∨ x.badPass = true then q else strEvent 6 i 0 q
           let q := if rcSource t.record = 2 ∧ t.filled = false then count 10 (64 + t.engine.getD 0) 1 1 q else q
           settleStream i { x with tiles := rest, lastHand := some q.cur.timer, handed := x.handed + 1, badPass := x.badPass || t.status ≠ 0 } q))) ∧
      (x.state = .running ∨ x.state = .stopping →
        (∀ t : TileRun, x.tiles.find? (fun t => decide (t.number = n)) = some t → t.late = false → rcDeadline t.record ≠ 0 →
          exec (.tileDeadline i n) s = .next (settled s (putStr i
            { x with
              tiles := x.tiles.map fun u => if u.number = n then { u with late := true } else u
              latePass := min 0xFFFFFFFF (x.latePass + 1) }
            (count 9 i (64 + lateCause x n) 1 p)))) ∧
        (x.tiles.find? (fun t => decide (t.number = n)) = none → x.nextTile ≤ n → n ∉ x.lateNew →
          exec (.tileDeadline i n) s = .next (settled s (putStr i
            { x with lateNew := n :: x.lateNew, latePass := min 0xFFFFFFFF (x.latePass + 1) }
            (count 9 i (64 + lateCause x n) 1 p))))) ∧
      (∀ m : StreamMember, memberAt x n = some m → m.joined = true → (sentTo x m - m.released).toNat = prSlots x.header →
        exec (.memberStallTimer i n) s = .next (settled s
          (let q := strEvent 4 i n p
           if bitAt q.str.ctrl 16 then detachMember i n q else q)))) ∧
    (∀ r : SlotRun, p.cmp.slotRun = some r → r.waiting = true →
      ((∀ g : Nat, awaitedGen r.load r.gen (foldSlot r.slot p) = some g → tableRefs r.slot g p = 0) →
        exec .foldSlotWaitEnd s = .next (settled s (runSlots (slotProceed r p)))) ∧
      exec .foldSlotWaitTimeout s = .next (settled s (runSlots (slotEnd r.view 4 p)))) ∧
    (∀ x : FoldJob, jobAt i p = some x → x.state = .running →
      exec (.jobEnd i) s = .next (settled s (goJob jobSteps i (putJob i { x with go := true } p))))

/-- The events of pool DRAM and of the channel units (R279, R280, R282, R287, R299, R300, R309, R314, R454): the head of a unit's queue
starts where its class holds the energy of a line, or fails its checks; a running command that has been given its energy writes the
rest of D and ends; a refresh is counted, and the channel's unit yields; a retraining step takes its turn's energy and is counted, or
waits for it; a lost sub-channel is lost for good; and a running fill or survey that has been given its energy goes over the rest of
its lines. How much energy a line and a retraining step take is left open (log entry 39). -/
def Obligations.MemoryEventsAct : Prop :=
  ∀ (s : State) (n : Nat),
    let p := s.part
    (∀ c : ChuCmd, (chuRunning n p).isSome = false → canSpend 4 lineCost p = true → p.chu.cmds.find? (fun c => decide (c.unit = n)) = some c →
      exec (.chuCommandStart n) s = .next (settled s
        (if startStatus c.desc p ≠ stOK then chuFails (startStatus c.desc p) c p
         else onChannelUnits (fun b => { b with cmds := b.cmds.map fun k => if k = c then { k with running := true } else k }) p))) ∧
    (∀ c : ChuCmd, chuRunning n p = some c → c.ended = false → chuWaits c p = false → chuCost c.desc ≤ c.paid →
      exec (.chuCommandEnd n) s = .next (settled s
        (onChuCmd n (fun _ => { (chuRun (chuTotal c.desc) c p).1 with ended := true }) (chuRun (chuTotal c.desc) c p).2))) ∧
    (channelTrained n p = true →
      exec (.refreshDue n) s = .next (settled s
        (chuYields n (count 11 n 2 1 (onChannel n (fun c => { c with refreshes := c.refreshes + 1 }) p)))) ∧
      (canSpend 9 retrainCost p = true →
        exec (.dramRetrainStep n) s = .next (settled s (count 11 n 3 1 (spend 9 retrainCost p)))) ∧
      (canSpend 9 retrainCost p = false →
        exec (.dramRetrainStep n) s = .next (settled s (onPower (fun q => { q with due := q.due ++ [.retrain n] }) p))) ∧
      (((p.dram.channels[n]?).map (·.lost)).getD false = false →
        exec (.subchannelLost n) s = .next (settled s
          (flrEvent 9 0 0 0 (note 11 2 none .subchannelLost [n] (onChannel n (fun c => { c with lost := true }) p)))))) ∧
    (∀ r : FillRun, p.dram.fill = some r → fillWaits r.firstLine r.lines p = false → fillCost r.lines ≤ r.paid →
      exec .fillEnd s = .next (settled s
        (let q := onMemory (if r.early.isNone then fillLines (fillRange r) else fillRest (fillRange r)) p
         fillEndCmd r.view 0 (r.lines / linesPerExtent * 2 ^ 32) (onDram (fun d => { d with fill := none })
          (fillFollows r (fun line => !isEarly r line) q))))) ∧
    (∀ r : SurveyRun, p.dram.survey = some r → surveyCost r.len ≤ r.paid →
      exec .surveyEnd s = .next (settled s (surveyOver r (surveyLines r (fun k => !surveyEarly r.early k) p))))

/-- The events of NVMe and of moves (R327, R329, R332, R335, R336, R340, R341, R344, R347, R454): a copy whose class has given its energy
is completed; a room that nothing
holds returns; an enrolment ends with a new journal, whose HEADER goes to the drive; a page that was read goes to its room page,
with the blocks that failed poisoned; a command's completion does what its use asks; one that is late is aborted, an Asynchronous
Event Request alone is never late (the model's presumption, log entry 45); a drive that does not answer the Abort goes DOWN; and a
data zone that holds no extent is reset, once the journal is flushed. Which blocks of a failed 64 KiB read fail is left free, as log
entry 45 says. -/
def Obligations.FlashEventsAct : Prop :=
  ∀ (s : State) (d cid : Nat),
    let p := s.part
    (∀ m : Move, moveNum d p = some m → m.copied = false → moveCost ≤ m.paid →
      (p.chu.cmds.any fun c => c.running && chuExt c.desc = m.src) = false →
      (driveServes m.drive p = true ∨ isKept m.src p = true) →
      exec (.moveCopyDone d) s = .next (settled s (switchReady (if m.demote then copyDemote m p else copyPromote m p)))) ∧
    (∀ view : Nat, p.flt.run = some (.removeRoom view d) →
      ((takenRooms (evictRoom d p)).any fun r => r / 4096 = d) = false →
      exec .removeRoomDone s = .next (settled s (checkRoom (fltEnd view 0 (onFlash (fun b =>
        { b with
          room := b.room.filter fun x => x ≠ d
          removing := b.removing.filter fun x => x ≠ d
          run := none }) (evictRoom d p)))))) ∧
    (∀ view : Nat, p.flt.run = some (.enroll view d) →
      exec .enrollDone s = .next (settled s
        (let q := onDrive d (fun y =>
          { voidUses (fun u => u ≠ .asyncEvent) y with
            state := .ready, zones := [], journal := [[headerBytes d (myPart p) 0], []], active := 0, jseq := 1 }) p
         let q := journalWrites d 0 1 (count 13 d 2 (drive d q).nzones (note 13 0 none .enrolled [d] q))
         fltEnd view 0 (onFlash (fun b => { b with run := none, bound := b.bound.filter fun p => driveOf p.1 ≠ d }) q)))) ∧
    (∀ (page : Nat) (bad : List Nat) (room : Nat),
      let k := driveOf (page / 4096)
      (drive k p).cmds.findSome? (stagingRoom page) = some room →
      exec (.pageStaged page bad) s = .next (settled s
        (let q := fillRoom page room bad (onDrive k (fun y => { y with cmds := y.cmds.filter fun c => (stagingRoom page c).isNone }) p)
         let q := count 13 k 3 1 (count 13 k 64 (bad.filter (· < 16)).length q)
         let pins := ((q.flt.wanted.filter fun w => w.1 = page).map (·.2)).eraseDups
         stageWaiting (serveStaged page (onFlash (fun b =>
          { b with staged := tset b.staged page { room := room, pins := pins, used := q.flt.clock, kept := false } }) q))))) ∧
    (∀ (c : NvmeCmd) (status : Nat), (drive d p).cmds.find? (fun c => decide (c.cid = cid)) = some c →
      (∀ page room : Nat, c.use = .stage page room → status = 0 →
        exec (.nvmeCompletion d cid status) s = .next (settled s (pageStaged page [] (sampleTime 13 d 0 p)))) ∧
      (∀ block : Nat, c.use = .direct block →
        exec (.nvmeCompletion d cid status) s = .next (settled s
          (directDone block status (nvmeDone d cid (sampleTime 13 d 0 p))))) ∧
      (∀ n k : Nat, status = 0 →
        (c.use = .moveRead n k →
          exec (.nvmeCompletion d cid status) s = .next (settled s
            (onMove n (fun m => { m with next := k + 1 }) (nvmeDone d cid (sampleTime 13 d 0 p))))) ∧
        (c.use = .moveWrite n k →
          exec (.nvmeCompletion d cid status) s = .next (settled s (onMove n (fun m => { m with next := k + 1 }) (nvmeDone d cid p))))) ∧
      (∀ z : Nat, c.use = .reset z → 2 ≤ z → exec (.nvmeCompletion d cid status) s = .next (settled s
        (if status = 0 then zoneIsReset d z p else resetDeadZones d (nvmeDone d cid p)))) ∧
      ((∀ old : Nat, c.use ≠ .abort old) → c.use ≠ .asyncEvent → NvmeUse.abort cid ∉ usesOf (drive d p) →
        exec (.nvmeTimeout d cid) s = .next (settled s (nvme d (.abort cid) false (count 13 d 65 1 p)))) ∧
      (∀ old : Nat, c.use = .abort old →
        exec (.nvmeAbortTimeout d cid) s = .next (settled s (driveDown d p)))) ∧
    (∀ z : Nat, 2 ≤ z → (zoneAt d z p).wp ≠ 0 → (zoneAt d z p).live.isEmpty = true → zoneWriting d z p = false →
      driveServes d p = true → ((usesOf (drive d p)).any isJournal) = false →
      exec (.zoneReset d z) s = .next (settled s (count 13 d 2 1 (onDrive d (fun y =>
        { y with
          cmds := y.cmds.filter fun c => c.use ≠ .reset z
          held := y.held.filter fun h => h.use ≠ .reset z
          zones := tdel y.zones z }) p))))

/-- What becomes of a drive (R324, R325, R343 to R345, R553): a poll records its wear and warns where the drive does, or waits for its class's
energy (R454); an asynchronous event is noted and warns, and completes a request for it, which is issued again, its log page read; a link that is lost
takes the drive DOWN, its commands dropped and its moves stopped, with an event and a note; its presence is taken up, its reset
released, and its removal is a surprise; and a drive that is ready is rejected with the requirement that it fails, unenrolled,
foreign or taken in by its journal. -/
def Obligations.DrivesComeAndGo : Prop :=
  ∀ (s : State) (d critical percent : Nat),
    let p := s.part
    (driveServes d p = true →
      (canSpend 13 lineCost p = true →
        exec (.smartPoll d critical percent) s = .next (settled s
          (let q := onDrive d (fun y => { y with percent := min percent 255 }) (spend 13 lineCost p)
           if critical ≠ 0 then driveWarns d q else q))) ∧
      (canSpend 13 lineCost p = false →
        exec (.smartPoll d critical percent) s = .next (settled s
          (onPower (fun q => { q with due := q.due ++ [.poll d critical percent] }) p))) ∧
      (∀ zones : List Nat, zones.isEmpty = false → ((drive d p).cmds.find? fun c => c.use = .asyncEvent) = none →
        exec (.nvmeAsyncEvent d critical zones) s = .next (settled s
        (let q := note 13 0 none .journal (d :: zones) p
         if critical ≠ 0 then driveWarns d q else q)))) ∧
    (∀ (c : NvmeCmd) (zones : List Nat), ((drive d p).cmds.find? fun c => c.use = .asyncEvent) = some c →
      exec (.nvmeAsyncEvent d critical zones) s = .next (settled s
        (let q := nvme d (.getLog (if zones = [] then 0x02 else 0xBF)) false (nvme d .asyncEvent false (nvmeDone d c.cid p))
         let q := if zones = [] ∨ driveServes d q = false then q else note 13 0 none .journal (d :: zones) q
         if critical ≠ 0 then driveWarns d q else q))) ∧
    ((drive d p).state ≠ .absent → (drive d p).state ≠ .down →
      exec (.driveLinkDown d) s = .next (settled s
        (let q := onDrive d (fun y => { y with state := .down, rate := 0, width := 0, cmds := [], held := [] }) p
         let q := (q.flt.moves.filter fun m => m.drive = d).foldl (fun s m => stopMove m.num (some stTimeout) s) q
         failWaiting d (enrollFails d (flashEvent 3 0 d 0 0 (note 13 2 none .driveDown [d] q)))))) ∧
    (∀ info : DriveInfo, (drive d p).present = true → (drive d p).perst = false →
      (drive d p).state = .starting ∨ (drive d p).state = .down →
      linkRate info ≠ 0 → linkWidth info ≠ 0 →
      (∀ k : Nat, failedItem info = some k → exec (.driveReady d info) s = .next (settled s
        (note 13 1 none .driveRejected [d, k] (onDrive d (fun y =>
          { y with state := .rejected, rate := linkRate info, width := linkWidth info, cmds := [], held := deleteQueues }) p)))) ∧
      (failedItem info = none → info.journal.filterMap headerOf = [] →
        exec (.driveReady d info) s = .next (settled s (onDrive d (driveShown info .unenrolled []) p))) ∧
      (failedItem info = none → ((info.journal.filterMap headerOf).any fun h => h ≠ (myPart p, d)) = true →
        exec (.driveReady d info) s = .next (settled s (onDrive d (driveShown info .foreign []) p))) ∧
      (failedItem info = none → info.journal.filterMap headerOf ≠ [] → (∀ h ∈ info.journal.filterMap headerOf, h = (myPart p, d)) →
        exec (.driveReady d info) s = .next (settled s (replayDrive d info p)))) ∧
    (d < 8 →
      exec (.driveInserted d) s = .next (settled s (onDrive d (fun y => { y with present := true }) p)) ∧
      exec (.driveRemoved d) s = .next (settled s (onFlash (fun b => { b with npDown := b.npDown.filter fun k => k ≠ d })
        (onDrive d (fun y => { y with present := false, perst := true }) (driveDown d p)))) ∧
      (rootPortOn d p = true → (drive d p).present = true → (drive d p).perst = true → p.cur.power = .coreOn → 6 ≤ p.cur.phase →
        exec (.npPerstRelease d) s = .next (settled s (onDrive d (fun y => { startDrive y with perst := false, fresh := true }) p))))

/-- The events of the galleries and of recovery (R385 to R387, R399, R436 to R438, R441, R490): rinses put off by a census begin
when it ends; a rinse and a drain end, with their events; a rotation re-encrypts a page, in DRAM at once and at a lender line by line;
a self-test, and the check of a chunk or tile that has been chosen for one, charge the engines that fail them, each of these where its
class holds the energy, without which it waits (R454), but for a self-test that Iron mode runs as ballast (R458); what a bound drain
has left is aborted; a function's drain is abandoned; and a host port is reset. -/
def Obligations.GalleryAndRecoveryEventsAct : Prop :=
  ∀ (s : State) (g n : Nat),
    let p := s.part
    (∀ v : Nat, p.gals.rinseView = some v → p.tel.census ≠ .running →
      exec .rinseDeferredStart s = .next (settled s
        (let gs := p.gals.rinseWait
         rinseIdle v gs (rinseStarts gs p.gals.rinseAll
          (onGalleries (fun b => { b with rinseWait := [], rinseAll := false, rinseView := none }) p))))) ∧
    ((gallery g p).state = .rinsing → exec (.rinseComplete g) s = .next (settled s
      (let q := onGallery g (fun x => { x with state := .vacant }) (count 14 g 1 1 p)
       galReached g (galEvent 2 g
        (if q.gals.gals.any fun x => x.state = .rinsing then q else onGalleries (fun b => { b with rinseFull := false }) q))))) ∧
    ((gallery g p).state = .draining →
      (galIdle g p = true → exec (.galleryDrainEnd g) s = .next (settled s
        (galReached g (galEvent 1 g (onGallery g (fun x => { x with state := .disabled }) p))))) ∧
      exec (.drainBoundExpiry (.gallery g)) s = .next (settled s (abortGallery g p))) ∧
    (∀ x : Context, ctxAt n p = some x → x.state = .closing →
      exec (.drainBoundExpiry (.context n)) s = .next (settled s (abortCtx n p))) ∧
    (∀ x : Stream, strAt n p = some x → x.state = .stopping →
      exec (.drainBoundExpiry (.stream n)) s = .next (settled s (abortStream n p))) ∧
    (p.gfu.draining.getD n false = true → exec (.drainBoundExpiry (.gfuUnit n)) s = .next (settled s (gfuAbortUnit n p))) ∧
    ((mendEngine n p).draining = true → exec (.drainBoundExpiry (.mendEngine n)) s = .next (settled s (mendAbort n p))) ∧
    (p.chu.draining.getD n false = true → exec (.drainBoundExpiry (.channelUnit n)) s = .next (settled s (chuAbort n p))) ∧
    (∀ page : Nat, (gallery (pageUnit page p).1.gallery p).rotating = true →
      ((gallery (pageUnit page p).1.gallery p).previous.map (·.epoch)) = some (pageTag page p).epoch →
      thas p.gals.tags page = true → canSpend 11 pageCost p = true →
      exec (.reencryptPage page) s = .next (settled s
        (if (pageUnit page p).1.place = .loan then startLoanPage page (spend 11 pageCost p)
         else reencryptPage (pageUnit page p).1 page (pageUnit page p).2 (spend 11 pageCost p)))) ∧
    (∀ e wrong : Nat, e < 80 →
      let ran (q : Part) : Part := (List.range wrong).foldl (fun s _ => charge none e s)
        (onRecovery (fun b => { b with selftests := b.selftests.filter fun x => x ≠ e }) q)
      (e ∈ p.flr.selftests → canSpend 14 (testCost e) p = true →
        exec (.selftestRun e wrong) s = .next (settled s (ran (spend 14 (testCost e) p)))) ∧
      (e ∉ p.flr.selftests → p.power.modeNow = 1 → exec (.selftestRun e wrong) s = .next (settled s (ran p)))) ∧
    (∀ (a b : Nat) (charged : List Nat) (c : SpotItem), checkPair a b = true → chargesOk a b charged = true → dueCheck a p = some c →
      (canSpend 14 (testCost a) p = true →
        exec (.spotCheck a b charged) s = .next (settled s (charged.foldl (fun s e => charge (some c) e s)
          (count 17 0 3 1 (onRecovery (fun r => { r with checks := r.checks.erase c }) (spend 14 (testCost a) p)))))) ∧
      (canSpend 14 (testCost a) p = false → exec (.spotCheck a b charged) s = .next (settled s p))) ∧
    ((host n p).draining = true → exec (.functionDrainExpiry n) s = .next (settled s
      (let q := (hostOut n p).foldl (fun s t => untrack (hostAgent n) t s) (count 17 0 4 (hostOut n p).length p)
       let q := onManagement (fun m => { m with windows := m.windows.filter fun r => r.agent ≠ hostAgent n }) q
       onHost n (fun h => { h with draining := false }) q))) ∧
    (n < 2 → p.cur.power = .coreOn →
      exec (.hostPortReset n 3) s = .next (settled s (function0Reset n p)) ∧
      exec (.hostPortReset n 4) s = .next (settled s (functionReset n p)) ∧
      (∀ kind : Nat, kind = 1 ∨ kind = 2 →
        exec (.hostPortReset n kind) s = .next (settled s (function0Reset n (functionReset n p)))) ∧
      exec (.hostPortReset n 0) s = .next (settled s
        (onHost n (fun h => { h with perst := false, link := false, retry := true }) (function0Reset n (functionReset n p)))))

/-! ### The Curator, the host ports and the board -/

/-- The commands of the mailbox (R396, R398 to R401, R482, R485, R486, R491 to R493, R566): a requester that can reach its channel
writes the request, which the Curator takes, performs and answers. What each does when its payload and the part's state allow it: the
identity, a key installed in the slot that it names, a rotation begun, a collection loaded, each BAD_KEY where the key does not unwrap,
a binding made, a step of an update begun
or ended, a copy of the configuration record read, a new one begun, the daybook read, a measurement extended, a cold reset asked for.
The order of REFUSED_BUSY and BAD_RECORD in CONFIG_WRITE and what an unfinished session refuses are the model's (log entry 37). -/
def Obligations.MailboxCommandsAct : Prop :=
  ∀ (s : State) (c : Nat) (pl : List Byte), mailReady c s.part →
    let p := s.part
    (exec (.getInfo c []) s = .next (settled s (replied c 0x01 0
      (leBytes 8 idnIdentity ++ leBytes 8 (asked c 0x01 [] p).cur.serial.toNat ++ leBytes 8 (idnFw (asked c 0x01 [] p)) ++
        leBytes 8 (idnBoot (asked c 0x01 [] p))) (asked c 0x01 [] p)))) ∧
    (p.cur.phase ≠ 14 →
      (let m := ofKind 1 pl
       let q := asked c 0x10 m p
       let installs (f : Nat → Gallery → Gallery) : Host.Outcome State Fault Refusal :=
        .next (settled s (match kmKey m q with
          | none => replied c 0x10 5 [] (count 14 (kmGallery m) 64 1 q)
          | some k => replied c 0x10 0 [] (onGallery (kmGallery m) (f k) q)))
       m.length = 1664 → kmFieldsOk m = true →
        (kmPrevious m = false → (gallery (kmGallery m) q).state = .vacant ∨ (gallery (kmGallery m) q).current = none →
          exec (.keyInstall c pl) s = installs fun k x => { x with current := some { epoch := kmEpoch m, key := k }, previous := none }) ∧
        (∀ now : KeySlot, kmPrevious m = true → (gallery (kmGallery m) q).current = some now →
          (gallery (kmGallery m) q).previous = none → nextEpoch (kmEpoch m) = now.epoch →
          exec (.keyInstall c pl) s = installs fun k x => { x with previous := some { epoch := kmEpoch m, key := k } })) ∧
      (let m := ofKind 2 pl
       let q := asked c 0x10 m p
       ∀ now : KeySlot, m.length = 1664 → kmFieldsOk m = true →
        (gallery (kmGallery m) q).rotating = false → (gallery (kmGallery m) q).state = .active →
        (gallery (kmGallery m) q).current = some now → (gallery (kmGallery m) q).previous = none → kmEpoch m = nextEpoch now.epoch →
        exec (.rotate c pl) s = .next (settled s (match kmKey m q with
          | none => replied c 0x10 5 [] (count 14 (kmGallery m) 64 1 q)
          | some k => replied c 0x10 0 [] (onGallery (kmGallery m) (fun x =>
            { x with previous := some now, current := some { epoch := kmEpoch m, key := k }, rotating := true }) q)))) ∧
      (let m := ofKind 3 pl
       let q := asked c 0x10 m p
       m.length = 1632 → kmFieldsOk m = true → thas q.gals.colls (kmColl m) = false →
        exec (.collectionLoad c pl) s = .next (settled s (match kmKey m q with
          | none => replied c 0x10 5 [] (count 14 (kmGallery m) 64 1 q)
          | some k => replied c 0x10 0 [] (onGalleries (fun b => { b with colls := tset b.colls (kmColl m) k }) q)))) ∧
      (let m := ofKind 4 pl
       let q := asked c 0x10 m p
       m.length = 96 → kmFieldsOk m = true → inRecovery p = false →
        exec (.bindObject c pl) s = .next (settled s (replied c 0x10 (bindMessage m q).1 [] (bindMessage m q).2))) ∧
      (c = 2 → pl.length = 64 → exec (.measureExtend c pl) s = .next (settled s (replied c 0x50 0 []
        (onManagement (fun m => { m with extends7 := m.extends7 ++ [pl] }) (asked c 0x50 pl p)))))) ∧
    (c < 2 →
      (let d := directory p.mgmt
       pl.length = 4 → 0x2000 ≤ leAt pl 0 4 → leAt pl 0 4 ≤ 0x2000 + 25157632 → norSession p = false →
        d.trial = 0 → d.active = p.cur.runSlot → norUsable p = true →
        exec (.updateBegin c pl) s = .next (settled s (replied c 0x20 9 [] (onManagement (fun m =>
          { m with
            session := some { len := leAt pl 0 4, next := 0, verified := false }
            async := m.async ++ [{ op := 0x20, chan := c, offset := 0, bytes := [] }]
            asyncDone := false }) (asked c 0x20 pl p))))) ∧
      (∀ u : UpdateSession, p.mgmt.session = some u → updateRuns p = false → norUsable p = true →
        (4 < pl.length → u.next < u.len → pl.length - 4 = min 2048 (u.len - u.next) →
          (pl.length - 4 = 2048 ∨ pl.length - 4 = u.len % 2048) → leAt pl 0 4 = u.next →
          exec (.updateWrite c pl) s = .next (settled s (replied c 0x21 9 [] (onManagement (fun m =>
            { m with
              async := m.async ++ [{ op := 0x21, chan := c, offset := u.next, bytes := pl.drop 4 }]
              asyncDone := false }) (asked c 0x21 pl p))))) ∧
        (u.len ≤ u.next → exec (.updateVerify c []) s = .next (settled s (replied c 0x22 9 [] (onManagement (fun m =>
          { m with
            async := m.async ++ [{ op := 0x22, chan := c, offset := 0, bytes := [] }]
            asyncDone := false }) (asked c 0x22 [] p))))) ∧
        (u.verified = true → exec (.updateActivate c []) s = .next (settled s (replied c 0x23 9 [] (onManagement (fun m =>
          { m with
            async := m.async ++ [{ op := 0x23, chan := c, offset := 0, bytes := [] }]
            asyncDone := false }) (asked c 0x23 [] p)))))) ∧
      exec (.updateStatus c []) s = .next (settled s (replied c 0x24 0
        (leBytes 4 ((if p.mgmt.async ≠ [] then 1 else if p.mgmt.asyncDone then 2 else 0) + p.mgmt.asyncResult * 2 ^ 8))
        (asked c 0x24 [] p))) ∧
      ((directory p.mgmt).trial ≠ 0 → norUsable p = true →
        exec (.updateConfirm c []) s = .next (settled s (replied c 0x25 9 [] (onManagement (fun m =>
          { m with
            async := m.async ++ [{ op := 0x25, chan := c, offset := 0, bytes := [] }]
            asyncDone := false }) (asked c 0x25 [] p))))) ∧
      exec (.updateAbort c []) s = .next (settled s (replied c 0x26 0 [] (onManagement (fun m =>
        { m with
          session := none
          async := m.async.filter fun a => !updateStep a }) (asked c 0x26 [] p))))) ∧
    (∀ k : Nat, k = 0 ∨ k = 1 ∨ k = 255 → norUsable p = true →
      exec (.configRead c [BitVec.ofNat 8 k]) s = .next (settled s (replied c 0x30 0 (recordCopy k p) (asked c 0x30 [BitVec.ofNat 8 k] p)))) ∧
    (pl.length = 1024 → norSession p = false → recordCrcOk pl = true → recordOk (recordOfBytes pl) = true →
      norUsable p = true →
      exec (.configWrite c pl) s = .next (settled s (replied c 0x31 9 [] (onManagement (fun m =>
        { m with
          async := m.async ++ [{ op := 0x31, chan := c, offset := 0, bytes := pl }]
          asyncDone := false }) (asked c 0x31 pl p))))) ∧
    (pl.length = 5 → 1 ≤ leAt pl 4 1 → leAt pl 4 1 ≤ 63 →
      exec (.daybookRead c pl) s = .next (settled s (replied c 0x40 0
        ((entriesFrom (leAt pl 0 4) (leAt pl 4 1) (asked c 0x40 pl p)).flatMap entryBytes) (asked c 0x40 pl p)))) ∧
    exec (.coldReset c []) s = .next (settled s (replied c 0x60 0 []
      (onManagement (fun m => { m with coldPending := true }) (asked c 0x60 [] p))))

/-- The oldest step that writes the boot NOR ends (R485, R492): the part holds what the step of its kind does, or NOR_FAIL where the NOR does
not answer; the step is over with its RESULT, and the channel that asked for it is told by vector 1. -/
def Obligations.NorStepsEnd : Prop :=
  ∀ (s : State) (a : AsyncStep) (rest : List AsyncStep), s.part.mgmt.async = a :: rest → s.part.cur.power ≠ .off → a.chan < 3 →
    let ended (r : Nat) (q : Machine.Part) : Machine.Part :=
      let q := onManagement (fun m => { m with async := rest, asyncDone := true, asyncResult := r }) q
      raiseVector a.chan 1 (onMail a.chan (fun x => { x with norDone := true }) q)
    let p := s.part
    (norUsable p = false → exec .norStepEnd s = .next (settled s (ended 8 p))) ∧
    (norUsable p = true →
      (∀ u : UpdateSession, a.op = 0x20 → p.mgmt.session = some u → exec .norStepEnd s = .next (settled s (ended 0
        (count 1 0 2 (ceilDiv u.len 65536) (onManagement (eraseSlot (updateSlot p) u.len) p))))) ∧
      (a.op = 0x21 → exec .norStepEnd s = .next (settled s (ended 0
        (onManagement (fun m => { m with session := m.session.map fun u => { u with next := u.next + a.bytes.length } })
          (onManagement (programSlot (updateSlot p) a.offset a.bytes) p))))) ∧
      (a.op = 0x22 → exec .norStepEnd s = .next (settled s
        (if imageOk p.cur (imageBytes (updateSlot p) p.mgmt) then ended 0
          (onManagement (fun m => { m with session := m.session.map fun u => { u with verified := true } }) p)
         else ended 6 p))) ∧
      (a.op = 0x23 → exec .norStepEnd s = .next (settled s (ended 0 (onManagement (fun m =>
        { writeDirectory (fun d => { d with active := updateSlot p, trial := 1 }) m with session := none }) p)))) ∧
      (a.op = 0x25 → exec .norStepEnd s = .next (settled s (ended 0 (confirmImage p)))) ∧
      (a.op = 0x31 → exec .norStepEnd s = .next (settled s (ended 0
        (onManagement (writeDirectory fun d => { d with record := 1 - (directory p.mgmt).record % 2 })
          (onManagement (fun m => { m with records := lset m.records (1 - (directory p.mgmt).record % 2) a.bytes })
            (count 1 0 2 1 p)))))))

/-- Attestation (R482 to R484): each of the seven requests that the responder knows is counted and answered as its connection's state
allows, what a signature covers being kept, and any other is answered ERROR UnsupportedRequest. The byte layouts are those of DSP0274
1.2 (log entry 38); the nonce, and the keys with which the digest that a signature is made over is signed, are left free (log entry 65). -/
def Obligations.SpdmRequestsAreAnswered : Prop :=
  ∀ (s : State) (c : Nat) (req : List Byte), spdmOpen c s.part = true →
    let p := count 1 0 1 1 s.part
    let x := spdmAt c p
    (exec (.getVersion c req) s = .next (settled s (onSpdm c (fun _ =>
      { Spdm.reset with version := true, vca := withCode spVersion req ++ versionAnswer, response := versionAnswer }) p))) ∧
    (x.version = true → exec (.getCapabilities c req) s = .next (settled s (onSpdm c (fun y =>
      { y with caps := true, vca := y.vca ++ withCode spCaps req ++ capsAnswer, response := capsAnswer }) p))) ∧
    (x.caps = true → offersBoth (withCode spAlgorithms req) = true →
      exec (.negotiateAlgorithms c req) s = .next (settled s (onSpdm c (fun y =>
        { y with algorithms := true, vca := y.vca ++ withCode spAlgorithms req ++ algAnswer, response := algAnswer }) p))) ∧
    (x.algorithms = true →
      exec (.getDigests c req) s = .next (settled s (onSpdm c (fun y =>
        { y with certs := y.certs ++ withCode spDigests req ++ digestsAnswer p, response := digestsAnswer p }) p)) ∧
      exec (.getCertificate c req) s = .next (settled s (onSpdm c (fun y =>
        { y with
          certs := y.certs ++ withCode spCertificate req ++ certAnswer (withCode spCertificate req) p
          response := certAnswer (withCode spCertificate req) p }) p)) ∧
      (let r := withCode spChallenge req
       let body := challengeBody r (nonceBytes (drawFree p).1) (drawFree p).2
       leAt r 2 1 % 16 = 0 → exec (.challenge c req) s = .next (settled s (onSpdm c (fun y =>
        { y with certs := [], response := body ++ spSign "responder-challenge_auth signing" (x.vca ++ x.certs ++ r ++ body) }) (drawFree p).2))) ∧
      (let r := withCode spMeasurements req
       let body := measureBody r (nonceBytes (drawFree p).1) (drawFree p).2
       leAt r 3 1 = 0 ∨ leAt r 3 1 = 0xFF ∨ leAt r 3 1 ∈ measureIndices p →
        (bitAt (leAt r 2 1) 0 = true → exec (.getMeasurements c req) s = .next (settled s (onSpdm c (fun y =>
          { y with meas := [], response := body ++ spSign "responder-measurements signing" (x.vca ++ x.meas ++ r ++ body) })
            (drawFree p).2))) ∧
        (bitAt (leAt r 2 1) 0 = false → exec (.getMeasurements c req) s = .next (settled s (onSpdm c (fun y =>
          { y with meas := y.meas ++ r ++ body, response := body }) (drawFree p).2))))) ∧
    (¬ leAt req 1 1 ∈ [spVersion, spCaps, spAlgorithms, spDigests, spCertificate, spChallenge, spMeasurements] →
      exec (.spdmUnsupportedRequest c req) s = .next (settled s (onSpdm c (fun y => { y with response := spError 0x07 (leAt req 1 1) }) p)))

/-- What a host and the application cores do to the pool (R489, R498 to R500): a read through function 1 asks for each line that it
touches, a write stores the enabled bytes, FetchAdd and CAS of 4 or 8 bytes are atomics, and Swap and 16 bytes are turned away, as is
a read of an entry that is not valid; a core's load and store reach the working region at 0x0010_0000_0000, or run under the entry of
its pool window at 0x0100_0000_0000, uncached or through the caches, a fence orders every stream, a write-back sends a
modified line home; and an uncorrectable error of the caches is recorded, raised, and the line fetched again or lost. That no access
crosses a line, and how the caches hold lines, are the model's (log entries 41 and 42). -/
def Obligations.WindowsReachThePool : Prop :=
  ∀ (s : State) (hp offset : Nat),
    let p := s.part
    (windowOpen hp p = true → poolOpen p = true → (host hp p).draining = false → wnValid (hostEntry hp offset p) = true →
      let w := hostEntry hp offset p
      (∀ n : Nat, inFourKib offset n = true → exec (.poolWindowRead hp offset n) s = .next (settled s
        (windowRead (hostAgent hp) (hostGallery hp p) w (wnAddr w offset) n p))) ∧
      (∀ (data : List Byte) (en : List Bool), inFourKib offset data.length = true →
        exec (.poolWindowWrite hp offset data en) s = .next (settled s (windowStores (hostAgent hp) (hostGallery hp p) w 33
          (wnAddr w offset) (data.mapIdx fun i b => if en.getD i false then some b else none) p))) ∧
      (∀ (k width : Nat) (data : List Byte), k = 0 ∧ width = data.length ∨ k = 2 ∧ width = data.length / 2 →
        width = 4 ∨ width = 8 → offset % width = 0 → inFourKib offset width = true →
        exec (.poolWindowAtomic hp k offset data) s = .next (settled s
          (windowAtomic (hostAgent hp) (hostGallery hp p) w (k = 2) (wnAddr w offset) width data p)))) ∧
    (windowOpen hp p = true → offset % 16 = 0 → inFourKib offset 16 = true → ∀ data : List Byte, data.length = 16 →
      exec (.poolWindowAtomic hp 1 offset data) s = .next (settled s (unsupportedRequest hp p))) ∧
    (windowOpen hp p = true → hostTurnsAway hp offset p = true → ∀ n : Nat, inFourKib offset n = true →
      exec (.poolWindowRead hp offset n) s = .next (settled s (unsupportedRequest hp p))) ∧
    (coresRun p = true →
      exec (.corePoolAccess .fence offset []) s = .next (settled s (coreFence p)) ∧
      (∀ data : List Byte, 0 < data.length → offset % 128 + data.length ≤ 128 →
        (offset < 2 ^ 36 → ∀ k : CoreAccess, k = .load ∨ k = .store →
          exec (.corePoolAccess k (2 ^ 36 + offset) data) s = .next (settled s (coreRegion k offset data p))) ∧
        (let w := apcWord (offset / 2 ^ 28 % 4096) 0 p
         let w1 := apcWord (offset / 2 ^ 28 % 4096) 1 p
         let at_ := 2 ^ 40 + offset
         offset < 2 ^ 40 → wnValid w = true →
          (bitAt w1 3 = false →
            exec (.corePoolAccess .load at_ data) s = .next (settled s
              (windowRead agCores (field w1 2 0) w (wnAddr w offset) data.length p)) ∧
            exec (.corePoolAccess .store at_ data) s = .next (settled s
              (windowStores agCores (field w1 2 0) w 2 (wnAddr w offset) (data.map some) p)) ∧
            (data.length = 4 ∨ data.length = 8 → offset % data.length = 0 →
              exec (.corePoolAccess .add at_ data) s = .next (settled s
                (windowAtomic agCores (field w1 2 0) w false (wnAddr w offset) data.length data p)))) ∧
          (bitAt w1 3 = true →
            (∀ k : CoreAccess, k = .load ∨ k = .store → exec (.corePoolAccess k at_ data) s = .next (settled s
              (coreTry { tag := 0, op := 0, line := wnAddr w offset / 128, catalogue := coreCatalogue (wnAddr w offset) p,
                         gallery := field w1 2 0, epoch := wnEpoch w, handle := wnHandle w, kind := k,
                         offset := wnAddr w offset % 128, data := data } p))) ∧
            exec (.corePoolAccess .writeBack at_ data) s = .next (settled s (coreWriteBack (wnAddr w offset / 128) p)))))) ∧
    (p.mgmt.coresOn = true → ∀ (unit line : Nat), 1 ≤ unit → unit ≤ 17 →
      let q (d : Bool) : Machine.Part := raiseCore 63 (count 18 0 64 1 (onManagement (fun m =>
        { m with apcError := BitVec.ofNat 64 (line * 128 % 2 ^ 58 + bitOf d * 2 ^ 58 + unit * 2 ^ 59) }) p))
      (∀ d : Bool, coreLine line (q d) = none →
        exec (.coreCacheUe unit line d) s = .next (settled s (if d then corePoison line none (q d) else q d))) ∧
      (∀ x : CoreLine, coreLine line (q true) = some x →
        exec (.coreCacheUe unit line true) s = .next (settled s (corePoison line (some x) (q true)))) ∧
      (∀ x : CoreLine, coreLine line (q false) = some x →
        exec (.coreCacheUe unit line false) s = .next (settled s (coreTry
          { tag := 0, op := 0, line := line, catalogue := x.catalogue, gallery := x.gallery, epoch := x.epoch, handle := x.handle,
            kind := .load, offset := 0, data := [] } (dropCoreLine line (q false))))))

/-- The board's rails and clocks (R545, R547, R550 to R553): the island powers up; PWRGD and a pulse of RESET_N begin a cold boot,
and so does VIN48 where a boot waits for it; the loss of PWRGD, and VIN48 too low or too high, stop the core die and leave the
island running, in Vitrine mode if the part was in it (R402); the loss of the island's power leaves only the boot NOR, the fuses and the count of boots; AON_CLK, a SerDes
reference, the NVMe reference and a host's are lost, with a note and what their loss takes down, and return; AUX1V8 falls and is
restored; and a host's PERST# rises. -/
def Obligations.BoardEventsAct : Prop :=
  ∀ (s : State) (env : BootEnv) (n : Nat),
    let p := s.part
    let dark := coldBlocks (darkManagement p.mgmt).record (drivesSeen (onManagement darkManagement p)) (onManagement darkManagement p)
    (p.cur.power = .off → exec .islandPowerUp s = .next (settled s (onCurator (fun c =>
      { c with
        power := .islandOnly, vin48 := 30000, aonExternal := true, aux1v8 := true, phase := 0, haltCause := 0 }) p))) ∧
    (p.cur.power ≠ .off →
      (p.cur.pwrgd = false → exec (.pwrgdRise env) s = .next (settled s
        (let q := onCurator (fun c => { c with pwrgd := true }) p
         if env.resetN then coldBoot env q else q))) ∧
      (p.cur.pwrgd = true →
        exec (.resetNPulse env) s = .next (settled s (coldBoot env p)) ∧
        exec .pwrgdFall s = .next (settled s
          (let q := onCurator (fun c => { c with pwrgd := false }) p
           let q := if p.cur.power = .coreOn then coreDown 0x13 q
            else onCurator (fun c => { c with waitVin := false, phase := if c.phase = 4 then 0 else c.phase }) q
           flushDaybook (fun e => decide (2 ≤ e.severity)) q))) ∧
      (p.cur.aonExternal = true → exec .aonClkLoss s = .next (settled s
        (note 255 1 none .clockLost [0, 0] (onCurator (fun c => { c with aonExternal := false }) p)))) ∧
      exec .aux1v8Overload s = .next (settled s (onCurator (fun c => { c with aux1v8 := false }) p)) ∧
      exec .aux1v8Restore s = .next (settled s (onCurator (fun c => { c with aux1v8 := true }) p))) ∧
    (p.cur.power = .coreOn →
      exec .vinUndervoltage s = .next (settled s (note 255 3 none .partLoss [0x10] (onCurator (fun c =>
        { c with
          power := .islandOnly, phase := 13, haltCause := 0x10, fastPending := false, waitVin := false })
        (onGalleries (fun b => { b with vitrine := p.gals.vitrine, fromRecord := p.gals.fromRecord }) dark)))) ∧
      (62000 < n → n ≤ 80000 → exec (.vinOvervoltage n) s = .next (settled s (note 255 3 none .partLoss [0x11] (onCurator (fun c =>
        { c with
          power := .islandOnly, phase := 13, haltCause := 0x11, fastPending := false, waitVin := false })
        (onGalleries (fun b => { b with vitrine := p.gals.vitrine, fromRecord := p.gals.fromRecord }) dark))))) ∧
      (n < 4 → exec (.sdsRefclkLoss n) s = .next (settled s (note 255 1 none .clockLost [1, n]
        (((List.range 64).map fun i => 64 * n + i).foldl (fun q k =>
          if (lport k q).link = .down then q
          else if (lport k q).link = .active then portGoesDown k .portDown true q else bringUpFails k .train q) p))))) ∧
    (p.cur.power = .islandOnly → p.cur.pwrgd = true →
      (p.cur.waitVin = true → exec (.vin48Reaches39v env) s = .next (settled s
        (coldBoot { env with vin48 := max env.vin48 39000 } p))) ∧
      (p.cur.phase = 4 → exec (.corePllLockRetry env) s = .next (settled s (bootStep5 env p)))) ∧
    exec .islandPowerLoss s = .next (settled s
      (let q := coldBlocks p.mgmt.record (drivesSeen p) (onManagement darkManagement p)
       let q := onManagement (fun m => { m with daybook := [], debugSeen := false, extends7 := [], codeKey := 0, partKey := 0 }) q
       onCurator (fun c => { coldCurator with coldBoots := c.coldBoots, floor := c.floor, revoked := c.revoked }) q)) ∧
    (let up := (List.range 8).filter fun d => (drive d p).state ≠ .absent && (drive d p).state ≠ .down
     exec .npRefclkLoss s = .next (settled s (onFlash (fun b => { b with npClock := false, npDown := (b.npDown ++ up).eraseDups })
      (up.foldl (fun s d => driveDown d s) p)))) ∧
    exec .npRefclkReturn s = .next (settled s (onFlash (fun b => { b with npClock := true, npDown := [] })
      (p.flt.npDown.foldl (fun q d =>
        if (drive d q).state = .down && (drive d q).present && !(drive d q).perst then onDrive d startDrive q else q) p))) ∧
    (n < 2 →
      exec (.hostRefclkLoss n) s = .next (settled s (onHost n (fun h => { h with refclk := false, link := false })
        (if p.cur.power = .coreOn then function0Reset n (functionReset n p) else p))) ∧
      exec (.perstDeassert n) s = .next (settled s (onHost n (fun h =>
        { h with
          perst := true, refclk := true, link := hostsUp p, retry := !hostsUp p }) p)))

/-- Resets of the island and of the core die, and what the island keeps (R319, R403, R415, R416, R460, R469, R482, R493, R496, R550): an
error of the island begins a cold boot with its cause latched, or resets the island alone where part loss keeps the core die off; a
lost heartbeat and a memory error of the core die begin a fast reset, cell-buffer metadata losing writes that waited there, and a table
of a spine that leaves retention bad is left empty; the reset's watchdog begins a cold boot; the resynchronisation ends;
the 10 ms after COLD_RESET end in a cold boot; the daybook reaches NOR; the TAP notes that it was used, and answers IDCODE and BYPASS
alone in Vitrine mode; and a thermal trip stops the core die. -/
def Obligations.IslandEventsAct : Prop :=
  ∀ (s : State) (env : BootEnv) (n : Nat),
    let p := s.part
    (∀ cause : Nat, p.cur.power ≠ .off →
      let q := onCurator (fun c => { c with latchedCause := cause }) p
      let after := if p.cur.pwrgd = true ∧ ¬ (p.cur.power = .islandOnly ∧ p.cur.phase = 13) then coldBoot env q
        else onManagement (fun m => { m with daybook := [], debugSeen := false, extends7 := [] }) q
      (cause = 1 → exec (.lockstepMismatch env) s = .next (settled s after)) ∧
      (cause = 2 → exec (.curatorSramUe env) s = .next (settled s after))) ∧
    (p.cur.power = .coreOn → p.cur.fastPending = false →
      let reset (cause : Nat) (q : Part) : Part :=
        let q := onCurator (fun c => { c with fastPending := true }) q
        trainPorts (tellTwins q (note 255 2 none .fastReset [cause] (onTelemetry (fun b => { b with later := [] }) (resetBlocks cause q))))
      (∀ clock : Bool, exec (.heartbeatLost clock) s = .next (settled s
        (reset 3 (onCurator (fun c => { c with coreRefclk := clock }) p)))) ∧
      (∀ mem : SramUe, mem = .tables ∨ (∃ table : SpineTable, mem = .retention table) →
        exec (.internalMemoryUe mem) s = .next (settled s (reset 1 p))) ∧
      exec (.internalMemoryUe .cellMetadata) s = .next (settled s (reset 1 (loseWaiting p)))) ∧
    (∀ table : SpineTable, p.cur.fastPending = true → isTray p = false →
      exec (.internalMemoryUe (.retention table)) s = .next (settled s (emptyTable table p))) ∧
    (∀ port vc : Nat, exec (.internalMemoryUe (.cellPayload port vc)) s = .next (settled s (discardFirst port vc p))) ∧
    (p.cur.fastPending = true → exec (.fastResetWatchdog env) s = .next (settled s (coldBoot env p))) ∧
    (running p = true → exec .resyncWindowEnd s = .next (settled s (onLinks (fun l => { l with resync := false }) p))) ∧
    (p.mgmt.coldPending = true → exec (.coldResetExpiry env) s = .next (settled s (coldBoot env p))) ∧
    (p.cur.power ≠ .off →
      exec .daybookFlush s = .next (settled s (flushDaybook (fun _ => true) p)) ∧
      (n < 2 → exec (.jtagInstruction n) s = .next (settled s (onManagement (fun m => { m with jtagLast := n }) p))) ∧
      (2 ≤ n → exec (.jtagInstruction n) s = .next (settled s (onManagement (fun m =>
        { m with
          debugSeen := true
          jtagLast := if p.gals.vitrine then m.jtagLast else n }) p)))) ∧
    (p.cur.power = .coreOn → 420 ≤ p.power.tempMax →
      exec .thermalTrip s = .next (settled s (coreDown 0x12 (note 255 3 none .thermal [p.power.tempMax] p))))

/-- Power and heat (R449, R451, R452, R454, R456 to R461, R464, R467): a sample advances the timer by 1 ms, which a stream without credit
counts (log entry 84), and takes every reading; the boundary at the next multiple of 100,000 moves the throttle level by the
temperature's band, and reports a change; a tick takes its sample of the input power, charges what expedited traffic and forced turns have
used to its budget, divides the rest among the classes by the demand that their units have waiting, scaled by the throttle level, and
leaves what remains to turns that begin within the tick, and has the contributions that a parent turned away sent again (log entry 29);
the floor is computed anew and an unreachable plateau reported once; a shortfall in Iron mode is noted; and a background class that has
been put off for MAX_DEFER is given the energy of its next turn ahead of the shares. How much energy a turn takes, and the gain of the
integral term, are left open (log entry 39). -/
def Obligations.PowerEventsAct : Prop :=
  ∀ (s : State) (c w : Nat),
    let p := s.part
    (p.cur.power = .coreOn →
      (∀ r : Sensors, exec (.sensorSample r) s = .next (settled s
        (let q := onTelemetry (fun b =>
          { b with
            temps := (List.range 64).map (tempWord r)
            volts := (List.range 32).map fun n => r.volts.getD n 0 % 2 ^ 16 })
          (creditWait 1000 (onCurator (fun c => { c with timer := c.timer + 1000 }) p))
         let q := sampleVin r.vin48 (onPower (fun b => { b with inputW := r.inputW % 2 ^ 11, draw := some (r.inputW * 100000) }) q)
         sampleHeat r (onDram (fun d => { d with waiting := [] }) (sampleModules r q))))) ∧
      (let k := p.cur.boundaries + 1
       let next := max p.cur.timer (k * 100000)
       let q := creditWait (next - p.cur.timer) (onCurator (fun c => { c with timer := next, boundaries := k }) p)
       let t := p.power.tempMax
       let l := p.power.level
       let new := if t < 380 then l - 1 else if t < 392 then l else if t < 408 then min 7 (l + 1) else 7
       exec .throttleBoundary s = .next (settled s (if new = l then q else pwrEvent 1 0 new (setLevel new k q))))) ∧
    (running p = true →
      (∀ mw : Nat,
        let q := onPower (fun b => { b with ecoNow := if b.modeNow = 2 then b.eco.toNat else 0 }) (rampStep (ageNotices p))
        let q := tickSample mw q
        let demand := (List.range 16).map fun c => demandOf c q
        let e := chargeExpedited (countBallast q)
        let q := e.2
        let budget := correctedTarget q * 90 - floorInForce q
        let shares := tickShares budget (budget - e.1 - q.power.owed) (fun k => demand.getD k 0) q
        let level (e : Nat) : Nat := e * (8 - q.power.level) / 8
        let t := [0, 1, 2, 3, 4, 5, 8, 9, 10, 11, 12, 13, 14, 15].foldl
          (fun t k => tickClass k (level (shareOf k shares.1)) (demand.getD k 0) t) q
        exec (.schedulerTick mw) s = .next (settled s
          (resendUps (onPower (fun b => { b with spare := level shares.2, owed := 0 }) t)))) ∧
      (let f := floorNow w p
       let q := onPower (fun b =>
        { b with floorPj := f, budgetW := wholeWatts (targetNow p * 90 - f), unreachable := outOfReach f p }) p
       exec (.floorRecompute w) s = .next (settled s (if outOfReach f p && !p.power.unreachable then pwrEvent 3 0 0 q else q))) ∧
      (p.power.modeNow = 1 → exec .ironShortfall s = .next (settled s
        (pwrEvent 4 0 0 (onPower (fun b => { b with under := true }) p)))) ∧
      (8 ≤ c → cwDefer (classWord c p) ≠ 0 → 100 * cwDefer (classWord c p) ≤ (pwrClass c p).deferred → turnEnergy c p ≠ 0 →
        ∀ excess : Nat, exec (.forcedRunDefer c excess) s = .next (settled s
          (let e := turnEnergy c p
           let q := onPower (fun b =>
            { b with
              owed := b.owed + e
              overrun := if b.modeNow = 1 then min (b.overrun + excess) (2 ^ 26 - 1) else b.overrun
              classes := b.classes.mapIdx fun i x =>
                if i = c then { x with held := some (x.held.getD 0 + e), granted := x.granted + e, deferred := 0 } else x }) p
           pwrEvent 5 c 0 (count 15 c 64 1 q)))))

/-- VIN48 above 62.0 V for long enough stops a running core die for that reason, and the island runs on (R545, R564); a core die
that is off stays off, and a reading of 62.0 V or less stops nothing (R545). Every level is covered but those beyond the 80 V that
R556 allows a transient on a part that has power, for which OnlyDamageStops states the stop. That the island runs on above 65.0 V is
the model's choice (log entry 36). -/
def Obligations.OvervoltageStopsTheCoreDie : Prop :=
  ∀ (s : State) (mv : Nat), mv ≤ 80000 ∨ s.part.cur.power = .off →
    (62000 < mv → s.part.cur.power = .coreOn →
      exec (.vinOvervoltage mv) s = .next (settled s
        (note 255 3 none .partLoss [0x11] (onCurator (fun c =>
          { c with
            power := .islandOnly, phase := 13, haltCause := 0x11, fastPending := false, waitVin := false })
          (onGalleries (fun b => { b with vitrine := s.part.gals.vitrine, fromRecord := s.part.gals.fromRecord })
            (coldBlocks (darkManagement s.part.mgmt).record (drivesSeen (onManagement darkManagement s.part))
              (onManagement darkManagement s.part))))))) ∧
    (mv ≤ 62000 ∨ s.part.cur.power ≠ .coreOn → exec (.vinOvervoltage mv) s = .next (settled s s.part))
end

