-- ==== Sys2Proof/Laws/Bits.lean ====
section
/-!
SUPPORT. What the sparse tables, the lists by place and the byte orders do.
-/

namespace Sys2Proof.Machine

open Sys2Proof

/-! ### Sorted tables -/

/-- Are the indices strictly rising, the form in which every table is kept? -/
def tableSorted {α : Type} : Table α → Bool
  | (i, _) :: (j, w) :: t => decide (i < j) && tableSorted ((j, w) :: t)
  | _ => true

@[simp] theorem tget?_tset_same {α : Type} (t : Table α) (k : Nat) (v : α) : tget? (tset t k v) k = some v := by
  induction t with
  | nil => simp [tset, tget?]
  | cons p t ih =>
    obtain ⟨i, w⟩ := p
    simp only [tset]
    split
    · simp [tget?]
    · split
      · simp [tget?]
      · rename_i h1 h2
        simp [tget?, Ne.symm h2, ih]

theorem tget?_tset_ne {α : Type} (t : Table α) {k j : Nat} (v : α) (h : j ≠ k) : tget? (tset t k v) j = tget? t j := by
  induction t with
  | nil => simp [tset, tget?, Ne.symm h]
  | cons p t ih =>
    obtain ⟨i, w⟩ := p
    simp only [tset]
    split
    · simp [tget?, Ne.symm h]
    · split
      · rename_i _ h2; subst h2; simp [tget?, Ne.symm h]
      · by_cases hij : i = j
        · simp [tget?, hij]
        · simp [tget?, hij, ih]

@[simp] theorem tget_tset_same {α : Type} (t : Table α) (k : Nat) (v d : α) : tget (tset t k v) k d = v := by
  simp [tget]

theorem tget_tset_ne {α : Type} (t : Table α) {k j : Nat} (v d : α) (h : j ≠ k) : tget (tset t k v) j d = tget t j d := by
  simp [tget, tget?_tset_ne t v h]

theorem tget?_tdel_ne {α : Type} (t : Table α) {k j : Nat} (h : j ≠ k) : tget? (tdel t k) j = tget? t j := by
  induction t with
  | nil => rfl
  | cons p t ih =>
    obtain ⟨i, w⟩ := p
    by_cases hik : i = k
    · subst hik; simp [tdel, tget?, Ne.symm h]
    · by_cases hij : i = j
      · subst hij; simp [tdel, h, tget?]
      · simp [tdel, hik, tget?, hij, ih]

theorem tget?_of_low {α : Type} (t : Table α) (i k : Nat) (w : α) (h : tableSorted ((i, w) :: t)) (hk : k ≤ i) :
    tget? t k = none := by
  induction t generalizing i w with
  | nil => rfl
  | cons p t ih =>
    obtain ⟨j, v⟩ := p
    simp only [tableSorted, Bool.and_eq_true, decide_eq_true_eq] at h
    simp only [tget?]
    rw [if_neg (by omega)]
    exact ih j v h.2 (by omega)

/-- In a sorted table a deleted index is not listed any more. -/
theorem tget?_tdel_same {α : Type} (t : Table α) (k : Nat) (h : tableSorted t) : tget? (tdel t k) k = none := by
  induction t with
  | nil => rfl
  | cons p t ih =>
    obtain ⟨i, w⟩ := p
    by_cases hik : i = k
    · subst hik; simp only [tdel, if_true]; exact tget?_of_low t i i w h (Nat.le_refl _)
    · simp only [tdel, hik, if_false, tget?]
      apply ih
      cases t with
      | nil => rfl
      | cons q t => obtain ⟨j, v⟩ := q; simp only [tableSorted, Bool.and_eq_true] at h; exact h.2

theorem tableSorted_tail {α : Type} (p : Nat × α) (t : Table α) (h : tableSorted (p :: t)) : tableSorted t := by
  cases t with
  | nil => rfl
  | cons q t => obtain ⟨i, w⟩ := p; obtain ⟨j, v⟩ := q; simp only [tableSorted, Bool.and_eq_true] at h; exact h.2

/-- A write keeps a table sorted. -/
theorem tableSorted_tset {α : Type} (t : Table α) (k : Nat) (v : α) (h : tableSorted t) : tableSorted (tset t k v) := by
  induction t with
  | nil => rfl
  | cons p t ih =>
    obtain ⟨i, w⟩ := p
    have ht := ih (tableSorted_tail _ _ h)
    simp only [tset]
    split
    · simp [tableSorted, *]
    · split
      · rename_i _ h2
        subst h2
        cases t with
        | nil => rfl
        | cons q t => obtain ⟨j, u⟩ := q; simpa [tableSorted] using h
      · rename_i h1 h2
        cases t with
        | nil => simp only [tset, tableSorted, Bool.and_true, decide_eq_true_eq]; omega
        | cons q t =>
          obtain ⟨j, u⟩ := q
          simp only [tableSorted, Bool.and_eq_true, decide_eq_true_eq] at h
          simp only [tset] at ht ⊢
          split
          · simp_all only [tableSorted, Bool.and_eq_true, decide_eq_true_eq, if_true, and_true]; omega
          · split
            · simp_all only [tableSorted, Bool.and_eq_true, decide_eq_true_eq, if_true, if_false, lt_irrefl]; simp_all
            · simp_all [tableSorted]

/-! ### Lists by place -/

@[simp] theorem lset_length {α : Type} (xs : List α) (i : Nat) (v : α) : (lset xs i v).length = xs.length := by
  induction xs generalizing i with
  | nil => rfl
  | cons x xs ih => cases i <;> simp [lset, ih]

theorem lset_getElem?_same {α : Type} (xs : List α) (i : Nat) (v : α) (h : i < xs.length) : (lset xs i v)[i]? = some v := by
  induction xs generalizing i with
  | nil => simp at h
  | cons x xs ih => cases i with
    | zero => simp [lset]
    | succ i => simpa [lset] using ih i (by simpa using h)

theorem lset_getElem?_ne {α : Type} (xs : List α) {i j : Nat} (v : α) (h : j ≠ i) : (lset xs i v)[j]? = xs[j]? := by
  induction xs generalizing i j with
  | nil => rfl
  | cons x xs ih =>
    cases i with
    | zero => cases j with
      | zero => simp at h
      | succ j => simp [lset]
    | succ i => cases j with
      | zero => simp [lset]
      | succ j => simpa [lset] using ih (by omega)

/-! ### Bytes -/

@[simp] theorem leBytes_length (k n : Nat) : (leBytes k n).length = k := by
  induction k generalizing n with
  | zero => rfl
  | succ k ih => simp [leBytes, ih]

theorem ofLe_leBytes (k n : Nat) : ofLe (leBytes k n) = n % 256 ^ k := by
  induction k generalizing n with
  | zero => simp [leBytes, ofLe, Nat.mod_one]
  | succ k ih =>
    simp only [leBytes, ofLe, ih, BitVec.toNat_ofNat]
    show n % 256 + _ = _
    rw [Nat.pow_succ, Nat.mul_comm (256 ^ k) 256, Nat.mod_mul]

/-- The first `k` bytes of `leBytes k n ++ bs` spell `n`. -/
theorem leAt_leBytes_append (k n : Nat) (bs : List Byte) : leAt (leBytes k n ++ bs) 0 k = n % 256 ^ k := by
  simp [leAt, ofLe_leBytes]

@[simp] theorem sliceBytes_length (bs : List Byte) (off k : Nat) : (sliceBytes bs off k).length = k := by
  simp [sliceBytes]

@[simp] theorem patchBytes_length (bs : List Byte) (off : Nat) (new : List Byte) (h : off + new.length ≤ bs.length) :
    (patchBytes bs off new).length = bs.length := by
  simp [patchBytes]; omega

/-! ### Fields -/

theorem field_lt (n hi lo : Nat) : field n hi lo < 2 ^ (hi + 1 - lo) := Nat.mod_lt _ (by positivity)

theorem field_eq_div (n hi lo : Nat) : field n hi lo = n / 2 ^ lo % 2 ^ (hi + 1 - lo) := by
  simp [field, Nat.shiftRight_eq_div_pow]

@[simp] theorem bitOf_true : bitOf true = 1 := rfl
@[simp] theorem bitOf_false : bitOf false = 0 := rfl

theorem bitOf_le (b : Bool) : bitOf b ≤ 1 := by cases b <;> simp

theorem bitAt_eq (n i : Nat) : bitAt n i = decide (n / 2 ^ i % 2 = 1) := by
  simp [bitAt, Nat.testBit_eq_decide_div_mod_eq]

/-! ### Fields of a word in which one field has been replaced -/

theorem setField_eq (n hi lo v : Nat) (h : lo ≤ hi + 1) :
    setField n hi lo v = n / 2 ^ (hi + 1) * 2 ^ (hi + 1) + v % 2 ^ (hi + 1 - lo) * 2 ^ lo + n % 2 ^ lo := by
  have hp : (2:Nat) ^ (hi + 1) = 2 ^ lo * 2 ^ (hi + 1 - lo) := by rw [← pow_add]; congr 1; omega
  have h1 := Nat.div_add_mod n (2 ^ lo)
  have h2 := Nat.div_add_mod (n / 2 ^ lo) (2 ^ (hi + 1 - lo))
  have h3 : n / 2 ^ (hi + 1) = n / 2 ^ lo / 2 ^ (hi + 1 - lo) := by rw [hp, Nat.div_div_eq_div_mul]
  have h4 : n / 2 ^ (hi + 1) * 2 ^ (hi + 1) + n / 2 ^ lo % 2 ^ (hi + 1 - lo) * 2 ^ lo + n % 2 ^ lo = n := by
    conv_rhs => rw [← h1, ← h2]
    rw [h3, hp]; ring
  simp only [setField, field_eq_div]
  generalize n / 2 ^ (hi + 1) * 2 ^ (hi + 1) = x at h4 ⊢
  generalize n / 2 ^ lo % 2 ^ (hi + 1 - lo) * 2 ^ lo = y at h4 ⊢
  generalize v % 2 ^ (hi + 1 - lo) * 2 ^ lo = w
  omega

theorem setField_div (n hi lo v : Nat) (h : lo ≤ hi + 1) : setField n hi lo v / 2 ^ (hi + 1) = n / 2 ^ (hi + 1) := by
  have hp : (2:Nat) ^ (hi + 1) = 2 ^ (hi + 1 - lo) * 2 ^ lo := by rw [← pow_add]; congr 1; omega
  have h1 : v % 2 ^ (hi + 1 - lo) < 2 ^ (hi + 1 - lo) := Nat.mod_lt _ (by positivity)
  have h2 : n % 2 ^ lo < 2 ^ lo := Nat.mod_lt _ (by positivity)
  have h3 : v % 2 ^ (hi + 1 - lo) * 2 ^ lo + n % 2 ^ lo < 2 ^ (hi + 1) := by
    rw [hp]
    calc v % 2 ^ (hi + 1 - lo) * 2 ^ lo + n % 2 ^ lo < v % 2 ^ (hi + 1 - lo) * 2 ^ lo + 2 ^ lo := by omega
      _ = (v % 2 ^ (hi + 1 - lo) + 1) * 2 ^ lo := by ring
      _ ≤ 2 ^ (hi + 1 - lo) * 2 ^ lo := Nat.mul_le_mul_right _ h1
  rw [setField_eq n hi lo v h, Nat.add_assoc, Nat.mul_comm, Nat.mul_add_div (by positivity), Nat.div_eq_of_lt h3, Nat.add_zero]

theorem setField_mod (n hi lo v : Nat) (h : lo ≤ hi + 1) : setField n hi lo v % 2 ^ lo = n % 2 ^ lo := by
  have hp : (2:Nat) ^ (hi + 1) = 2 ^ (hi + 1 - lo) * 2 ^ lo := by rw [← pow_add]; congr 1; omega
  rw [setField_eq n hi lo v h, hp, ← Nat.mul_assoc, ← Nat.add_mul, Nat.mul_add_mod_self_right, Nat.mod_mod]

/-- The replaced field. -/
theorem field_setField_same (n hi lo v : Nat) (h : lo ≤ hi + 1) : field (setField n hi lo v) hi lo = v % 2 ^ (hi + 1 - lo) := by
  have hp : (2:Nat) ^ (hi + 1) = 2 ^ (hi + 1 - lo) * 2 ^ lo := by rw [← pow_add]; congr 1; omega
  rw [field_eq_div, setField_eq n hi lo v h, hp, ← Nat.mul_assoc, ← Nat.add_mul, Nat.mul_comm, Nat.mul_add_div (by positivity),
    Nat.div_eq_of_lt (Nat.mod_lt _ (by positivity)), Nat.add_zero, Nat.mul_comm, Nat.mul_add_mod, Nat.mod_mod]

/-- A field above the replaced one. -/
theorem field_setField_above (n hi lo v hi' lo' : Nat) (h : lo ≤ hi + 1) (h' : hi < lo') :
    field (setField n hi lo v) hi' lo' = field n hi' lo' := by
  have hp : (2:Nat) ^ lo' = 2 ^ (hi + 1) * 2 ^ (lo' - (hi + 1)) := by rw [← pow_add]; congr 1; omega
  simp only [field_eq_div, hp, ← Nat.div_div_eq_div_mul, setField_div n hi lo v h]

/-- A field below the replaced one. -/
theorem field_setField_below (n hi lo v hi' lo' : Nat) (h : lo ≤ hi + 1) (h' : hi' < lo) :
    field (setField n hi lo v) hi' lo' = field n hi' lo' := by
  have key (m : Nat) : field m hi' lo' = field (m % 2 ^ lo) hi' lo' := by
    by_cases hl : lo' ≤ hi' + 1
    · have hp : (2:Nat) ^ lo = 2 ^ lo' * (2 ^ (hi' + 1 - lo') * 2 ^ (lo - (hi' + 1))) := by
        rw [← pow_add, ← pow_add]; congr 1; omega
      rw [field_eq_div, field_eq_div, hp, Nat.mod_mul_right_div_self, Nat.mod_mul_right_mod]
    · simp [field_eq_div, show hi' + 1 - lo' = 0 by omega, Nat.mod_one]
  rw [key, setField_mod n hi lo v h, ← key]

/-- A bit above the replaced field. -/
theorem bitAt_setField_above (n hi lo v i : Nat) (h : lo ≤ hi + 1) (h' : hi < i) : bitAt (setField n hi lo v) i = bitAt n i := by
  have := field_setField_above n hi lo v i i h h'
  simp only [field_eq_div, show i + 1 - i = 1 by omega, pow_one] at this
  simp only [bitAt_eq, this]

/-! ### The CRC -/

theorem crcBits_lt (k r : Nat) (h : r < 2 ^ 64) : crcBits k r < 2 ^ 64 := by
  induction k generalizing r with
  | zero => exact h
  | succ k ih =>
    apply ih
    split
    · exact Nat.xor_lt_two_pow (by omega) (by norm_num)
    · omega

theorem crc64_lt (bs : List Byte) : crc64 bs < 2 ^ 64 := by
  have go (r : Nat) (h : r < 2 ^ 64) : bs.foldl crcByte r < 2 ^ 64 := by
    induction bs generalizing r with
    | nil => exact h
    | cons b bs ih => exact ih _ (crcBits_lt 8 _ (Nat.xor_lt_two_pow h (lt_trans b.isLt (by norm_num))))
  exact Nat.xor_lt_two_pow (go _ (by norm_num)) (by norm_num)

end Sys2Proof.Machine
end

