-- ==== Sys2Proof/Laws/State.lean ====
section
/-!
SUPPORT. Every update of the part, field by field: what it changes and what it leaves.
-/

namespace Sys2Proof.Machine

@[simp] theorem onLinks_links (f : Links → Links) (s : Part) : (onLinks f s).links = f s.links := rfl
@[simp] theorem onLinks_sw (f : Links → Links) (s : Part) : (onLinks f s).sw = s.sw := rfl
@[simp] theorem onLinks_pool (f : Links → Links) (s : Part) : (onLinks f s).pool = s.pool := rfl
@[simp] theorem onLinks_regions (f : Links → Links) (s : Part) : (onLinks f s).regions = s.regions := rfl
@[simp] theorem onLinks_cat (f : Links → Links) (s : Part) : (onLinks f s).cat = s.cat := rfl
@[simp] theorem onLinks_dram (f : Links → Links) (s : Part) : (onLinks f s).dram = s.dram := rfl
@[simp] theorem onLinks_gals (f : Links → Links) (s : Part) : (onLinks f s).gals = s.gals := rfl
@[simp] theorem onLinks_flr (f : Links → Links) (s : Part) : (onLinks f s).flr = s.flr := rfl
@[simp] theorem onLinks_cur (f : Links → Links) (s : Part) : (onLinks f s).cur = s.cur := rfl
@[simp] theorem onLinks_mgmt (f : Links → Links) (s : Part) : (onLinks f s).mgmt = s.mgmt := rfl
@[simp] theorem onLinks_views (f : Links → Links) (s : Part) : (onLinks f s).views = s.views := rfl
@[simp] theorem onLinks_tel (f : Links → Links) (s : Part) : (onLinks f s).tel = s.tel := rfl
@[simp] theorem onLinks_power (f : Links → Links) (s : Part) : (onLinks f s).power = s.power := rfl
@[simp] theorem onLinks_clv (f : Links → Links) (s : Part) : (onLinks f s).clv = s.clv := rfl
@[simp] theorem onLinks_gfu (f : Links → Links) (s : Part) : (onLinks f s).gfu = s.gfu := rfl
@[simp] theorem onLinks_str (f : Links → Links) (s : Part) : (onLinks f s).str = s.str := rfl
@[simp] theorem onLinks_cmp (f : Links → Links) (s : Part) : (onLinks f s).cmp = s.cmp := rfl
@[simp] theorem onLinks_chu (f : Links → Links) (s : Part) : (onLinks f s).chu = s.chu := rfl
@[simp] theorem onLinks_flt (f : Links → Links) (s : Part) : (onLinks f s).flt = s.flt := rfl
@[simp] theorem onLinks_inbox (f : Links → Links) (s : Part) : (onLinks f s).inbox = s.inbox := rfl
@[simp] theorem onLinks_freeCtr (f : Links → Links) (s : Part) : (onLinks f s).freeCtr = s.freeCtr := rfl
theorem onLinks_comp (f g : Links → Links) (s : Part) : onLinks f (onLinks g s) = onLinks (fun x => f (g x)) s := rfl

@[simp] theorem onSwitch_links (f : Switch → Switch) (s : Part) : (onSwitch f s).links = s.links := rfl
@[simp] theorem onSwitch_sw (f : Switch → Switch) (s : Part) : (onSwitch f s).sw = f s.sw := rfl
@[simp] theorem onSwitch_pool (f : Switch → Switch) (s : Part) : (onSwitch f s).pool = s.pool := rfl
@[simp] theorem onSwitch_regions (f : Switch → Switch) (s : Part) : (onSwitch f s).regions = s.regions := rfl
@[simp] theorem onSwitch_cat (f : Switch → Switch) (s : Part) : (onSwitch f s).cat = s.cat := rfl
@[simp] theorem onSwitch_dram (f : Switch → Switch) (s : Part) : (onSwitch f s).dram = s.dram := rfl
@[simp] theorem onSwitch_gals (f : Switch → Switch) (s : Part) : (onSwitch f s).gals = s.gals := rfl
@[simp] theorem onSwitch_flr (f : Switch → Switch) (s : Part) : (onSwitch f s).flr = s.flr := rfl
@[simp] theorem onSwitch_cur (f : Switch → Switch) (s : Part) : (onSwitch f s).cur = s.cur := rfl
@[simp] theorem onSwitch_mgmt (f : Switch → Switch) (s : Part) : (onSwitch f s).mgmt = s.mgmt := rfl
@[simp] theorem onSwitch_views (f : Switch → Switch) (s : Part) : (onSwitch f s).views = s.views := rfl
@[simp] theorem onSwitch_tel (f : Switch → Switch) (s : Part) : (onSwitch f s).tel = s.tel := rfl
@[simp] theorem onSwitch_power (f : Switch → Switch) (s : Part) : (onSwitch f s).power = s.power := rfl
@[simp] theorem onSwitch_clv (f : Switch → Switch) (s : Part) : (onSwitch f s).clv = s.clv := rfl
@[simp] theorem onSwitch_gfu (f : Switch → Switch) (s : Part) : (onSwitch f s).gfu = s.gfu := rfl
@[simp] theorem onSwitch_str (f : Switch → Switch) (s : Part) : (onSwitch f s).str = s.str := rfl
@[simp] theorem onSwitch_cmp (f : Switch → Switch) (s : Part) : (onSwitch f s).cmp = s.cmp := rfl
@[simp] theorem onSwitch_chu (f : Switch → Switch) (s : Part) : (onSwitch f s).chu = s.chu := rfl
@[simp] theorem onSwitch_flt (f : Switch → Switch) (s : Part) : (onSwitch f s).flt = s.flt := rfl
@[simp] theorem onSwitch_inbox (f : Switch → Switch) (s : Part) : (onSwitch f s).inbox = s.inbox := rfl
@[simp] theorem onSwitch_freeCtr (f : Switch → Switch) (s : Part) : (onSwitch f s).freeCtr = s.freeCtr := rfl
theorem onSwitch_comp (f g : Switch → Switch) (s : Part) : onSwitch f (onSwitch g s) = onSwitch (fun x => f (g x)) s := rfl

@[simp] theorem onPool_links (f : Pool → Pool) (s : Part) : (onPool f s).links = s.links := rfl
@[simp] theorem onPool_sw (f : Pool → Pool) (s : Part) : (onPool f s).sw = s.sw := rfl
@[simp] theorem onPool_pool (f : Pool → Pool) (s : Part) : (onPool f s).pool = f s.pool := rfl
@[simp] theorem onPool_regions (f : Pool → Pool) (s : Part) : (onPool f s).regions = s.regions := rfl
@[simp] theorem onPool_cat (f : Pool → Pool) (s : Part) : (onPool f s).cat = s.cat := rfl
@[simp] theorem onPool_dram (f : Pool → Pool) (s : Part) : (onPool f s).dram = s.dram := rfl
@[simp] theorem onPool_gals (f : Pool → Pool) (s : Part) : (onPool f s).gals = s.gals := rfl
@[simp] theorem onPool_flr (f : Pool → Pool) (s : Part) : (onPool f s).flr = s.flr := rfl
@[simp] theorem onPool_cur (f : Pool → Pool) (s : Part) : (onPool f s).cur = s.cur := rfl
@[simp] theorem onPool_mgmt (f : Pool → Pool) (s : Part) : (onPool f s).mgmt = s.mgmt := rfl
@[simp] theorem onPool_views (f : Pool → Pool) (s : Part) : (onPool f s).views = s.views := rfl
@[simp] theorem onPool_tel (f : Pool → Pool) (s : Part) : (onPool f s).tel = s.tel := rfl
@[simp] theorem onPool_power (f : Pool → Pool) (s : Part) : (onPool f s).power = s.power := rfl
@[simp] theorem onPool_clv (f : Pool → Pool) (s : Part) : (onPool f s).clv = s.clv := rfl
@[simp] theorem onPool_gfu (f : Pool → Pool) (s : Part) : (onPool f s).gfu = s.gfu := rfl
@[simp] theorem onPool_str (f : Pool → Pool) (s : Part) : (onPool f s).str = s.str := rfl
@[simp] theorem onPool_cmp (f : Pool → Pool) (s : Part) : (onPool f s).cmp = s.cmp := rfl
@[simp] theorem onPool_chu (f : Pool → Pool) (s : Part) : (onPool f s).chu = s.chu := rfl
@[simp] theorem onPool_flt (f : Pool → Pool) (s : Part) : (onPool f s).flt = s.flt := rfl
@[simp] theorem onPool_inbox (f : Pool → Pool) (s : Part) : (onPool f s).inbox = s.inbox := rfl
@[simp] theorem onPool_freeCtr (f : Pool → Pool) (s : Part) : (onPool f s).freeCtr = s.freeCtr := rfl
theorem onPool_comp (f g : Pool → Pool) (s : Part) : onPool f (onPool g s) = onPool (fun x => f (g x)) s := rfl

@[simp] theorem onRegions_links (f : Regions → Regions) (s : Part) : (onRegions f s).links = s.links := rfl
@[simp] theorem onRegions_sw (f : Regions → Regions) (s : Part) : (onRegions f s).sw = s.sw := rfl
@[simp] theorem onRegions_pool (f : Regions → Regions) (s : Part) : (onRegions f s).pool = s.pool := rfl
@[simp] theorem onRegions_regions (f : Regions → Regions) (s : Part) : (onRegions f s).regions = f s.regions := rfl
@[simp] theorem onRegions_cat (f : Regions → Regions) (s : Part) : (onRegions f s).cat = s.cat := rfl
@[simp] theorem onRegions_dram (f : Regions → Regions) (s : Part) : (onRegions f s).dram = s.dram := rfl
@[simp] theorem onRegions_gals (f : Regions → Regions) (s : Part) : (onRegions f s).gals = s.gals := rfl
@[simp] theorem onRegions_flr (f : Regions → Regions) (s : Part) : (onRegions f s).flr = s.flr := rfl
@[simp] theorem onRegions_cur (f : Regions → Regions) (s : Part) : (onRegions f s).cur = s.cur := rfl
@[simp] theorem onRegions_mgmt (f : Regions → Regions) (s : Part) : (onRegions f s).mgmt = s.mgmt := rfl
@[simp] theorem onRegions_views (f : Regions → Regions) (s : Part) : (onRegions f s).views = s.views := rfl
@[simp] theorem onRegions_tel (f : Regions → Regions) (s : Part) : (onRegions f s).tel = s.tel := rfl
@[simp] theorem onRegions_power (f : Regions → Regions) (s : Part) : (onRegions f s).power = s.power := rfl
@[simp] theorem onRegions_clv (f : Regions → Regions) (s : Part) : (onRegions f s).clv = s.clv := rfl
@[simp] theorem onRegions_gfu (f : Regions → Regions) (s : Part) : (onRegions f s).gfu = s.gfu := rfl
@[simp] theorem onRegions_str (f : Regions → Regions) (s : Part) : (onRegions f s).str = s.str := rfl
@[simp] theorem onRegions_cmp (f : Regions → Regions) (s : Part) : (onRegions f s).cmp = s.cmp := rfl
@[simp] theorem onRegions_chu (f : Regions → Regions) (s : Part) : (onRegions f s).chu = s.chu := rfl
@[simp] theorem onRegions_flt (f : Regions → Regions) (s : Part) : (onRegions f s).flt = s.flt := rfl
@[simp] theorem onRegions_inbox (f : Regions → Regions) (s : Part) : (onRegions f s).inbox = s.inbox := rfl
@[simp] theorem onRegions_freeCtr (f : Regions → Regions) (s : Part) : (onRegions f s).freeCtr = s.freeCtr := rfl
theorem onRegions_comp (f g : Regions → Regions) (s : Part) : onRegions f (onRegions g s) = onRegions (fun x => f (g x)) s := rfl

@[simp] theorem onCatalogue_links (f : Catalogue → Catalogue) (s : Part) : (onCatalogue f s).links = s.links := rfl
@[simp] theorem onCatalogue_sw (f : Catalogue → Catalogue) (s : Part) : (onCatalogue f s).sw = s.sw := rfl
@[simp] theorem onCatalogue_pool (f : Catalogue → Catalogue) (s : Part) : (onCatalogue f s).pool = s.pool := rfl
@[simp] theorem onCatalogue_regions (f : Catalogue → Catalogue) (s : Part) : (onCatalogue f s).regions = s.regions := rfl
@[simp] theorem onCatalogue_cat (f : Catalogue → Catalogue) (s : Part) : (onCatalogue f s).cat = f s.cat := rfl
@[simp] theorem onCatalogue_dram (f : Catalogue → Catalogue) (s : Part) : (onCatalogue f s).dram = s.dram := rfl
@[simp] theorem onCatalogue_gals (f : Catalogue → Catalogue) (s : Part) : (onCatalogue f s).gals = s.gals := rfl
@[simp] theorem onCatalogue_flr (f : Catalogue → Catalogue) (s : Part) : (onCatalogue f s).flr = s.flr := rfl
@[simp] theorem onCatalogue_cur (f : Catalogue → Catalogue) (s : Part) : (onCatalogue f s).cur = s.cur := rfl
@[simp] theorem onCatalogue_mgmt (f : Catalogue → Catalogue) (s : Part) : (onCatalogue f s).mgmt = s.mgmt := rfl
@[simp] theorem onCatalogue_views (f : Catalogue → Catalogue) (s : Part) : (onCatalogue f s).views = s.views := rfl
@[simp] theorem onCatalogue_tel (f : Catalogue → Catalogue) (s : Part) : (onCatalogue f s).tel = s.tel := rfl
@[simp] theorem onCatalogue_power (f : Catalogue → Catalogue) (s : Part) : (onCatalogue f s).power = s.power := rfl
@[simp] theorem onCatalogue_clv (f : Catalogue → Catalogue) (s : Part) : (onCatalogue f s).clv = s.clv := rfl
@[simp] theorem onCatalogue_gfu (f : Catalogue → Catalogue) (s : Part) : (onCatalogue f s).gfu = s.gfu := rfl
@[simp] theorem onCatalogue_str (f : Catalogue → Catalogue) (s : Part) : (onCatalogue f s).str = s.str := rfl
@[simp] theorem onCatalogue_cmp (f : Catalogue → Catalogue) (s : Part) : (onCatalogue f s).cmp = s.cmp := rfl
@[simp] theorem onCatalogue_chu (f : Catalogue → Catalogue) (s : Part) : (onCatalogue f s).chu = s.chu := rfl
@[simp] theorem onCatalogue_flt (f : Catalogue → Catalogue) (s : Part) : (onCatalogue f s).flt = s.flt := rfl
@[simp] theorem onCatalogue_inbox (f : Catalogue → Catalogue) (s : Part) : (onCatalogue f s).inbox = s.inbox := rfl
@[simp] theorem onCatalogue_freeCtr (f : Catalogue → Catalogue) (s : Part) : (onCatalogue f s).freeCtr = s.freeCtr := rfl
theorem onCatalogue_comp (f g : Catalogue → Catalogue) (s : Part) : onCatalogue f (onCatalogue g s) = onCatalogue (fun x => f (g x)) s := rfl

@[simp] theorem onDram_links (f : Dram → Dram) (s : Part) : (onDram f s).links = s.links := rfl
@[simp] theorem onDram_sw (f : Dram → Dram) (s : Part) : (onDram f s).sw = s.sw := rfl
@[simp] theorem onDram_pool (f : Dram → Dram) (s : Part) : (onDram f s).pool = s.pool := rfl
@[simp] theorem onDram_regions (f : Dram → Dram) (s : Part) : (onDram f s).regions = s.regions := rfl
@[simp] theorem onDram_cat (f : Dram → Dram) (s : Part) : (onDram f s).cat = s.cat := rfl
@[simp] theorem onDram_dram (f : Dram → Dram) (s : Part) : (onDram f s).dram = f s.dram := rfl
@[simp] theorem onDram_gals (f : Dram → Dram) (s : Part) : (onDram f s).gals = s.gals := rfl
@[simp] theorem onDram_flr (f : Dram → Dram) (s : Part) : (onDram f s).flr = s.flr := rfl
@[simp] theorem onDram_cur (f : Dram → Dram) (s : Part) : (onDram f s).cur = s.cur := rfl
@[simp] theorem onDram_mgmt (f : Dram → Dram) (s : Part) : (onDram f s).mgmt = s.mgmt := rfl
@[simp] theorem onDram_views (f : Dram → Dram) (s : Part) : (onDram f s).views = s.views := rfl
@[simp] theorem onDram_tel (f : Dram → Dram) (s : Part) : (onDram f s).tel = s.tel := rfl
@[simp] theorem onDram_power (f : Dram → Dram) (s : Part) : (onDram f s).power = s.power := rfl
@[simp] theorem onDram_clv (f : Dram → Dram) (s : Part) : (onDram f s).clv = s.clv := rfl
@[simp] theorem onDram_gfu (f : Dram → Dram) (s : Part) : (onDram f s).gfu = s.gfu := rfl
@[simp] theorem onDram_str (f : Dram → Dram) (s : Part) : (onDram f s).str = s.str := rfl
@[simp] theorem onDram_cmp (f : Dram → Dram) (s : Part) : (onDram f s).cmp = s.cmp := rfl
@[simp] theorem onDram_chu (f : Dram → Dram) (s : Part) : (onDram f s).chu = s.chu := rfl
@[simp] theorem onDram_flt (f : Dram → Dram) (s : Part) : (onDram f s).flt = s.flt := rfl
@[simp] theorem onDram_inbox (f : Dram → Dram) (s : Part) : (onDram f s).inbox = s.inbox := rfl
@[simp] theorem onDram_freeCtr (f : Dram → Dram) (s : Part) : (onDram f s).freeCtr = s.freeCtr := rfl
theorem onDram_comp (f g : Dram → Dram) (s : Part) : onDram f (onDram g s) = onDram (fun x => f (g x)) s := rfl

@[simp] theorem onGalleries_links (f : Galleries → Galleries) (s : Part) : (onGalleries f s).links = s.links := rfl
@[simp] theorem onGalleries_sw (f : Galleries → Galleries) (s : Part) : (onGalleries f s).sw = s.sw := rfl
@[simp] theorem onGalleries_pool (f : Galleries → Galleries) (s : Part) : (onGalleries f s).pool = s.pool := rfl
@[simp] theorem onGalleries_regions (f : Galleries → Galleries) (s : Part) : (onGalleries f s).regions = s.regions := rfl
@[simp] theorem onGalleries_cat (f : Galleries → Galleries) (s : Part) : (onGalleries f s).cat = s.cat := rfl
@[simp] theorem onGalleries_dram (f : Galleries → Galleries) (s : Part) : (onGalleries f s).dram = s.dram := rfl
@[simp] theorem onGalleries_gals (f : Galleries → Galleries) (s : Part) : (onGalleries f s).gals = f s.gals := rfl
@[simp] theorem onGalleries_flr (f : Galleries → Galleries) (s : Part) : (onGalleries f s).flr = s.flr := rfl
@[simp] theorem onGalleries_cur (f : Galleries → Galleries) (s : Part) : (onGalleries f s).cur = s.cur := rfl
@[simp] theorem onGalleries_mgmt (f : Galleries → Galleries) (s : Part) : (onGalleries f s).mgmt = s.mgmt := rfl
@[simp] theorem onGalleries_views (f : Galleries → Galleries) (s : Part) : (onGalleries f s).views = s.views := rfl
@[simp] theorem onGalleries_tel (f : Galleries → Galleries) (s : Part) : (onGalleries f s).tel = s.tel := rfl
@[simp] theorem onGalleries_power (f : Galleries → Galleries) (s : Part) : (onGalleries f s).power = s.power := rfl
@[simp] theorem onGalleries_clv (f : Galleries → Galleries) (s : Part) : (onGalleries f s).clv = s.clv := rfl
@[simp] theorem onGalleries_gfu (f : Galleries → Galleries) (s : Part) : (onGalleries f s).gfu = s.gfu := rfl
@[simp] theorem onGalleries_str (f : Galleries → Galleries) (s : Part) : (onGalleries f s).str = s.str := rfl
@[simp] theorem onGalleries_cmp (f : Galleries → Galleries) (s : Part) : (onGalleries f s).cmp = s.cmp := rfl
@[simp] theorem onGalleries_chu (f : Galleries → Galleries) (s : Part) : (onGalleries f s).chu = s.chu := rfl
@[simp] theorem onGalleries_flt (f : Galleries → Galleries) (s : Part) : (onGalleries f s).flt = s.flt := rfl
@[simp] theorem onGalleries_inbox (f : Galleries → Galleries) (s : Part) : (onGalleries f s).inbox = s.inbox := rfl
@[simp] theorem onGalleries_freeCtr (f : Galleries → Galleries) (s : Part) : (onGalleries f s).freeCtr = s.freeCtr := rfl
theorem onGalleries_comp (f g : Galleries → Galleries) (s : Part) : onGalleries f (onGalleries g s) = onGalleries (fun x => f (g x)) s := rfl

@[simp] theorem onRecovery_links (f : Recovery → Recovery) (s : Part) : (onRecovery f s).links = s.links := rfl
@[simp] theorem onRecovery_sw (f : Recovery → Recovery) (s : Part) : (onRecovery f s).sw = s.sw := rfl
@[simp] theorem onRecovery_pool (f : Recovery → Recovery) (s : Part) : (onRecovery f s).pool = s.pool := rfl
@[simp] theorem onRecovery_regions (f : Recovery → Recovery) (s : Part) : (onRecovery f s).regions = s.regions := rfl
@[simp] theorem onRecovery_cat (f : Recovery → Recovery) (s : Part) : (onRecovery f s).cat = s.cat := rfl
@[simp] theorem onRecovery_dram (f : Recovery → Recovery) (s : Part) : (onRecovery f s).dram = s.dram := rfl
@[simp] theorem onRecovery_gals (f : Recovery → Recovery) (s : Part) : (onRecovery f s).gals = s.gals := rfl
@[simp] theorem onRecovery_flr (f : Recovery → Recovery) (s : Part) : (onRecovery f s).flr = f s.flr := rfl
@[simp] theorem onRecovery_cur (f : Recovery → Recovery) (s : Part) : (onRecovery f s).cur = s.cur := rfl
@[simp] theorem onRecovery_mgmt (f : Recovery → Recovery) (s : Part) : (onRecovery f s).mgmt = s.mgmt := rfl
@[simp] theorem onRecovery_views (f : Recovery → Recovery) (s : Part) : (onRecovery f s).views = s.views := rfl
@[simp] theorem onRecovery_tel (f : Recovery → Recovery) (s : Part) : (onRecovery f s).tel = s.tel := rfl
@[simp] theorem onRecovery_power (f : Recovery → Recovery) (s : Part) : (onRecovery f s).power = s.power := rfl
@[simp] theorem onRecovery_clv (f : Recovery → Recovery) (s : Part) : (onRecovery f s).clv = s.clv := rfl
@[simp] theorem onRecovery_gfu (f : Recovery → Recovery) (s : Part) : (onRecovery f s).gfu = s.gfu := rfl
@[simp] theorem onRecovery_str (f : Recovery → Recovery) (s : Part) : (onRecovery f s).str = s.str := rfl
@[simp] theorem onRecovery_cmp (f : Recovery → Recovery) (s : Part) : (onRecovery f s).cmp = s.cmp := rfl
@[simp] theorem onRecovery_chu (f : Recovery → Recovery) (s : Part) : (onRecovery f s).chu = s.chu := rfl
@[simp] theorem onRecovery_flt (f : Recovery → Recovery) (s : Part) : (onRecovery f s).flt = s.flt := rfl
@[simp] theorem onRecovery_inbox (f : Recovery → Recovery) (s : Part) : (onRecovery f s).inbox = s.inbox := rfl
@[simp] theorem onRecovery_freeCtr (f : Recovery → Recovery) (s : Part) : (onRecovery f s).freeCtr = s.freeCtr := rfl
theorem onRecovery_comp (f g : Recovery → Recovery) (s : Part) : onRecovery f (onRecovery g s) = onRecovery (fun x => f (g x)) s := rfl

@[simp] theorem onCurator_links (f : Curator → Curator) (s : Part) : (onCurator f s).links = s.links := rfl
@[simp] theorem onCurator_sw (f : Curator → Curator) (s : Part) : (onCurator f s).sw = s.sw := rfl
@[simp] theorem onCurator_pool (f : Curator → Curator) (s : Part) : (onCurator f s).pool = s.pool := rfl
@[simp] theorem onCurator_regions (f : Curator → Curator) (s : Part) : (onCurator f s).regions = s.regions := rfl
@[simp] theorem onCurator_cat (f : Curator → Curator) (s : Part) : (onCurator f s).cat = s.cat := rfl
@[simp] theorem onCurator_dram (f : Curator → Curator) (s : Part) : (onCurator f s).dram = s.dram := rfl
@[simp] theorem onCurator_gals (f : Curator → Curator) (s : Part) : (onCurator f s).gals = s.gals := rfl
@[simp] theorem onCurator_flr (f : Curator → Curator) (s : Part) : (onCurator f s).flr = s.flr := rfl
@[simp] theorem onCurator_cur (f : Curator → Curator) (s : Part) : (onCurator f s).cur = f s.cur := rfl
@[simp] theorem onCurator_mgmt (f : Curator → Curator) (s : Part) : (onCurator f s).mgmt = s.mgmt := rfl
@[simp] theorem onCurator_views (f : Curator → Curator) (s : Part) : (onCurator f s).views = s.views := rfl
@[simp] theorem onCurator_tel (f : Curator → Curator) (s : Part) : (onCurator f s).tel = s.tel := rfl
@[simp] theorem onCurator_power (f : Curator → Curator) (s : Part) : (onCurator f s).power = s.power := rfl
@[simp] theorem onCurator_clv (f : Curator → Curator) (s : Part) : (onCurator f s).clv = s.clv := rfl
@[simp] theorem onCurator_gfu (f : Curator → Curator) (s : Part) : (onCurator f s).gfu = s.gfu := rfl
@[simp] theorem onCurator_str (f : Curator → Curator) (s : Part) : (onCurator f s).str = s.str := rfl
@[simp] theorem onCurator_cmp (f : Curator → Curator) (s : Part) : (onCurator f s).cmp = s.cmp := rfl
@[simp] theorem onCurator_chu (f : Curator → Curator) (s : Part) : (onCurator f s).chu = s.chu := rfl
@[simp] theorem onCurator_flt (f : Curator → Curator) (s : Part) : (onCurator f s).flt = s.flt := rfl
@[simp] theorem onCurator_inbox (f : Curator → Curator) (s : Part) : (onCurator f s).inbox = s.inbox := rfl
@[simp] theorem onCurator_freeCtr (f : Curator → Curator) (s : Part) : (onCurator f s).freeCtr = s.freeCtr := rfl
theorem onCurator_comp (f g : Curator → Curator) (s : Part) : onCurator f (onCurator g s) = onCurator (fun x => f (g x)) s := rfl

@[simp] theorem onManagement_links (f : Management → Management) (s : Part) : (onManagement f s).links = s.links := rfl
@[simp] theorem onManagement_sw (f : Management → Management) (s : Part) : (onManagement f s).sw = s.sw := rfl
@[simp] theorem onManagement_pool (f : Management → Management) (s : Part) : (onManagement f s).pool = s.pool := rfl
@[simp] theorem onManagement_regions (f : Management → Management) (s : Part) : (onManagement f s).regions = s.regions := rfl
@[simp] theorem onManagement_cat (f : Management → Management) (s : Part) : (onManagement f s).cat = s.cat := rfl
@[simp] theorem onManagement_dram (f : Management → Management) (s : Part) : (onManagement f s).dram = s.dram := rfl
@[simp] theorem onManagement_gals (f : Management → Management) (s : Part) : (onManagement f s).gals = s.gals := rfl
@[simp] theorem onManagement_flr (f : Management → Management) (s : Part) : (onManagement f s).flr = s.flr := rfl
@[simp] theorem onManagement_cur (f : Management → Management) (s : Part) : (onManagement f s).cur = s.cur := rfl
@[simp] theorem onManagement_mgmt (f : Management → Management) (s : Part) : (onManagement f s).mgmt = f s.mgmt := rfl
@[simp] theorem onManagement_views (f : Management → Management) (s : Part) : (onManagement f s).views = s.views := rfl
@[simp] theorem onManagement_tel (f : Management → Management) (s : Part) : (onManagement f s).tel = s.tel := rfl
@[simp] theorem onManagement_power (f : Management → Management) (s : Part) : (onManagement f s).power = s.power := rfl
@[simp] theorem onManagement_clv (f : Management → Management) (s : Part) : (onManagement f s).clv = s.clv := rfl
@[simp] theorem onManagement_gfu (f : Management → Management) (s : Part) : (onManagement f s).gfu = s.gfu := rfl
@[simp] theorem onManagement_str (f : Management → Management) (s : Part) : (onManagement f s).str = s.str := rfl
@[simp] theorem onManagement_cmp (f : Management → Management) (s : Part) : (onManagement f s).cmp = s.cmp := rfl
@[simp] theorem onManagement_chu (f : Management → Management) (s : Part) : (onManagement f s).chu = s.chu := rfl
@[simp] theorem onManagement_flt (f : Management → Management) (s : Part) : (onManagement f s).flt = s.flt := rfl
@[simp] theorem onManagement_inbox (f : Management → Management) (s : Part) : (onManagement f s).inbox = s.inbox := rfl
@[simp] theorem onManagement_freeCtr (f : Management → Management) (s : Part) : (onManagement f s).freeCtr = s.freeCtr := rfl
theorem onManagement_comp (f g : Management → Management) (s : Part) : onManagement f (onManagement g s) = onManagement (fun x => f (g x)) s := rfl

@[simp] theorem onTelemetry_links (f : Telemetry → Telemetry) (s : Part) : (onTelemetry f s).links = s.links := rfl
@[simp] theorem onTelemetry_sw (f : Telemetry → Telemetry) (s : Part) : (onTelemetry f s).sw = s.sw := rfl
@[simp] theorem onTelemetry_pool (f : Telemetry → Telemetry) (s : Part) : (onTelemetry f s).pool = s.pool := rfl
@[simp] theorem onTelemetry_regions (f : Telemetry → Telemetry) (s : Part) : (onTelemetry f s).regions = s.regions := rfl
@[simp] theorem onTelemetry_cat (f : Telemetry → Telemetry) (s : Part) : (onTelemetry f s).cat = s.cat := rfl
@[simp] theorem onTelemetry_dram (f : Telemetry → Telemetry) (s : Part) : (onTelemetry f s).dram = s.dram := rfl
@[simp] theorem onTelemetry_gals (f : Telemetry → Telemetry) (s : Part) : (onTelemetry f s).gals = s.gals := rfl
@[simp] theorem onTelemetry_flr (f : Telemetry → Telemetry) (s : Part) : (onTelemetry f s).flr = s.flr := rfl
@[simp] theorem onTelemetry_cur (f : Telemetry → Telemetry) (s : Part) : (onTelemetry f s).cur = s.cur := rfl
@[simp] theorem onTelemetry_mgmt (f : Telemetry → Telemetry) (s : Part) : (onTelemetry f s).mgmt = s.mgmt := rfl
@[simp] theorem onTelemetry_views (f : Telemetry → Telemetry) (s : Part) : (onTelemetry f s).views = s.views := rfl
@[simp] theorem onTelemetry_tel (f : Telemetry → Telemetry) (s : Part) : (onTelemetry f s).tel = f s.tel := rfl
@[simp] theorem onTelemetry_power (f : Telemetry → Telemetry) (s : Part) : (onTelemetry f s).power = s.power := rfl
@[simp] theorem onTelemetry_clv (f : Telemetry → Telemetry) (s : Part) : (onTelemetry f s).clv = s.clv := rfl
@[simp] theorem onTelemetry_gfu (f : Telemetry → Telemetry) (s : Part) : (onTelemetry f s).gfu = s.gfu := rfl
@[simp] theorem onTelemetry_str (f : Telemetry → Telemetry) (s : Part) : (onTelemetry f s).str = s.str := rfl
@[simp] theorem onTelemetry_cmp (f : Telemetry → Telemetry) (s : Part) : (onTelemetry f s).cmp = s.cmp := rfl
@[simp] theorem onTelemetry_chu (f : Telemetry → Telemetry) (s : Part) : (onTelemetry f s).chu = s.chu := rfl
@[simp] theorem onTelemetry_flt (f : Telemetry → Telemetry) (s : Part) : (onTelemetry f s).flt = s.flt := rfl
@[simp] theorem onTelemetry_inbox (f : Telemetry → Telemetry) (s : Part) : (onTelemetry f s).inbox = s.inbox := rfl
@[simp] theorem onTelemetry_freeCtr (f : Telemetry → Telemetry) (s : Part) : (onTelemetry f s).freeCtr = s.freeCtr := rfl
theorem onTelemetry_comp (f g : Telemetry → Telemetry) (s : Part) : onTelemetry f (onTelemetry g s) = onTelemetry (fun x => f (g x)) s := rfl

@[simp] theorem onPower_links (f : Power → Power) (s : Part) : (onPower f s).links = s.links := rfl
@[simp] theorem onPower_sw (f : Power → Power) (s : Part) : (onPower f s).sw = s.sw := rfl
@[simp] theorem onPower_pool (f : Power → Power) (s : Part) : (onPower f s).pool = s.pool := rfl
@[simp] theorem onPower_regions (f : Power → Power) (s : Part) : (onPower f s).regions = s.regions := rfl
@[simp] theorem onPower_cat (f : Power → Power) (s : Part) : (onPower f s).cat = s.cat := rfl
@[simp] theorem onPower_dram (f : Power → Power) (s : Part) : (onPower f s).dram = s.dram := rfl
@[simp] theorem onPower_gals (f : Power → Power) (s : Part) : (onPower f s).gals = s.gals := rfl
@[simp] theorem onPower_flr (f : Power → Power) (s : Part) : (onPower f s).flr = s.flr := rfl
@[simp] theorem onPower_cur (f : Power → Power) (s : Part) : (onPower f s).cur = s.cur := rfl
@[simp] theorem onPower_mgmt (f : Power → Power) (s : Part) : (onPower f s).mgmt = s.mgmt := rfl
@[simp] theorem onPower_views (f : Power → Power) (s : Part) : (onPower f s).views = s.views := rfl
@[simp] theorem onPower_tel (f : Power → Power) (s : Part) : (onPower f s).tel = s.tel := rfl
@[simp] theorem onPower_power (f : Power → Power) (s : Part) : (onPower f s).power = f s.power := rfl
@[simp] theorem onPower_clv (f : Power → Power) (s : Part) : (onPower f s).clv = s.clv := rfl
@[simp] theorem onPower_gfu (f : Power → Power) (s : Part) : (onPower f s).gfu = s.gfu := rfl
@[simp] theorem onPower_str (f : Power → Power) (s : Part) : (onPower f s).str = s.str := rfl
@[simp] theorem onPower_cmp (f : Power → Power) (s : Part) : (onPower f s).cmp = s.cmp := rfl
@[simp] theorem onPower_chu (f : Power → Power) (s : Part) : (onPower f s).chu = s.chu := rfl
@[simp] theorem onPower_flt (f : Power → Power) (s : Part) : (onPower f s).flt = s.flt := rfl
@[simp] theorem onPower_inbox (f : Power → Power) (s : Part) : (onPower f s).inbox = s.inbox := rfl
@[simp] theorem onPower_freeCtr (f : Power → Power) (s : Part) : (onPower f s).freeCtr = s.freeCtr := rfl
theorem onPower_comp (f g : Power → Power) (s : Part) : onPower f (onPower g s) = onPower (fun x => f (g x)) s := rfl

@[simp] theorem onCollectives_links (f : Collectives → Collectives) (s : Part) : (onCollectives f s).links = s.links := rfl
@[simp] theorem onCollectives_sw (f : Collectives → Collectives) (s : Part) : (onCollectives f s).sw = s.sw := rfl
@[simp] theorem onCollectives_pool (f : Collectives → Collectives) (s : Part) : (onCollectives f s).pool = s.pool := rfl
@[simp] theorem onCollectives_regions (f : Collectives → Collectives) (s : Part) : (onCollectives f s).regions = s.regions := rfl
@[simp] theorem onCollectives_cat (f : Collectives → Collectives) (s : Part) : (onCollectives f s).cat = s.cat := rfl
@[simp] theorem onCollectives_dram (f : Collectives → Collectives) (s : Part) : (onCollectives f s).dram = s.dram := rfl
@[simp] theorem onCollectives_gals (f : Collectives → Collectives) (s : Part) : (onCollectives f s).gals = s.gals := rfl
@[simp] theorem onCollectives_flr (f : Collectives → Collectives) (s : Part) : (onCollectives f s).flr = s.flr := rfl
@[simp] theorem onCollectives_cur (f : Collectives → Collectives) (s : Part) : (onCollectives f s).cur = s.cur := rfl
@[simp] theorem onCollectives_mgmt (f : Collectives → Collectives) (s : Part) : (onCollectives f s).mgmt = s.mgmt := rfl
@[simp] theorem onCollectives_views (f : Collectives → Collectives) (s : Part) : (onCollectives f s).views = s.views := rfl
@[simp] theorem onCollectives_tel (f : Collectives → Collectives) (s : Part) : (onCollectives f s).tel = s.tel := rfl
@[simp] theorem onCollectives_power (f : Collectives → Collectives) (s : Part) : (onCollectives f s).power = s.power := rfl
@[simp] theorem onCollectives_clv (f : Collectives → Collectives) (s : Part) : (onCollectives f s).clv = f s.clv := rfl
@[simp] theorem onCollectives_gfu (f : Collectives → Collectives) (s : Part) : (onCollectives f s).gfu = s.gfu := rfl
@[simp] theorem onCollectives_str (f : Collectives → Collectives) (s : Part) : (onCollectives f s).str = s.str := rfl
@[simp] theorem onCollectives_cmp (f : Collectives → Collectives) (s : Part) : (onCollectives f s).cmp = s.cmp := rfl
@[simp] theorem onCollectives_chu (f : Collectives → Collectives) (s : Part) : (onCollectives f s).chu = s.chu := rfl
@[simp] theorem onCollectives_flt (f : Collectives → Collectives) (s : Part) : (onCollectives f s).flt = s.flt := rfl
@[simp] theorem onCollectives_inbox (f : Collectives → Collectives) (s : Part) : (onCollectives f s).inbox = s.inbox := rfl
@[simp] theorem onCollectives_freeCtr (f : Collectives → Collectives) (s : Part) : (onCollectives f s).freeCtr = s.freeCtr := rfl
theorem onCollectives_comp (f g : Collectives → Collectives) (s : Part) : onCollectives f (onCollectives g s) = onCollectives (fun x => f (g x)) s := rfl

@[simp] theorem onGatherFilter_links (f : GatherFilter → GatherFilter) (s : Part) : (onGatherFilter f s).links = s.links := rfl
@[simp] theorem onGatherFilter_sw (f : GatherFilter → GatherFilter) (s : Part) : (onGatherFilter f s).sw = s.sw := rfl
@[simp] theorem onGatherFilter_pool (f : GatherFilter → GatherFilter) (s : Part) : (onGatherFilter f s).pool = s.pool := rfl
@[simp] theorem onGatherFilter_regions (f : GatherFilter → GatherFilter) (s : Part) : (onGatherFilter f s).regions = s.regions := rfl
@[simp] theorem onGatherFilter_cat (f : GatherFilter → GatherFilter) (s : Part) : (onGatherFilter f s).cat = s.cat := rfl
@[simp] theorem onGatherFilter_dram (f : GatherFilter → GatherFilter) (s : Part) : (onGatherFilter f s).dram = s.dram := rfl
@[simp] theorem onGatherFilter_gals (f : GatherFilter → GatherFilter) (s : Part) : (onGatherFilter f s).gals = s.gals := rfl
@[simp] theorem onGatherFilter_flr (f : GatherFilter → GatherFilter) (s : Part) : (onGatherFilter f s).flr = s.flr := rfl
@[simp] theorem onGatherFilter_cur (f : GatherFilter → GatherFilter) (s : Part) : (onGatherFilter f s).cur = s.cur := rfl
@[simp] theorem onGatherFilter_mgmt (f : GatherFilter → GatherFilter) (s : Part) : (onGatherFilter f s).mgmt = s.mgmt := rfl
@[simp] theorem onGatherFilter_views (f : GatherFilter → GatherFilter) (s : Part) : (onGatherFilter f s).views = s.views := rfl
@[simp] theorem onGatherFilter_tel (f : GatherFilter → GatherFilter) (s : Part) : (onGatherFilter f s).tel = s.tel := rfl
@[simp] theorem onGatherFilter_power (f : GatherFilter → GatherFilter) (s : Part) : (onGatherFilter f s).power = s.power := rfl
@[simp] theorem onGatherFilter_clv (f : GatherFilter → GatherFilter) (s : Part) : (onGatherFilter f s).clv = s.clv := rfl
@[simp] theorem onGatherFilter_gfu (f : GatherFilter → GatherFilter) (s : Part) : (onGatherFilter f s).gfu = f s.gfu := rfl
@[simp] theorem onGatherFilter_str (f : GatherFilter → GatherFilter) (s : Part) : (onGatherFilter f s).str = s.str := rfl
@[simp] theorem onGatherFilter_cmp (f : GatherFilter → GatherFilter) (s : Part) : (onGatherFilter f s).cmp = s.cmp := rfl
@[simp] theorem onGatherFilter_chu (f : GatherFilter → GatherFilter) (s : Part) : (onGatherFilter f s).chu = s.chu := rfl
@[simp] theorem onGatherFilter_flt (f : GatherFilter → GatherFilter) (s : Part) : (onGatherFilter f s).flt = s.flt := rfl
@[simp] theorem onGatherFilter_inbox (f : GatherFilter → GatherFilter) (s : Part) : (onGatherFilter f s).inbox = s.inbox := rfl
@[simp] theorem onGatherFilter_freeCtr (f : GatherFilter → GatherFilter) (s : Part) : (onGatherFilter f s).freeCtr = s.freeCtr := rfl
theorem onGatherFilter_comp (f g : GatherFilter → GatherFilter) (s : Part) : onGatherFilter f (onGatherFilter g s) = onGatherFilter (fun x => f (g x)) s := rfl

@[simp] theorem onStreaming_links (f : Streaming → Streaming) (s : Part) : (onStreaming f s).links = s.links := rfl
@[simp] theorem onStreaming_sw (f : Streaming → Streaming) (s : Part) : (onStreaming f s).sw = s.sw := rfl
@[simp] theorem onStreaming_pool (f : Streaming → Streaming) (s : Part) : (onStreaming f s).pool = s.pool := rfl
@[simp] theorem onStreaming_regions (f : Streaming → Streaming) (s : Part) : (onStreaming f s).regions = s.regions := rfl
@[simp] theorem onStreaming_cat (f : Streaming → Streaming) (s : Part) : (onStreaming f s).cat = s.cat := rfl
@[simp] theorem onStreaming_dram (f : Streaming → Streaming) (s : Part) : (onStreaming f s).dram = s.dram := rfl
@[simp] theorem onStreaming_gals (f : Streaming → Streaming) (s : Part) : (onStreaming f s).gals = s.gals := rfl
@[simp] theorem onStreaming_flr (f : Streaming → Streaming) (s : Part) : (onStreaming f s).flr = s.flr := rfl
@[simp] theorem onStreaming_cur (f : Streaming → Streaming) (s : Part) : (onStreaming f s).cur = s.cur := rfl
@[simp] theorem onStreaming_mgmt (f : Streaming → Streaming) (s : Part) : (onStreaming f s).mgmt = s.mgmt := rfl
@[simp] theorem onStreaming_views (f : Streaming → Streaming) (s : Part) : (onStreaming f s).views = s.views := rfl
@[simp] theorem onStreaming_tel (f : Streaming → Streaming) (s : Part) : (onStreaming f s).tel = s.tel := rfl
@[simp] theorem onStreaming_power (f : Streaming → Streaming) (s : Part) : (onStreaming f s).power = s.power := rfl
@[simp] theorem onStreaming_clv (f : Streaming → Streaming) (s : Part) : (onStreaming f s).clv = s.clv := rfl
@[simp] theorem onStreaming_gfu (f : Streaming → Streaming) (s : Part) : (onStreaming f s).gfu = s.gfu := rfl
@[simp] theorem onStreaming_str (f : Streaming → Streaming) (s : Part) : (onStreaming f s).str = f s.str := rfl
@[simp] theorem onStreaming_cmp (f : Streaming → Streaming) (s : Part) : (onStreaming f s).cmp = s.cmp := rfl
@[simp] theorem onStreaming_chu (f : Streaming → Streaming) (s : Part) : (onStreaming f s).chu = s.chu := rfl
@[simp] theorem onStreaming_flt (f : Streaming → Streaming) (s : Part) : (onStreaming f s).flt = s.flt := rfl
@[simp] theorem onStreaming_inbox (f : Streaming → Streaming) (s : Part) : (onStreaming f s).inbox = s.inbox := rfl
@[simp] theorem onStreaming_freeCtr (f : Streaming → Streaming) (s : Part) : (onStreaming f s).freeCtr = s.freeCtr := rfl
theorem onStreaming_comp (f g : Streaming → Streaming) (s : Part) : onStreaming f (onStreaming g s) = onStreaming (fun x => f (g x)) s := rfl

@[simp] theorem onCompression_links (f : Compression → Compression) (s : Part) : (onCompression f s).links = s.links := rfl
@[simp] theorem onCompression_sw (f : Compression → Compression) (s : Part) : (onCompression f s).sw = s.sw := rfl
@[simp] theorem onCompression_pool (f : Compression → Compression) (s : Part) : (onCompression f s).pool = s.pool := rfl
@[simp] theorem onCompression_regions (f : Compression → Compression) (s : Part) : (onCompression f s).regions = s.regions := rfl
@[simp] theorem onCompression_cat (f : Compression → Compression) (s : Part) : (onCompression f s).cat = s.cat := rfl
@[simp] theorem onCompression_dram (f : Compression → Compression) (s : Part) : (onCompression f s).dram = s.dram := rfl
@[simp] theorem onCompression_gals (f : Compression → Compression) (s : Part) : (onCompression f s).gals = s.gals := rfl
@[simp] theorem onCompression_flr (f : Compression → Compression) (s : Part) : (onCompression f s).flr = s.flr := rfl
@[simp] theorem onCompression_cur (f : Compression → Compression) (s : Part) : (onCompression f s).cur = s.cur := rfl
@[simp] theorem onCompression_mgmt (f : Compression → Compression) (s : Part) : (onCompression f s).mgmt = s.mgmt := rfl
@[simp] theorem onCompression_views (f : Compression → Compression) (s : Part) : (onCompression f s).views = s.views := rfl
@[simp] theorem onCompression_tel (f : Compression → Compression) (s : Part) : (onCompression f s).tel = s.tel := rfl
@[simp] theorem onCompression_power (f : Compression → Compression) (s : Part) : (onCompression f s).power = s.power := rfl
@[simp] theorem onCompression_clv (f : Compression → Compression) (s : Part) : (onCompression f s).clv = s.clv := rfl
@[simp] theorem onCompression_gfu (f : Compression → Compression) (s : Part) : (onCompression f s).gfu = s.gfu := rfl
@[simp] theorem onCompression_str (f : Compression → Compression) (s : Part) : (onCompression f s).str = s.str := rfl
@[simp] theorem onCompression_cmp (f : Compression → Compression) (s : Part) : (onCompression f s).cmp = f s.cmp := rfl
@[simp] theorem onCompression_chu (f : Compression → Compression) (s : Part) : (onCompression f s).chu = s.chu := rfl
@[simp] theorem onCompression_flt (f : Compression → Compression) (s : Part) : (onCompression f s).flt = s.flt := rfl
@[simp] theorem onCompression_inbox (f : Compression → Compression) (s : Part) : (onCompression f s).inbox = s.inbox := rfl
@[simp] theorem onCompression_freeCtr (f : Compression → Compression) (s : Part) : (onCompression f s).freeCtr = s.freeCtr := rfl
theorem onCompression_comp (f g : Compression → Compression) (s : Part) : onCompression f (onCompression g s) = onCompression (fun x => f (g x)) s := rfl

@[simp] theorem onChannelUnits_links (f : ChannelUnits → ChannelUnits) (s : Part) : (onChannelUnits f s).links = s.links := rfl
@[simp] theorem onChannelUnits_sw (f : ChannelUnits → ChannelUnits) (s : Part) : (onChannelUnits f s).sw = s.sw := rfl
@[simp] theorem onChannelUnits_pool (f : ChannelUnits → ChannelUnits) (s : Part) : (onChannelUnits f s).pool = s.pool := rfl
@[simp] theorem onChannelUnits_regions (f : ChannelUnits → ChannelUnits) (s : Part) : (onChannelUnits f s).regions = s.regions := rfl
@[simp] theorem onChannelUnits_cat (f : ChannelUnits → ChannelUnits) (s : Part) : (onChannelUnits f s).cat = s.cat := rfl
@[simp] theorem onChannelUnits_dram (f : ChannelUnits → ChannelUnits) (s : Part) : (onChannelUnits f s).dram = s.dram := rfl
@[simp] theorem onChannelUnits_gals (f : ChannelUnits → ChannelUnits) (s : Part) : (onChannelUnits f s).gals = s.gals := rfl
@[simp] theorem onChannelUnits_flr (f : ChannelUnits → ChannelUnits) (s : Part) : (onChannelUnits f s).flr = s.flr := rfl
@[simp] theorem onChannelUnits_cur (f : ChannelUnits → ChannelUnits) (s : Part) : (onChannelUnits f s).cur = s.cur := rfl
@[simp] theorem onChannelUnits_mgmt (f : ChannelUnits → ChannelUnits) (s : Part) : (onChannelUnits f s).mgmt = s.mgmt := rfl
@[simp] theorem onChannelUnits_views (f : ChannelUnits → ChannelUnits) (s : Part) : (onChannelUnits f s).views = s.views := rfl
@[simp] theorem onChannelUnits_tel (f : ChannelUnits → ChannelUnits) (s : Part) : (onChannelUnits f s).tel = s.tel := rfl
@[simp] theorem onChannelUnits_power (f : ChannelUnits → ChannelUnits) (s : Part) : (onChannelUnits f s).power = s.power := rfl
@[simp] theorem onChannelUnits_clv (f : ChannelUnits → ChannelUnits) (s : Part) : (onChannelUnits f s).clv = s.clv := rfl
@[simp] theorem onChannelUnits_gfu (f : ChannelUnits → ChannelUnits) (s : Part) : (onChannelUnits f s).gfu = s.gfu := rfl
@[simp] theorem onChannelUnits_str (f : ChannelUnits → ChannelUnits) (s : Part) : (onChannelUnits f s).str = s.str := rfl
@[simp] theorem onChannelUnits_cmp (f : ChannelUnits → ChannelUnits) (s : Part) : (onChannelUnits f s).cmp = s.cmp := rfl
@[simp] theorem onChannelUnits_chu (f : ChannelUnits → ChannelUnits) (s : Part) : (onChannelUnits f s).chu = f s.chu := rfl
@[simp] theorem onChannelUnits_flt (f : ChannelUnits → ChannelUnits) (s : Part) : (onChannelUnits f s).flt = s.flt := rfl
@[simp] theorem onChannelUnits_inbox (f : ChannelUnits → ChannelUnits) (s : Part) : (onChannelUnits f s).inbox = s.inbox := rfl
@[simp] theorem onChannelUnits_freeCtr (f : ChannelUnits → ChannelUnits) (s : Part) : (onChannelUnits f s).freeCtr = s.freeCtr := rfl
theorem onChannelUnits_comp (f g : ChannelUnits → ChannelUnits) (s : Part) : onChannelUnits f (onChannelUnits g s) = onChannelUnits (fun x => f (g x)) s := rfl

@[simp] theorem onFlash_links (f : Flash → Flash) (s : Part) : (onFlash f s).links = s.links := rfl
@[simp] theorem onFlash_sw (f : Flash → Flash) (s : Part) : (onFlash f s).sw = s.sw := rfl
@[simp] theorem onFlash_pool (f : Flash → Flash) (s : Part) : (onFlash f s).pool = s.pool := rfl
@[simp] theorem onFlash_regions (f : Flash → Flash) (s : Part) : (onFlash f s).regions = s.regions := rfl
@[simp] theorem onFlash_cat (f : Flash → Flash) (s : Part) : (onFlash f s).cat = s.cat := rfl
@[simp] theorem onFlash_dram (f : Flash → Flash) (s : Part) : (onFlash f s).dram = s.dram := rfl
@[simp] theorem onFlash_gals (f : Flash → Flash) (s : Part) : (onFlash f s).gals = s.gals := rfl
@[simp] theorem onFlash_flr (f : Flash → Flash) (s : Part) : (onFlash f s).flr = s.flr := rfl
@[simp] theorem onFlash_cur (f : Flash → Flash) (s : Part) : (onFlash f s).cur = s.cur := rfl
@[simp] theorem onFlash_mgmt (f : Flash → Flash) (s : Part) : (onFlash f s).mgmt = s.mgmt := rfl
@[simp] theorem onFlash_views (f : Flash → Flash) (s : Part) : (onFlash f s).views = s.views := rfl
@[simp] theorem onFlash_tel (f : Flash → Flash) (s : Part) : (onFlash f s).tel = s.tel := rfl
@[simp] theorem onFlash_power (f : Flash → Flash) (s : Part) : (onFlash f s).power = s.power := rfl
@[simp] theorem onFlash_clv (f : Flash → Flash) (s : Part) : (onFlash f s).clv = s.clv := rfl
@[simp] theorem onFlash_gfu (f : Flash → Flash) (s : Part) : (onFlash f s).gfu = s.gfu := rfl
@[simp] theorem onFlash_str (f : Flash → Flash) (s : Part) : (onFlash f s).str = s.str := rfl
@[simp] theorem onFlash_cmp (f : Flash → Flash) (s : Part) : (onFlash f s).cmp = s.cmp := rfl
@[simp] theorem onFlash_chu (f : Flash → Flash) (s : Part) : (onFlash f s).chu = s.chu := rfl
@[simp] theorem onFlash_flt (f : Flash → Flash) (s : Part) : (onFlash f s).flt = f s.flt := rfl
@[simp] theorem onFlash_inbox (f : Flash → Flash) (s : Part) : (onFlash f s).inbox = s.inbox := rfl
@[simp] theorem onFlash_freeCtr (f : Flash → Flash) (s : Part) : (onFlash f s).freeCtr = s.freeCtr := rfl
theorem onFlash_comp (f g : Flash → Flash) (s : Part) : onFlash f (onFlash g s) = onFlash (fun x => f (g x)) s := rfl

@[simp] theorem pushInbox_links (m : Msg) (s : Part) : (pushInbox m s).links = s.links := rfl
@[simp] theorem pushInbox_sw (m : Msg) (s : Part) : (pushInbox m s).sw = s.sw := rfl
@[simp] theorem pushInbox_pool (m : Msg) (s : Part) : (pushInbox m s).pool = s.pool := rfl
@[simp] theorem pushInbox_regions (m : Msg) (s : Part) : (pushInbox m s).regions = s.regions := rfl
@[simp] theorem pushInbox_cat (m : Msg) (s : Part) : (pushInbox m s).cat = s.cat := rfl
@[simp] theorem pushInbox_dram (m : Msg) (s : Part) : (pushInbox m s).dram = s.dram := rfl
@[simp] theorem pushInbox_gals (m : Msg) (s : Part) : (pushInbox m s).gals = s.gals := rfl
@[simp] theorem pushInbox_flr (m : Msg) (s : Part) : (pushInbox m s).flr = s.flr := rfl
@[simp] theorem pushInbox_cur (m : Msg) (s : Part) : (pushInbox m s).cur = s.cur := rfl
@[simp] theorem pushInbox_mgmt (m : Msg) (s : Part) : (pushInbox m s).mgmt = s.mgmt := rfl
@[simp] theorem pushInbox_views (m : Msg) (s : Part) : (pushInbox m s).views = s.views := rfl
@[simp] theorem pushInbox_tel (m : Msg) (s : Part) : (pushInbox m s).tel = s.tel := rfl
@[simp] theorem pushInbox_power (m : Msg) (s : Part) : (pushInbox m s).power = s.power := rfl
@[simp] theorem pushInbox_clv (m : Msg) (s : Part) : (pushInbox m s).clv = s.clv := rfl
@[simp] theorem pushInbox_gfu (m : Msg) (s : Part) : (pushInbox m s).gfu = s.gfu := rfl
@[simp] theorem pushInbox_str (m : Msg) (s : Part) : (pushInbox m s).str = s.str := rfl
@[simp] theorem pushInbox_cmp (m : Msg) (s : Part) : (pushInbox m s).cmp = s.cmp := rfl
@[simp] theorem pushInbox_chu (m : Msg) (s : Part) : (pushInbox m s).chu = s.chu := rfl
@[simp] theorem pushInbox_flt (m : Msg) (s : Part) : (pushInbox m s).flt = s.flt := rfl
@[simp] theorem pushInbox_inbox (m : Msg) (s : Part) : (pushInbox m s).inbox = s.inbox ++ [(false, m)] := rfl
@[simp] theorem pushInbox_freeCtr (m : Msg) (s : Part) : (pushInbox m s).freeCtr = s.freeCtr := rfl

@[simp] theorem pushMatched_links (m : Msg) (s : Part) : (pushMatched m s).links = s.links := rfl
@[simp] theorem pushMatched_sw (m : Msg) (s : Part) : (pushMatched m s).sw = s.sw := rfl
@[simp] theorem pushMatched_pool (m : Msg) (s : Part) : (pushMatched m s).pool = s.pool := rfl
@[simp] theorem pushMatched_regions (m : Msg) (s : Part) : (pushMatched m s).regions = s.regions := rfl
@[simp] theorem pushMatched_cat (m : Msg) (s : Part) : (pushMatched m s).cat = s.cat := rfl
@[simp] theorem pushMatched_dram (m : Msg) (s : Part) : (pushMatched m s).dram = s.dram := rfl
@[simp] theorem pushMatched_gals (m : Msg) (s : Part) : (pushMatched m s).gals = s.gals := rfl
@[simp] theorem pushMatched_flr (m : Msg) (s : Part) : (pushMatched m s).flr = s.flr := rfl
@[simp] theorem pushMatched_cur (m : Msg) (s : Part) : (pushMatched m s).cur = s.cur := rfl
@[simp] theorem pushMatched_mgmt (m : Msg) (s : Part) : (pushMatched m s).mgmt = s.mgmt := rfl
@[simp] theorem pushMatched_views (m : Msg) (s : Part) : (pushMatched m s).views = s.views := rfl
@[simp] theorem pushMatched_tel (m : Msg) (s : Part) : (pushMatched m s).tel = s.tel := rfl
@[simp] theorem pushMatched_power (m : Msg) (s : Part) : (pushMatched m s).power = s.power := rfl
@[simp] theorem pushMatched_clv (m : Msg) (s : Part) : (pushMatched m s).clv = s.clv := rfl
@[simp] theorem pushMatched_gfu (m : Msg) (s : Part) : (pushMatched m s).gfu = s.gfu := rfl
@[simp] theorem pushMatched_str (m : Msg) (s : Part) : (pushMatched m s).str = s.str := rfl
@[simp] theorem pushMatched_cmp (m : Msg) (s : Part) : (pushMatched m s).cmp = s.cmp := rfl
@[simp] theorem pushMatched_chu (m : Msg) (s : Part) : (pushMatched m s).chu = s.chu := rfl
@[simp] theorem pushMatched_flt (m : Msg) (s : Part) : (pushMatched m s).flt = s.flt := rfl
@[simp] theorem pushMatched_inbox (m : Msg) (s : Part) : (pushMatched m s).inbox = s.inbox ++ [(true, m)] := rfl
@[simp] theorem pushMatched_freeCtr (m : Msg) (s : Part) : (pushMatched m s).freeCtr = s.freeCtr := rfl

@[simp] theorem drawFree_links (s : Part) : (drawFree s).2.links = s.links := rfl
@[simp] theorem drawFree_sw (s : Part) : (drawFree s).2.sw = s.sw := rfl
@[simp] theorem drawFree_pool (s : Part) : (drawFree s).2.pool = s.pool := rfl
@[simp] theorem drawFree_regions (s : Part) : (drawFree s).2.regions = s.regions := rfl
@[simp] theorem drawFree_cat (s : Part) : (drawFree s).2.cat = s.cat := rfl
@[simp] theorem drawFree_dram (s : Part) : (drawFree s).2.dram = s.dram := rfl
@[simp] theorem drawFree_gals (s : Part) : (drawFree s).2.gals = s.gals := rfl
@[simp] theorem drawFree_flr (s : Part) : (drawFree s).2.flr = s.flr := rfl
@[simp] theorem drawFree_cur (s : Part) : (drawFree s).2.cur = s.cur := rfl
@[simp] theorem drawFree_mgmt (s : Part) : (drawFree s).2.mgmt = s.mgmt := rfl
@[simp] theorem drawFree_views (s : Part) : (drawFree s).2.views = s.views := rfl
@[simp] theorem drawFree_tel (s : Part) : (drawFree s).2.tel = s.tel := rfl
@[simp] theorem drawFree_power (s : Part) : (drawFree s).2.power = s.power := rfl
@[simp] theorem drawFree_clv (s : Part) : (drawFree s).2.clv = s.clv := rfl
@[simp] theorem drawFree_gfu (s : Part) : (drawFree s).2.gfu = s.gfu := rfl
@[simp] theorem drawFree_str (s : Part) : (drawFree s).2.str = s.str := rfl
@[simp] theorem drawFree_cmp (s : Part) : (drawFree s).2.cmp = s.cmp := rfl
@[simp] theorem drawFree_chu (s : Part) : (drawFree s).2.chu = s.chu := rfl
@[simp] theorem drawFree_flt (s : Part) : (drawFree s).2.flt = s.flt := rfl
@[simp] theorem drawFree_inbox (s : Part) : (drawFree s).2.inbox = s.inbox := rfl
@[simp] theorem drawFree_freeCtr (s : Part) : (drawFree s).2.freeCtr = s.freeCtr + 1 := rfl

@[simp] theorem onView_links (v : Nat) (f : View → View) (s : Part) : (onView v f s).links = s.links := by
  unfold onView; split <;> rfl
@[simp] theorem onView_sw (v : Nat) (f : View → View) (s : Part) : (onView v f s).sw = s.sw := by
  unfold onView; split <;> rfl
@[simp] theorem onView_pool (v : Nat) (f : View → View) (s : Part) : (onView v f s).pool = s.pool := by
  unfold onView; split <;> rfl
@[simp] theorem onView_regions (v : Nat) (f : View → View) (s : Part) : (onView v f s).regions = s.regions := by
  unfold onView; split <;> rfl
@[simp] theorem onView_cat (v : Nat) (f : View → View) (s : Part) : (onView v f s).cat = s.cat := by
  unfold onView; split <;> rfl
@[simp] theorem onView_dram (v : Nat) (f : View → View) (s : Part) : (onView v f s).dram = s.dram := by
  unfold onView; split <;> rfl
@[simp] theorem onView_gals (v : Nat) (f : View → View) (s : Part) : (onView v f s).gals = s.gals := by
  unfold onView; split <;> rfl
@[simp] theorem onView_flr (v : Nat) (f : View → View) (s : Part) : (onView v f s).flr = s.flr := by
  unfold onView; split <;> rfl
@[simp] theorem onView_cur (v : Nat) (f : View → View) (s : Part) : (onView v f s).cur = s.cur := by
  unfold onView; split <;> rfl
@[simp] theorem onView_mgmt (v : Nat) (f : View → View) (s : Part) : (onView v f s).mgmt = s.mgmt := by
  unfold onView; split <;> rfl
@[simp] theorem onView_tel (v : Nat) (f : View → View) (s : Part) : (onView v f s).tel = s.tel := by
  unfold onView; split <;> rfl
@[simp] theorem onView_power (v : Nat) (f : View → View) (s : Part) : (onView v f s).power = s.power := by
  unfold onView; split <;> rfl
@[simp] theorem onView_clv (v : Nat) (f : View → View) (s : Part) : (onView v f s).clv = s.clv := by
  unfold onView; split <;> rfl
@[simp] theorem onView_gfu (v : Nat) (f : View → View) (s : Part) : (onView v f s).gfu = s.gfu := by
  unfold onView; split <;> rfl
@[simp] theorem onView_str (v : Nat) (f : View → View) (s : Part) : (onView v f s).str = s.str := by
  unfold onView; split <;> rfl
@[simp] theorem onView_cmp (v : Nat) (f : View → View) (s : Part) : (onView v f s).cmp = s.cmp := by
  unfold onView; split <;> rfl
@[simp] theorem onView_chu (v : Nat) (f : View → View) (s : Part) : (onView v f s).chu = s.chu := by
  unfold onView; split <;> rfl
@[simp] theorem onView_flt (v : Nat) (f : View → View) (s : Part) : (onView v f s).flt = s.flt := by
  unfold onView; split <;> rfl
@[simp] theorem onView_inbox (v : Nat) (f : View → View) (s : Part) : (onView v f s).inbox = s.inbox := by
  unfold onView; split <;> rfl
@[simp] theorem onView_freeCtr (v : Nat) (f : View → View) (s : Part) : (onView v f s).freeCtr = s.freeCtr := by
  unfold onView; split <;> rfl

/-- The view that `onView` changes. -/
theorem onView_self (v : Nat) (f : View → View) (s : Part) (w : View) (h : s.views[v]? = some w) :
    (onView v f s).views = lset s.views v (f w) := by
  unfold onView; rw [h]

/-- A view number that names none changes nothing. -/
theorem onView_none (v : Nat) (f : View → View) (s : Part) (h : s.views[v]? = none) : onView v f s = s := by
  unfold onView; rw [h]

end Sys2Proof.Machine
end

