-- ==== Sys2Proof/Laws/Ops.lean ====
section
/-!
SUPPORT. What each operation that every block uses can do.
-/

namespace Sys2Proof.Machine

open Sys2Proof

/-! ### The daybook, interrupts and counters -/

/-- The part with another daybook, next entry, UART, interrupts of the cores, and counters. -/
def withRecords (m : Management) (t : Telemetry) (s : Part) : Part :=
  { s with
    mgmt := { s.mgmt with daybook := m.daybook, nextSeq := m.nextSeq, uart := m.uart, coreIrq := m.coreIrq }
    tel := t }

/-- Two changes of these alone change these alone. -/
theorem withRecords_trans {p q s : Part} (h : p = withRecords p.mgmt p.tel q) (k : q = withRecords q.mgmt q.tel s) :
    p = withRecords p.mgmt p.tel s := by
  rw [h, k]; rfl

/-- An entry changes the daybook, its numbering and the UART alone. -/
theorem writeEntry_rest (b v : Nat) (g : Option Nat) (c : Note) (d : List Nat) (s : Part) :
    (writeEntry b v g c d s).2 = withRecords (writeEntry b v g c d s).2.mgmt (writeEntry b v g c d s).2.tel s := by
  unfold writeEntry; extract_lets; split <;> rfl

/-- An interrupt of the cores changes nothing else. -/
theorem raiseCore_rest (i : Nat) (s : Part) : raiseCore i s = withRecords (raiseCore i s).mgmt (raiseCore i s).tel s := by
  unfold raiseCore onManagement; dsimp only; split <;> rfl

/-- Counting a folded entry changes the counters, their events, the cores' interrupts and the daybook alone. -/
theorem countFolded_rest (s : Part) : countFolded s = withRecords (countFolded s).mgmt (countFolded s).tel s := by
  unfold countFolded enqueueEvent; extract_lets; split
  · split
    · rfl
    · split
      · exact withRecords_trans (raiseCore_rest _ _) rfl
      · exact withRecords_trans (writeEntry_rest _ _ _ _ _ _) (withRecords_trans (raiseCore_rest _ _) rfl)
  · rfl

/-- A daybook entry changes the daybook, the UART, the counters, their events and the cores' interrupts alone. -/
theorem note_rest (b v : Nat) (g : Option Nat) (c : Note) (d : List Nat) (s : Part) :
    note b v g c d s = withRecords (note b v g c d s).mgmt (note b v g c d s).tel s := by
  unfold note; extract_lets r; split
  · exact withRecords_trans (countFolded_rest _) (writeEntry_rest _ _ _ _ _ _)
  · exact writeEntry_rest _ _ _ _ _ _

@[simp] theorem note_links (b v : Nat) (g : Option Nat) (c : Note) (d : List Nat) (s : Part) : (note b v g c d s).links = s.links := by
  rw [note_rest]; rfl
@[simp] theorem note_sw (b v : Nat) (g : Option Nat) (c : Note) (d : List Nat) (s : Part) : (note b v g c d s).sw = s.sw := by
  rw [note_rest]; rfl
@[simp] theorem note_pool (b v : Nat) (g : Option Nat) (c : Note) (d : List Nat) (s : Part) : (note b v g c d s).pool = s.pool := by
  rw [note_rest]; rfl
@[simp] theorem note_regions (b v : Nat) (g : Option Nat) (c : Note) (d : List Nat) (s : Part) : (note b v g c d s).regions = s.regions := by
  rw [note_rest]; rfl
@[simp] theorem note_cat (b v : Nat) (g : Option Nat) (c : Note) (d : List Nat) (s : Part) : (note b v g c d s).cat = s.cat := by
  rw [note_rest]; rfl
@[simp] theorem note_dram (b v : Nat) (g : Option Nat) (c : Note) (d : List Nat) (s : Part) : (note b v g c d s).dram = s.dram := by
  rw [note_rest]; rfl
@[simp] theorem note_gals (b v : Nat) (g : Option Nat) (c : Note) (d : List Nat) (s : Part) : (note b v g c d s).gals = s.gals := by
  rw [note_rest]; rfl
@[simp] theorem note_flr (b v : Nat) (g : Option Nat) (c : Note) (d : List Nat) (s : Part) : (note b v g c d s).flr = s.flr := by
  rw [note_rest]; rfl
@[simp] theorem note_cur (b v : Nat) (g : Option Nat) (c : Note) (d : List Nat) (s : Part) : (note b v g c d s).cur = s.cur := by
  rw [note_rest]; rfl
@[simp] theorem note_views (b v : Nat) (g : Option Nat) (c : Note) (d : List Nat) (s : Part) : (note b v g c d s).views = s.views := by
  rw [note_rest]; rfl
@[simp] theorem note_power (b v : Nat) (g : Option Nat) (c : Note) (d : List Nat) (s : Part) : (note b v g c d s).power = s.power := by
  rw [note_rest]; rfl
@[simp] theorem note_clv (b v : Nat) (g : Option Nat) (c : Note) (d : List Nat) (s : Part) : (note b v g c d s).clv = s.clv := by
  rw [note_rest]; rfl
@[simp] theorem note_gfu (b v : Nat) (g : Option Nat) (c : Note) (d : List Nat) (s : Part) : (note b v g c d s).gfu = s.gfu := by
  rw [note_rest]; rfl
@[simp] theorem note_str (b v : Nat) (g : Option Nat) (c : Note) (d : List Nat) (s : Part) : (note b v g c d s).str = s.str := by
  rw [note_rest]; rfl
@[simp] theorem note_cmp (b v : Nat) (g : Option Nat) (c : Note) (d : List Nat) (s : Part) : (note b v g c d s).cmp = s.cmp := by
  rw [note_rest]; rfl
@[simp] theorem note_chu (b v : Nat) (g : Option Nat) (c : Note) (d : List Nat) (s : Part) : (note b v g c d s).chu = s.chu := by
  rw [note_rest]; rfl
@[simp] theorem note_flt (b v : Nat) (g : Option Nat) (c : Note) (d : List Nat) (s : Part) : (note b v g c d s).flt = s.flt := by
  rw [note_rest]; rfl
@[simp] theorem note_inbox (b v : Nat) (g : Option Nat) (c : Note) (d : List Nat) (s : Part) : (note b v g c d s).inbox = s.inbox := by
  rw [note_rest]; rfl
@[simp] theorem note_freeCtr (b v : Nat) (g : Option Nat) (c : Note) (d : List Nat) (s : Part) : (note b v g c d s).freeCtr = s.freeCtr := by
  rw [note_rest]; rfl

@[simp] theorem raiseCore_links (i : Nat) (s : Part) : (raiseCore i s).links = s.links := by
  rfl
@[simp] theorem raiseCore_sw (i : Nat) (s : Part) : (raiseCore i s).sw = s.sw := by
  rfl
@[simp] theorem raiseCore_pool (i : Nat) (s : Part) : (raiseCore i s).pool = s.pool := by
  rfl
@[simp] theorem raiseCore_regions (i : Nat) (s : Part) : (raiseCore i s).regions = s.regions := by
  rfl
@[simp] theorem raiseCore_cat (i : Nat) (s : Part) : (raiseCore i s).cat = s.cat := by
  rfl
@[simp] theorem raiseCore_dram (i : Nat) (s : Part) : (raiseCore i s).dram = s.dram := by
  rfl
@[simp] theorem raiseCore_gals (i : Nat) (s : Part) : (raiseCore i s).gals = s.gals := by
  rfl
@[simp] theorem raiseCore_flr (i : Nat) (s : Part) : (raiseCore i s).flr = s.flr := by
  rfl
@[simp] theorem raiseCore_cur (i : Nat) (s : Part) : (raiseCore i s).cur = s.cur := by
  rfl
@[simp] theorem raiseCore_views (i : Nat) (s : Part) : (raiseCore i s).views = s.views := by
  rfl
@[simp] theorem raiseCore_tel (i : Nat) (s : Part) : (raiseCore i s).tel = s.tel := by
  rfl
@[simp] theorem raiseCore_power (i : Nat) (s : Part) : (raiseCore i s).power = s.power := by
  rfl
@[simp] theorem raiseCore_clv (i : Nat) (s : Part) : (raiseCore i s).clv = s.clv := by
  rfl
@[simp] theorem raiseCore_gfu (i : Nat) (s : Part) : (raiseCore i s).gfu = s.gfu := by
  rfl
@[simp] theorem raiseCore_str (i : Nat) (s : Part) : (raiseCore i s).str = s.str := by
  rfl
@[simp] theorem raiseCore_cmp (i : Nat) (s : Part) : (raiseCore i s).cmp = s.cmp := by
  rfl
@[simp] theorem raiseCore_chu (i : Nat) (s : Part) : (raiseCore i s).chu = s.chu := by
  rfl
@[simp] theorem raiseCore_flt (i : Nat) (s : Part) : (raiseCore i s).flt = s.flt := by
  rfl
@[simp] theorem raiseCore_inbox (i : Nat) (s : Part) : (raiseCore i s).inbox = s.inbox := by
  rfl
@[simp] theorem raiseCore_freeCtr (i : Nat) (s : Part) : (raiseCore i s).freeCtr = s.freeCtr := by
  rfl

@[simp] theorem raiseHosts_links (v : Nat) (s : Part) : (raiseHosts v s).links = s.links := by
  rfl
@[simp] theorem raiseHosts_sw (v : Nat) (s : Part) : (raiseHosts v s).sw = s.sw := by
  rfl
@[simp] theorem raiseHosts_pool (v : Nat) (s : Part) : (raiseHosts v s).pool = s.pool := by
  rfl
@[simp] theorem raiseHosts_regions (v : Nat) (s : Part) : (raiseHosts v s).regions = s.regions := by
  rfl
@[simp] theorem raiseHosts_cat (v : Nat) (s : Part) : (raiseHosts v s).cat = s.cat := by
  rfl
@[simp] theorem raiseHosts_dram (v : Nat) (s : Part) : (raiseHosts v s).dram = s.dram := by
  rfl
@[simp] theorem raiseHosts_gals (v : Nat) (s : Part) : (raiseHosts v s).gals = s.gals := by
  rfl
@[simp] theorem raiseHosts_flr (v : Nat) (s : Part) : (raiseHosts v s).flr = s.flr := by
  rfl
@[simp] theorem raiseHosts_cur (v : Nat) (s : Part) : (raiseHosts v s).cur = s.cur := by
  rfl
@[simp] theorem raiseHosts_views (v : Nat) (s : Part) : (raiseHosts v s).views = s.views := by
  rfl
@[simp] theorem raiseHosts_tel (v : Nat) (s : Part) : (raiseHosts v s).tel = s.tel := by
  rfl
@[simp] theorem raiseHosts_power (v : Nat) (s : Part) : (raiseHosts v s).power = s.power := by
  rfl
@[simp] theorem raiseHosts_clv (v : Nat) (s : Part) : (raiseHosts v s).clv = s.clv := by
  rfl
@[simp] theorem raiseHosts_gfu (v : Nat) (s : Part) : (raiseHosts v s).gfu = s.gfu := by
  rfl
@[simp] theorem raiseHosts_str (v : Nat) (s : Part) : (raiseHosts v s).str = s.str := by
  rfl
@[simp] theorem raiseHosts_cmp (v : Nat) (s : Part) : (raiseHosts v s).cmp = s.cmp := by
  rfl
@[simp] theorem raiseHosts_chu (v : Nat) (s : Part) : (raiseHosts v s).chu = s.chu := by
  rfl
@[simp] theorem raiseHosts_flt (v : Nat) (s : Part) : (raiseHosts v s).flt = s.flt := by
  rfl
@[simp] theorem raiseHosts_inbox (v : Nat) (s : Part) : (raiseHosts v s).inbox = s.inbox := by
  rfl
@[simp] theorem raiseHosts_freeCtr (v : Nat) (s : Part) : (raiseHosts v s).freeCtr = s.freeCtr := by
  rfl

/-! ### Event queues -/

/-- Putting a queue back is what reading it gives. -/
@[simp] theorem getQueue_setQueue (q : QueueName) (e : EventQueue) (s : Part) : getQueue q (setQueue q e s) = e := by
  cases q <;> rfl

/-- Changing one queue leaves the others. -/
theorem getQueue_setQueue_ne (q r : QueueName) (e : EventQueue) (s : Part) (h : r ≠ q) :
    getQueue r (setQueue q e s) = getQueue r s := by
  cases q <;> cases r <;> first | rfl | exact absurd rfl h

@[simp] theorem setQueue_links (q : QueueName) (e : EventQueue) (s : Part) : (setQueue q e s).links = s.links := by
  cases q <;> rfl
@[simp] theorem setQueue_sw (q : QueueName) (e : EventQueue) (s : Part) : (setQueue q e s).sw = s.sw := by
  cases q <;> rfl
@[simp] theorem setQueue_pool (q : QueueName) (e : EventQueue) (s : Part) : (setQueue q e s).pool = s.pool := by
  cases q <;> rfl
@[simp] theorem setQueue_dram (q : QueueName) (e : EventQueue) (s : Part) : (setQueue q e s).dram = s.dram := by
  cases q <;> rfl
@[simp] theorem setQueue_cur (q : QueueName) (e : EventQueue) (s : Part) : (setQueue q e s).cur = s.cur := by
  cases q <;> rfl
@[simp] theorem setQueue_mgmt (q : QueueName) (e : EventQueue) (s : Part) : (setQueue q e s).mgmt = s.mgmt := by
  cases q <;> rfl
@[simp] theorem setQueue_views (q : QueueName) (e : EventQueue) (s : Part) : (setQueue q e s).views = s.views := by
  cases q <;> rfl
@[simp] theorem setQueue_gfu (q : QueueName) (e : EventQueue) (s : Part) : (setQueue q e s).gfu = s.gfu := by
  cases q <;> rfl
@[simp] theorem setQueue_inbox (q : QueueName) (e : EventQueue) (s : Part) : (setQueue q e s).inbox = s.inbox := by
  cases q <;> rfl
@[simp] theorem setQueue_freeCtr (q : QueueName) (e : EventQueue) (s : Part) : (setQueue q e s).freeCtr = s.freeCtr := by
  cases q <;> rfl

@[simp] theorem pushEvent_links (q : QueueName) (w i : Nat) (s : Part) : (pushEvent q w i s).links = s.links := by
  unfold pushEvent enqueueEvent; split <;> [rfl; (extract_lets; split <;> simp +zetaDelta)]
@[simp] theorem pushEvent_sw (q : QueueName) (w i : Nat) (s : Part) : (pushEvent q w i s).sw = s.sw := by
  unfold pushEvent enqueueEvent; split <;> [rfl; (extract_lets; split <;> simp +zetaDelta)]
@[simp] theorem pushEvent_pool (q : QueueName) (w i : Nat) (s : Part) : (pushEvent q w i s).pool = s.pool := by
  unfold pushEvent enqueueEvent; split <;> [rfl; (extract_lets; split <;> simp +zetaDelta)]
@[simp] theorem pushEvent_dram (q : QueueName) (w i : Nat) (s : Part) : (pushEvent q w i s).dram = s.dram := by
  unfold pushEvent enqueueEvent; split <;> [rfl; (extract_lets; split <;> simp +zetaDelta)]
@[simp] theorem pushEvent_cur (q : QueueName) (w i : Nat) (s : Part) : (pushEvent q w i s).cur = s.cur := by
  unfold pushEvent enqueueEvent; split <;> [rfl; (extract_lets; split <;> simp +zetaDelta)]
@[simp] theorem pushEvent_views (q : QueueName) (w i : Nat) (s : Part) : (pushEvent q w i s).views = s.views := by
  unfold pushEvent enqueueEvent; split <;> [rfl; (extract_lets; split <;> simp +zetaDelta)]
@[simp] theorem pushEvent_gfu (q : QueueName) (w i : Nat) (s : Part) : (pushEvent q w i s).gfu = s.gfu := by
  unfold pushEvent enqueueEvent; split <;> [rfl; (extract_lets; split <;> simp +zetaDelta)]
@[simp] theorem pushEvent_inbox (q : QueueName) (w i : Nat) (s : Part) : (pushEvent q w i s).inbox = s.inbox := by
  unfold pushEvent enqueueEvent; split <;> [rfl; (extract_lets; split <;> simp +zetaDelta)]
@[simp] theorem pushEvent_freeCtr (q : QueueName) (w i : Nat) (s : Part) : (pushEvent q w i s).freeCtr = s.freeCtr := by
  unfold pushEvent enqueueEvent; split <;> [rfl; (extract_lets; split <;> simp +zetaDelta)]

@[simp] theorem count_links (b i x n : Nat) (s : Part) : (count b i x n s).links = s.links := by
  unfold count; extract_lets; split <;> (try split) <;> simp +zetaDelta
@[simp] theorem count_sw (b i x n : Nat) (s : Part) : (count b i x n s).sw = s.sw := by
  unfold count; extract_lets; split <;> (try split) <;> simp +zetaDelta
@[simp] theorem count_pool (b i x n : Nat) (s : Part) : (count b i x n s).pool = s.pool := by
  unfold count; extract_lets; split <;> (try split) <;> simp +zetaDelta
@[simp] theorem count_dram (b i x n : Nat) (s : Part) : (count b i x n s).dram = s.dram := by
  unfold count; extract_lets; split <;> (try split) <;> simp +zetaDelta
@[simp] theorem count_cur (b i x n : Nat) (s : Part) : (count b i x n s).cur = s.cur := by
  unfold count; extract_lets; split <;> (try split) <;> simp +zetaDelta
@[simp] theorem count_views (b i x n : Nat) (s : Part) : (count b i x n s).views = s.views := by
  unfold count; extract_lets; split <;> (try split) <;> simp +zetaDelta
@[simp] theorem count_gfu (b i x n : Nat) (s : Part) : (count b i x n s).gfu = s.gfu := by
  unfold count; extract_lets; split <;> (try split) <;> simp +zetaDelta
@[simp] theorem count_inbox (b i x n : Nat) (s : Part) : (count b i x n s).inbox = s.inbox := by
  unfold count; extract_lets; split <;> (try split) <;> simp +zetaDelta
@[simp] theorem count_freeCtr (b i x n : Nat) (s : Part) : (count b i x n s).freeCtr = s.freeCtr := by
  unfold count; extract_lets; split <;> (try split) <;> simp +zetaDelta

@[simp] theorem returnRead_links (v x : Nat) (s : Part) : (returnRead v x s).links = s.links := by
  simp [returnRead]
@[simp] theorem returnRead_sw (v x : Nat) (s : Part) : (returnRead v x s).sw = s.sw := by
  simp [returnRead]
@[simp] theorem returnRead_pool (v x : Nat) (s : Part) : (returnRead v x s).pool = s.pool := by
  simp [returnRead]
@[simp] theorem returnRead_regions (v x : Nat) (s : Part) : (returnRead v x s).regions = s.regions := by
  simp [returnRead]
@[simp] theorem returnRead_cat (v x : Nat) (s : Part) : (returnRead v x s).cat = s.cat := by
  simp [returnRead]
@[simp] theorem returnRead_dram (v x : Nat) (s : Part) : (returnRead v x s).dram = s.dram := by
  simp [returnRead]
@[simp] theorem returnRead_gals (v x : Nat) (s : Part) : (returnRead v x s).gals = s.gals := by
  simp [returnRead]
@[simp] theorem returnRead_flr (v x : Nat) (s : Part) : (returnRead v x s).flr = s.flr := by
  simp [returnRead]
@[simp] theorem returnRead_cur (v x : Nat) (s : Part) : (returnRead v x s).cur = s.cur := by
  simp [returnRead]
@[simp] theorem returnRead_mgmt (v x : Nat) (s : Part) : (returnRead v x s).mgmt = s.mgmt := by
  simp [returnRead]
@[simp] theorem returnRead_tel (v x : Nat) (s : Part) : (returnRead v x s).tel = s.tel := by
  simp [returnRead]
@[simp] theorem returnRead_power (v x : Nat) (s : Part) : (returnRead v x s).power = s.power := by
  simp [returnRead]
@[simp] theorem returnRead_clv (v x : Nat) (s : Part) : (returnRead v x s).clv = s.clv := by
  simp [returnRead]
@[simp] theorem returnRead_gfu (v x : Nat) (s : Part) : (returnRead v x s).gfu = s.gfu := by
  simp [returnRead]
@[simp] theorem returnRead_str (v x : Nat) (s : Part) : (returnRead v x s).str = s.str := by
  simp [returnRead]
@[simp] theorem returnRead_cmp (v x : Nat) (s : Part) : (returnRead v x s).cmp = s.cmp := by
  simp [returnRead]
@[simp] theorem returnRead_chu (v x : Nat) (s : Part) : (returnRead v x s).chu = s.chu := by
  simp [returnRead]
@[simp] theorem returnRead_flt (v x : Nat) (s : Part) : (returnRead v x s).flt = s.flt := by
  simp [returnRead]
@[simp] theorem returnRead_inbox (v x : Nat) (s : Part) : (returnRead v x s).inbox = s.inbox := by
  simp [returnRead]
@[simp] theorem returnRead_freeCtr (v x : Nat) (s : Part) : (returnRead v x s).freeCtr = s.freeCtr := by
  simp [returnRead]

@[simp] theorem latchHead_links (v q : Nat) (e : Event) (s : Part) : (latchHead v q e s).links = s.links := by
  simp [latchHead]
@[simp] theorem latchHead_sw (v q : Nat) (e : Event) (s : Part) : (latchHead v q e s).sw = s.sw := by
  simp [latchHead]
@[simp] theorem latchHead_pool (v q : Nat) (e : Event) (s : Part) : (latchHead v q e s).pool = s.pool := by
  simp [latchHead]
@[simp] theorem latchHead_regions (v q : Nat) (e : Event) (s : Part) : (latchHead v q e s).regions = s.regions := by
  simp [latchHead]
@[simp] theorem latchHead_cat (v q : Nat) (e : Event) (s : Part) : (latchHead v q e s).cat = s.cat := by
  simp [latchHead]
@[simp] theorem latchHead_dram (v q : Nat) (e : Event) (s : Part) : (latchHead v q e s).dram = s.dram := by
  simp [latchHead]
@[simp] theorem latchHead_gals (v q : Nat) (e : Event) (s : Part) : (latchHead v q e s).gals = s.gals := by
  simp [latchHead]
@[simp] theorem latchHead_flr (v q : Nat) (e : Event) (s : Part) : (latchHead v q e s).flr = s.flr := by
  simp [latchHead]
@[simp] theorem latchHead_cur (v q : Nat) (e : Event) (s : Part) : (latchHead v q e s).cur = s.cur := by
  simp [latchHead]
@[simp] theorem latchHead_mgmt (v q : Nat) (e : Event) (s : Part) : (latchHead v q e s).mgmt = s.mgmt := by
  simp [latchHead]
@[simp] theorem latchHead_tel (v q : Nat) (e : Event) (s : Part) : (latchHead v q e s).tel = s.tel := by
  simp [latchHead]
@[simp] theorem latchHead_power (v q : Nat) (e : Event) (s : Part) : (latchHead v q e s).power = s.power := by
  simp [latchHead]
@[simp] theorem latchHead_clv (v q : Nat) (e : Event) (s : Part) : (latchHead v q e s).clv = s.clv := by
  simp [latchHead]
@[simp] theorem latchHead_gfu (v q : Nat) (e : Event) (s : Part) : (latchHead v q e s).gfu = s.gfu := by
  simp [latchHead]
@[simp] theorem latchHead_str (v q : Nat) (e : Event) (s : Part) : (latchHead v q e s).str = s.str := by
  simp [latchHead]
@[simp] theorem latchHead_cmp (v q : Nat) (e : Event) (s : Part) : (latchHead v q e s).cmp = s.cmp := by
  simp [latchHead]
@[simp] theorem latchHead_chu (v q : Nat) (e : Event) (s : Part) : (latchHead v q e s).chu = s.chu := by
  simp [latchHead]
@[simp] theorem latchHead_flt (v q : Nat) (e : Event) (s : Part) : (latchHead v q e s).flt = s.flt := by
  simp [latchHead]
@[simp] theorem latchHead_inbox (v q : Nat) (e : Event) (s : Part) : (latchHead v q e s).inbox = s.inbox := by
  simp [latchHead]
@[simp] theorem latchHead_freeCtr (v q : Nat) (e : Event) (s : Part) : (latchHead v q e s).freeCtr = s.freeCtr := by
  simp [latchHead]

/-- An event never makes a queue longer than it can be, and an event that finds it full sets OVERFLOW (R563). -/
theorem queuePush_length (cap w i : Nat) (q : EventQueue) (h : q.entries.length ≤ cap) :
    (queuePush cap w i q).entries.length ≤ cap := by
  simp only [queuePush]; split
  · simp; omega
  · exact h

theorem queuePush_full (cap w i : Nat) (q : EventQueue) (h : cap ≤ q.entries.length) :
    queuePush cap w i q = { q with overflow := true } := by
  simp only [queuePush]; rw [if_neg (by omega)]

theorem queuePush_room (cap w i : Nat) (q : EventQueue) (h : q.entries.length < cap) :
    queuePush cap w i q = { q with entries := q.entries ++ [{ word := w, info := i, num := q.next }], next := q.next + 1 } := by
  simp only [queuePush]; rw [if_pos h]

/-! ### Command sequences -/

/-- The sequence once a view's command has begun at once. -/
theorem seqTake_accept (view cmd : Nat) (q : CmdSeq) (h1 : q.running = none) (h2 : q.waiting = []) :
    seqTake (seqAccept view cmd q) =
      some ((view, cmd), { q with busy := vset q.busy view true, waiting := [], running := some view }) := by
  simp [seqTake, seqAccept, h1, h2]

/-- A command that finds another view's command running waits. -/
theorem seqTake_running (view cmd v : Nat) (q : CmdSeq) (h : q.running = some v) : seqTake (seqAccept view cmd q) = none := by
  simp [seqTake, seqAccept, h]

/-- A write of a command register while the view is BUSY, or while the block is not in service, is recorded only (R527, R533). -/
theorem writeSeq_busy (block : Nat) (get : Part → CmdSeq) (set : CmdSeq → Part → Part) (perform : Nat → Nat → Part → Part)
    (view cmd : Nat) (s : Part) (hv : view < 4) (h : blockReady block s = false ∨ (get s).busy.getD view false = true) :
    writeSeq block get set perform view cmd s = note block 1 none .commandWhileBusy [view, cmd] s := by
  simp only [writeSeq]; rw [if_neg (by omega), if_pos (by rcases h with h | h <;> simp only [h] <;> simp)]

/-- A write of a command register of an idle sequence performs the command (R527). -/
theorem writeSeq_idle (block : Nat) (get : Part → CmdSeq) (set : CmdSeq → Part → Part) (perform : Nat → Nat → Part → Part)
    (view cmd : Nat) (s : Part) (hv : view < 4) (hr : blockReady block s = true) (hb : (get s).busy.getD view false = false)
    (h1 : (get (countCommand block s)).running = none) (h2 : (get (countCommand block s)).waiting = []) :
    writeSeq block get set perform view cmd s =
      perform view cmd
        (set { get (countCommand block s) with
                busy := vset (get (countCommand block s)).busy view true, waiting := [], running := some view }
          (countCommand block s)) := by
  simp only [writeSeq, seqTake_accept view cmd _ h1 h2]
  rw [if_neg (by omega), if_neg (by simp only [hr, hb]; simp)]

/-! ### Views and settling -/

/-- A view whose agent cannot reach the registers changes nothing (R526). -/
@[simp] theorem atView_closed (view : Nat) (f : Part → Part) (s : Part) (h : viewOpen view s = false) : atView view f s = s := by
  simp [atView, h]

@[simp] theorem atView_open (view : Nat) (f : Part → Part) (s : Part) (h : viewOpen view s = true) : atView view f s = f s := by
  simp [atView, h]

@[simp] theorem forOne_in (n i : Nat) (f : Part → Part) (s : Part) (h : i < n) : forOne n i f s = f s := by simp [forOne, h]

@[simp] theorem forOne_out (n i : Nat) (f : Part → Part) (s : Part) (h : n ≤ i) : forOne n i f s = s := by
  simp only [forOne]; rw [if_neg (by omega)]

/-- Where nothing follows of itself, settling takes no step. -/
theorem settleSteps_rest (n : Nat) (s : Part) (h : firstPump (pumps s) s = none) : settleSteps n s = s := by
  cases n with
  | zero => rfl
  | succ n => simp only [settleSteps, h]

/-- One step of what follows of itself. -/
theorem settleSteps_succ (n : Nat) (s t : Part) (h : firstPump (pumps s) s = some t) : settleSteps (n + 1) s = settleSteps n t := by
  simp only [settleSteps, h]

/-- Where nothing follows of itself, only the regions that wait for pages are looked at again. -/
theorem settle_rest (s : Part) (h : firstPump (pumps s) s = none) : settle s = checkStarved s := by
  rw [settle, settleSteps_rest _ _ h]

/-! ### Counting leaves every other block as it is -/

@[simp] theorem pushEvent_tel_regions (w i : Nat) (s : Part) : (pushEvent .tel w i s).regions = s.regions := by
  unfold pushEvent enqueueEvent; split <;> [rfl; (extract_lets; split <;> (simp +zetaDelta; rfl))]
@[simp] theorem count_regions (b i x n : Nat) (s : Part) : (count b i x n s).regions = s.regions := by
  unfold count; extract_lets; split <;> (try split) <;> simp +zetaDelta
@[simp] theorem pushEvent_tel_cat (w i : Nat) (s : Part) : (pushEvent .tel w i s).cat = s.cat := by
  unfold pushEvent enqueueEvent; split <;> [rfl; (extract_lets; split <;> (simp +zetaDelta; rfl))]
@[simp] theorem count_cat (b i x n : Nat) (s : Part) : (count b i x n s).cat = s.cat := by
  unfold count; extract_lets; split <;> (try split) <;> simp +zetaDelta
@[simp] theorem pushEvent_tel_gals (w i : Nat) (s : Part) : (pushEvent .tel w i s).gals = s.gals := by
  unfold pushEvent enqueueEvent; split <;> [rfl; (extract_lets; split <;> (simp +zetaDelta; rfl))]
@[simp] theorem count_gals (b i x n : Nat) (s : Part) : (count b i x n s).gals = s.gals := by
  unfold count; extract_lets; split <;> (try split) <;> simp +zetaDelta
@[simp] theorem pushEvent_tel_flr (w i : Nat) (s : Part) : (pushEvent .tel w i s).flr = s.flr := by
  unfold pushEvent enqueueEvent; split <;> [rfl; (extract_lets; split <;> (simp +zetaDelta; rfl))]
@[simp] theorem count_flr (b i x n : Nat) (s : Part) : (count b i x n s).flr = s.flr := by
  unfold count; extract_lets; split <;> (try split) <;> simp +zetaDelta
@[simp] theorem pushEvent_tel_power (w i : Nat) (s : Part) : (pushEvent .tel w i s).power = s.power := by
  unfold pushEvent enqueueEvent; split <;> [rfl; (extract_lets; split <;> (simp +zetaDelta; rfl))]
@[simp] theorem count_power (b i x n : Nat) (s : Part) : (count b i x n s).power = s.power := by
  unfold count; extract_lets; split <;> (try split) <;> simp +zetaDelta
@[simp] theorem pushEvent_tel_clv (w i : Nat) (s : Part) : (pushEvent .tel w i s).clv = s.clv := by
  unfold pushEvent enqueueEvent; split <;> [rfl; (extract_lets; split <;> (simp +zetaDelta; rfl))]
@[simp] theorem count_clv (b i x n : Nat) (s : Part) : (count b i x n s).clv = s.clv := by
  unfold count; extract_lets; split <;> (try split) <;> simp +zetaDelta
@[simp] theorem pushEvent_tel_str (w i : Nat) (s : Part) : (pushEvent .tel w i s).str = s.str := by
  unfold pushEvent enqueueEvent; split <;> [rfl; (extract_lets; split <;> (simp +zetaDelta; rfl))]
@[simp] theorem count_str (b i x n : Nat) (s : Part) : (count b i x n s).str = s.str := by
  unfold count; extract_lets; split <;> (try split) <;> simp +zetaDelta
@[simp] theorem pushEvent_tel_cmp (w i : Nat) (s : Part) : (pushEvent .tel w i s).cmp = s.cmp := by
  unfold pushEvent enqueueEvent; split <;> [rfl; (extract_lets; split <;> (simp +zetaDelta; rfl))]
@[simp] theorem count_cmp (b i x n : Nat) (s : Part) : (count b i x n s).cmp = s.cmp := by
  unfold count; extract_lets; split <;> (try split) <;> simp +zetaDelta
@[simp] theorem pushEvent_tel_chu (w i : Nat) (s : Part) : (pushEvent .tel w i s).chu = s.chu := by
  unfold pushEvent enqueueEvent; split <;> [rfl; (extract_lets; split <;> (simp +zetaDelta; rfl))]
@[simp] theorem count_chu (b i x n : Nat) (s : Part) : (count b i x n s).chu = s.chu := by
  unfold count; extract_lets; split <;> (try split) <;> simp +zetaDelta
@[simp] theorem pushEvent_tel_flt (w i : Nat) (s : Part) : (pushEvent .tel w i s).flt = s.flt := by
  unfold pushEvent enqueueEvent; split <;> [rfl; (extract_lets; split <;> (simp +zetaDelta; rfl))]
@[simp] theorem count_flt (b i x n : Nat) (s : Part) : (count b i x n s).flt = s.flt := by
  unfold count; extract_lets; split <;> (try split) <;> simp +zetaDelta

end Sys2Proof.Machine
end

