-- ==== Sys2Proof/Laws/Commands.lean ====
section
/-!
SUPPORT. What a write of a command register does where the sequence stands idle (R527): the command is performed on the part that has
taken it. One law for each sequence.
-/

namespace Sys2Proof.Machine

open Sys2Proof

/-- A count on a WRAP64 counter changes that counter alone (R505). -/
theorem count_wrap (b i x n : Nat) (s : Part) (h : ctrIsWrap (ctrId b i x) = true) :
    count b i x n s = onTelemetry (fun t =>
      { t with live := tset t.live (ctrId b i x) (bumpCounter (ctrId b i x) n (tget s.tel.live (ctrId b i x) Counter.zero)) }) s := by
  simp [count, h, bumpCounter]

/-- Counting a command changes the counters alone. -/
theorem seqOf_countCommand (q : SeqName) (b : Nat) (s : Part) : seqOf q (countCommand b s) = seqOf q s := by
  unfold countCommand
  split
  · rw [count_wrap _ _ _ _ _ (decide_eq_true (by show (b * 2 ^ 23 + 0 * 2 ^ 8 + 0) % 256 < 64; omega))]; cases q <;> rfl
  · rfl

/-- Counting a command leaves what the part is. -/
theorem isTray_countCommand (b : Nat) (s : Part) : isTray (countCommand b s) = isTray s := by
  unfold countCommand
  split
  · rw [count_wrap _ _ _ _ _ (decide_eq_true (by show (b * 2 ^ 23 + 0 * 2 ^ 8 + 0) % 256 < 64; omega))]; rfl
  · rfl

/-- Taking a command leaves what the part is. -/
theorem isTray_took (q : SeqName) (view : Nat) (p : Part) : isTray (took q view p) = isTray p := by
  rw [← isTray_countCommand (seqBlock q) p]; unfold took; cases q <;> rfl

theorem canCommand_open {q : SeqName} {view : Nat} {p : Part} (h : canCommand q view p) : viewOpen view p = true := h.2.1
theorem canCommand_view {q : SeqName} {view : Nat} {p : Part} (h : canCommand q view p) : view < 4 := h.1

/-- A write of a command register that nothing hinders is performed at once. -/
theorem writeSeq_runs (q : SeqName) (get : Part → CmdSeq) (set : CmdSeq → Part → Part) (perform : Nat → Nat → Part → Part)
    (hget : get = seqOf q) (hset : set = setSeq q) (view cmd : Nat) (p : Part) (h : canCommand q view p) :
    writeSeq (seqBlock q) get set perform view cmd p = perform view cmd (took q view p) := by
  obtain ⟨hv, _, hr, hb, h1, h2⟩ := h
  subst hget hset
  rw [writeSeq_idle _ _ _ _ _ _ _ hv hr hb (by rw [seqOf_countCommand]; exact h1) (by rw [seqOf_countCommand]; exact h2)]
  rfl

theorem writeExtCmd_runs (view cmd : Nat) (p : Part) (h : canCommand .ext view p) :
    writeExtCmd view cmd p = extPerform view cmd (took .ext view p) := writeSeq_runs .ext _ _ _ rfl rfl view cmd p h
theorem writeTblCmd_runs (view cmd : Nat) (p : Part) (h : canCommand .tbl view p) :
    writeTblCmd view cmd p = tblPerform view cmd (took .tbl view p) := writeSeq_runs .tbl _ _ _ rfl rfl view cmd p h
theorem writeRegionCmd_runs (view cmd : Nat) (p : Part) (h : canCommand .region view p) :
    writeRegionCmd view cmd p = regPerform view cmd (took .region view p) := writeSeq_runs .region _ _ _ rfl rfl view cmd p h
theorem writeCatCmd_runs (view cmd : Nat) (p : Part) (h : canCommand .cat view p) (hw : memberWalks cmd p = false) :
    writeCatCmd view cmd p = catPerform view cmd (took .cat view p) := by
  simp only [writeCatCmd, hw, Bool.and_false, Bool.false_eq_true, if_false]
  exact writeSeq_runs .cat _ _ _ rfl rfl view cmd p h
theorem writeClvCmd_runs (view cmd : Nat) (p : Part) (h : canCommand .clv view p) :
    writeClvCmd view cmd p = clvPerform view cmd (took .clv view p) := writeSeq_runs .clv _ _ _ rfl rfl view cmd p h
theorem writeStrCmd_runs (view cmd : Nat) (p : Part) (h : canCommand .str view p) :
    writeStrCmd view cmd p = strPerform view cmd (took .str view p) := writeSeq_runs .str _ _ _ rfl rfl view cmd p h
theorem writeSlotCmd_runs (view cmd : Nat) (p : Part) (h : canCommand .slot view p) :
    writeSlotCmd view cmd p = slotPerform view cmd (took .slot view p) := writeSeq_runs .slot _ _ _ rfl rfl view cmd p h
theorem writeJobCmd_runs (view cmd : Nat) (p : Part) (h : canCommand .job view p) :
    writeJobCmd view cmd p = jobPerform view cmd (took .job view p) := writeSeq_runs .job _ _ _ rfl rfl view cmd p h
theorem writeChuCmd_runs (view cmd : Nat) (p : Part) (h : canCommand .chu view p) :
    writeChuCmd view cmd p = chuPerform view cmd (took .chu view p) := writeSeq_runs .chu _ _ _ rfl rfl view cmd p h
theorem writeFltCmd_runs (view cmd : Nat) (p : Part) (h : canCommand .flt view p) :
    writeFltCmd view cmd p = fltPerform view cmd (took .flt view p) := writeSeq_runs .flt _ _ _ rfl rfl view cmd p h
theorem writeGalCmd_runs (view cmd : Nat) (p : Part) (h : canCommand .gal view p) :
    writeGalCmd view cmd p = galPerform view cmd (took .gal view p) := writeSeq_runs .gal _ _ _ rfl rfl view cmd p h
theorem writeFlrCmd_runs (view cmd : Nat) (p : Part) (h : canCommand .flr view p) :
    writeFlrCmd view cmd p = flrPerform view cmd (took .flr view p) := writeSeq_runs .flr _ _ _ rfl rfl view cmd p h
theorem writeCensusCmd_runs (view cmd : Nat) (p : Part) (h : canCommand .census view p) (hc : bitAt cmd 0 = true) :
    writeCensusCmd view cmd p = telPerform view cmd (took .census view p) := by
  simp only [writeCensusCmd, hc, if_true]
  exact writeSeq_runs .census _ _ _ rfl rfl view cmd p h
theorem writeTelClear_runs (view id : Nat) (p : Part) (h : canCommand .census view p) :
    writeTelClear view id p = telPerform view (telClearCmd id) (took .census view p) :=
  writeSeq_runs .census _ _ _ rfl rfl view (telClearCmd id) p h
theorem writeFillCmd_runs (view cmd : Nat) (p : Part) (h : canCommand .fill view p) (hc : field cmd 1 0 ≠ 2) :
    writeFillCmd view cmd p = fillPerform view cmd (took .fill view p) := by
  simp only [writeFillCmd, hc, decide_false, Bool.false_and, Bool.false_eq_true, if_false]
  exact writeSeq_runs .fill _ _ _ rfl rfl view cmd p h
theorem writeSurveyCmd_runs (view cmd : Nat) (p : Part) (h : canCommand .survey view p) (hc : field cmd 1 0 ≠ 2) :
    writeSurveyCmd view cmd p = surveyPerform view cmd (took .survey view p) := by
  simp only [writeSurveyCmd, hc, decide_false, Bool.false_and, Bool.false_eq_true, if_false]
  exact writeSeq_runs .survey _ _ _ rfl rfl view cmd p h

/-! ### The operation field -/

theorem withOp_op (hi op : Nat) (cmd : Word64) : field (withOp hi op cmd) hi 0 = op % 2 ^ (hi + 1) :=
  field_setField_same _ _ _ _ (by omega)
theorem withOp_above (hi op : Nat) (cmd : Word64) (hi' lo' : Nat) (h : hi < lo') :
    field (withOp hi op cmd) hi' lo' = field cmd.toNat hi' lo' := field_setField_above _ _ _ _ _ _ (by omega) h
theorem withOp_bitAt (hi op : Nat) (cmd : Word64) (i : Nat) (h : hi < i) : bitAt (withOp hi op cmd) i = bitAt cmd.toNat i :=
  bitAt_setField_above _ _ _ _ _ (by omega) h

end Sys2Proof.Machine
end

