-- ==== Sys2Proof/Laws/Energy.lean ====
section
/-!
SUPPORT. What a turn's energy changes (R454): the power state alone.
-/

namespace Sys2Proof.Machine

/-- A turn's energy comes out of the power state, and nothing else changes. -/
theorem spend_rest (c e : Nat) (s : Part) : spend c e s = { s with power := (spend c e s).power } := rfl

@[simp] theorem spend_cur (c e : Nat) (s : Part) : (spend c e s).cur = s.cur := rfl
@[simp] theorem spend_tel (c e : Nat) (s : Part) : (spend c e s).tel = s.tel := rfl
@[simp] theorem spend_dram (c e : Nat) (s : Part) : (spend c e s).dram = s.dram := rfl
@[simp] theorem spend_gals (c e : Nat) (s : Part) : (spend c e s).gals = s.gals := rfl
@[simp] theorem spend_flr (c e : Nat) (s : Part) : (spend c e s).flr = s.flr := rfl
@[simp] theorem spend_flt (c e : Nat) (s : Part) : (spend c e s).flt = s.flt := rfl
@[simp] theorem spend_chu (c e : Nat) (s : Part) : (spend c e s).chu = s.chu := rfl
@[simp] theorem spend_mgmt (c e : Nat) (s : Part) : (spend c e s).mgmt = s.mgmt := rfl
@[simp] theorem spend_regions (c e : Nat) (s : Part) : (spend c e s).regions = s.regions := rfl
@[simp] theorem spend_pool (c e : Nat) (s : Part) : (spend c e s).pool = s.pool := rfl

/-- A class whose energy is not paced holds what any turn needs. -/
theorem canSpend_of_unpaced {c : Nat} {s : Part} (e : Nat) (h : (pwrClass c s).held = none) : canSpend c e s = true := by
  simp [canSpend, h]

/-- A class holds what a smaller turn needs where it holds what a larger one does. -/
theorem canSpend_mono {c e f : Nat} {s : Part} (h : canSpend c f s = true) (he : e ≤ f) : canSpend c e s = true := by
  unfold canSpend at *
  split <;> simp_all; omega

end Sys2Proof.Machine
end

