-- ==== Sys2Proof/Laws/Mailbox.lean ====
section
/-!
SUPPORT. What a request on a mailbox channel comes to.
-/

namespace Sys2Proof.Machine

open Sys2Proof

/-- Reading past a prefix. -/
theorem leAt_append (as bs : List Byte) (off k : Nat) (h : as.length = off) : leAt (as ++ bs) off k = leAt bs 0 k := by
  subst h; simp [leAt]

/-- The fields of a mailbox header (R492). -/
theorem mailHeader_op (op r n tag : Nat) (pl : List Byte) (h : op < 2 ^ 16) : leAt (mailHeader op r n tag ++ pl) 0 2 = op := by
  simp only [mailHeader, List.append_assoc]
  rw [leAt_leBytes_append]; exact Nat.mod_eq_of_lt h

theorem mailHeader_length (op r n tag : Nat) (pl : List Byte) (h : n < 2 ^ 32) : leAt (mailHeader op r n tag ++ pl) 4 4 = n := by
  have e : mailHeader op r n tag ++ pl = (leBytes 2 op ++ leBytes 2 r) ++ (leBytes 4 n ++ (leBytes 4 tag ++ (leBytes 4 0 ++ pl))) := by
    simp [mailHeader, List.append_assoc]
  rw [e, leAt_append _ _ _ _ (by simp), leAt_leBytes_append]; exact Nat.mod_eq_of_lt h

theorem mailHeader_tag (op r n tag : Nat) (pl : List Byte) (h : tag < 2 ^ 32) : leAt (mailHeader op r n tag ++ pl) 8 4 = tag := by
  have e : mailHeader op r n tag ++ pl = (leBytes 2 op ++ leBytes 2 r ++ leBytes 4 n) ++ (leBytes 4 tag ++ (leBytes 4 0 ++ pl)) := by
    simp [mailHeader, List.append_assoc]
  rw [e, leAt_append _ _ _ _ (by simp), leAt_leBytes_append]; exact Nat.mod_eq_of_lt h

theorem mailHeader_payload (op r n tag : Nat) (pl : List Byte) : sliceBytes (mailHeader op r n tag ++ pl) 16 pl.length = pl := by
  have h : (mailHeader op r n tag).length = 16 := by simp [mailHeader]
  simp [sliceBytes, ← h]

/-- Reading a channel that has been changed. -/
theorem mailChannel_onMail (c : Nat) (f : MailChannel → MailChannel) (p : Part) (h : c < p.mgmt.channels.length) :
    mailChannel c (onMail c f p) = f (mailChannel c p) := by
  simp [mailChannel, onMail, List.getD, h]

/-- A request that its channel can take is taken as it stands, performed after the checks of R566, and answered. -/
theorem mailSend_runs (c op : Nat) (pl : List Byte) (p : Part) (h : mailReady c p) (ho : op < 2 ^ 16) (hl : pl.length ≤ 4080) :
    mailSend c op pl p =
      replied c op (mailCommand c op pl.length pl (asked c op pl p)).1 (mailCommand c op pl.length pl (asked c op pl p)).2.1
        (mailCommand c op pl.length pl (asked c op pl p)).2.2 := by
  obtain ⟨hc, h1, h2, h3⟩ := h
  have hr : (mailChannel c (onMail c (fun x => { x with req := mailHeader op 0 pl.length 0 ++ pl }) p)).req
      = mailHeader op 0 pl.length 0 ++ pl := by rw [mailChannel_onMail _ _ _ hc]
  simp only [mailSend, h1, h2, h3, Bool.not_true, Bool.or_self, Bool.false_eq_true, if_false, List.take_of_length_le hl, mailServe, hr]
  rw [mailHeader_op _ _ _ _ _ ho, mailHeader_length _ _ _ _ _ (by omega), mailHeader_tag _ _ _ _ _ (by omega), Nat.min_eq_left hl,
    mailHeader_payload]
  rfl

/-! ### What a request taken leaves as it was -/

/-- A request taken changes its channel and a counter alone. -/
theorem asked_eq (c op : Nat) (pl : List Byte) (p : Part) :
    asked c op pl p = { onMail c (fun x => { x with req := mailHeader op 0 pl.length 0 ++ pl }) p with tel := (asked c op pl p).tel } := by
  unfold asked; rw [count_wrap _ _ _ _ _ (by decide)]; rfl
theorem asked_cur (c op : Nat) (pl : List Byte) (p : Part) : (asked c op pl p).cur = p.cur := by rw [asked_eq]; rfl
theorem asked_gals (c op : Nat) (pl : List Byte) (p : Part) : (asked c op pl p).gals = p.gals := by rw [asked_eq]; rfl
theorem asked_mgmt (c op : Nat) (pl : List Byte) (p : Part) : (asked c op pl p).mgmt = (onMail c (fun x => { x with req := mailHeader op 0 pl.length 0 ++ pl }) p).mgmt := by
  rw [asked_eq]
theorem asked_session (c op : Nat) (pl : List Byte) (p : Part) : (asked c op pl p).mgmt.session = p.mgmt.session := by
  rw [asked_mgmt]; rfl
theorem asked_async (c op : Nat) (pl : List Byte) (p : Part) : (asked c op pl p).mgmt.async = p.mgmt.async := by rw [asked_mgmt]; rfl
theorem asked_updateRuns (c op : Nat) (pl : List Byte) (p : Part) : updateRuns (asked c op pl p) = updateRuns p := by
  simp only [updateRuns, asked_async]
theorem asked_norSession (c op : Nat) (pl : List Byte) (p : Part) : norSession (asked c op pl p) = norSession p := by
  simp only [norSession, asked_async, asked_session]
theorem asked_done (c op : Nat) (pl : List Byte) (p : Part) : (asked c op pl p).mgmt.asyncDone = p.mgmt.asyncDone := by
  rw [asked_mgmt]; rfl
theorem asked_res (c op : Nat) (pl : List Byte) (p : Part) : (asked c op pl p).mgmt.asyncResult = p.mgmt.asyncResult := by
  rw [asked_mgmt]; rfl
theorem asked_dir (c op : Nat) (pl : List Byte) (p : Part) : directory (asked c op pl p).mgmt = directory p.mgmt := by
  rw [asked_mgmt]; rfl
theorem asked_rec (c op k : Nat) (pl : List Byte) (p : Part) : recordCopy k (asked c op pl p) = recordCopy k p := by
  simp only [recordCopy]; rw [asked_mgmt]; rfl
theorem asked_nor (c op : Nat) (pl : List Byte) (p : Part) : norUsable (asked c op pl p) = norUsable p := by
  simp only [norUsable, asked_cur]
theorem asked_rcv (c op : Nat) (pl : List Byte) (p : Part) : inRecovery (asked c op pl p) = inRecovery p := by
  simp only [inRecovery, asked_cur]

/-- The KIND of a key message is the one given. -/
theorem ofKind_kind (k : Nat) (hk : k < 256) (pl : List Byte) : kmKind (ofKind k pl) = k := by
  simp [kmKind, ofKind, leAt, ofLe]; omega

end Sys2Proof.Machine
end

