-- ==== Sys2Proof/Laws/Memory.lean ====
section
/-!
SUPPORT. The pool DRAM as bytes: every operation keeps the canonical form of the memory.
-/

namespace Sys2Proof.Machine

open Sys2Proof

/-! ### Rising cells -/

theorem cellsRising_iff (cs : List Host.Cell) : cellsRising cs = true ↔ cs.Pairwise fun c d => c.1 < d.1 := by
  induction cs with
  | nil => simp [cellsRising]
  | cons c cs ih =>
    cases cs with
    | nil => simp [cellsRising]
    | cons d cs =>
      simp only [cellsRising, Bool.and_eq_true, decide_eq_true_eq, ih]
      rw [List.pairwise_cons (a := c)]
      constructor
      · rintro ⟨h, hp⟩
        refine ⟨fun e he => ?_, hp⟩
        rcases List.mem_cons.1 he with rfl | he
        · exact h
        · exact Nat.lt_trans h ((List.pairwise_cons.1 hp).1 e he)
      · rintro ⟨h, hp⟩
        exact ⟨h d (by simp), hp⟩

/-- What the canonical form says, as propositions. -/
theorem wf_iff (m : Memory) :
    m.wf = true ↔ (m.cells.Pairwise fun c d => c.1 < d.1) ∧ ∀ c ∈ m.cells, c.2 ≠ background m.fills c.1 := by
  simp [Memory.wf, cellsRising_iff]

theorem mem_runCells {fills : List FillRange} {a : Nat} {bs : List Byte} {c : Host.Cell} (h : c ∈ runCells fills a bs) :
    a ≤ c.1 ∧ c.1 < a + bs.length ∧ bs[c.1 - a]? = some c.2 ∧ c.2 ≠ background fills c.1 := by
  induction bs generalizing a with
  | nil => simp [runCells] at h
  | cons b bs ih =>
    have step (h : c ∈ runCells fills (a + 1) bs) :
        a ≤ c.1 ∧ c.1 < a + (b :: bs).length ∧ (b :: bs)[c.1 - a]? = some c.2 ∧ c.2 ≠ background fills c.1 := by
      obtain ⟨h1, h2, h3, h4⟩ := ih h
      have e : c.1 - a = (c.1 - (a + 1)) + 1 := by omega
      refine ⟨by omega, by simp only [List.length_cons]; omega, ?_, h4⟩
      rw [e, List.getElem?_cons_succ]; exact h3
    simp only [runCells] at h
    split at h
    · exact step h
    · rename_i hb
      rcases List.mem_cons.1 h with rfl | h
      · exact ⟨Nat.le_refl _, by simp, by simp, hb⟩
      · exact step h

theorem runCells_rising (fills : List FillRange) (a : Nat) (bs : List Byte) :
    (runCells fills a bs).Pairwise fun c d => c.1 < d.1 := by
  induction bs generalizing a with
  | nil => simp [runCells]
  | cons b bs ih =>
    simp only [runCells]
    split
    · exact ih (a + 1)
    · refine List.pairwise_cons.2 ⟨fun d hd => ?_, ih (a + 1)⟩
      have := (mem_runCells hd).1
      show a < d.1
      omega

/-- A write of bytes keeps the canonical form. -/
theorem wf_writeBytes (a : Nat) (bs : List Byte) (m : Memory) (h : m.wf = true) : (writeBytes a bs m).wf = true := by
  obtain ⟨hp, hb⟩ := (wf_iff m).1 h
  refine (wf_iff _).2 ⟨?_, ?_⟩
  · simp only [writeBytes, List.append_assoc]
    refine List.pairwise_append.2 ⟨hp.filter _, List.pairwise_append.2 ⟨runCells_rising _ _ _, hp.filter _, ?_⟩, ?_⟩
    · intro c hc d hd
      have h1 := (mem_runCells hc).2.1
      have h2 := (List.mem_filter.1 hd).2
      simp only [decide_eq_true_eq] at h2
      omega
    · intro c hc d hd
      have h1 := (List.mem_filter.1 hc).2
      simp only [decide_eq_true_eq] at h1
      rcases List.mem_append.1 hd with hd | hd
      · have := (mem_runCells hd).1; omega
      · have h2 := (List.mem_filter.1 hd).2
        simp only [decide_eq_true_eq] at h2
        omega
  · intro c hc
    simp only [writeBytes] at hc ⊢
    rcases List.mem_append.1 hc with hc | hc
    · rcases List.mem_append.1 hc with hc | hc
      · exact hb c (List.mem_filter.1 hc).1
      · exact (mem_runCells hc).2.2.2
    · exact hb c (List.mem_filter.1 hc).1

/-- A write of a line keeps the canonical form. -/
theorem wf_putLine (line : Nat) (bs : List Byte) (attr : LineAttr) (m : Memory) (h : m.wf = true) :
    (putLine line bs attr m).wf = true := by
  have := wf_writeBytes (line * 128) (sliceBytes bs 0 128) m h
  exact this

theorem background_cons (f : FillRange) (fills : List FillRange) (a : Nat) :
    background (f :: fills) a =
      if fillCovers f (a / 128) then BitVec.ofNat 8 (f.pattern >>> (8 * (a % 8))) else background fills a := by
  simp only [background, fillOf, List.find?_cons]
  cases h : fillCovers f (a / 128) <;> simp

/-- A fill keeps the canonical form. -/
theorem wf_fillLines (f : FillRange) (m : Memory) (h : m.wf = true) : (fillLines f m).wf = true := by
  obtain ⟨hp, hb⟩ := (wf_iff m).1 h
  refine (wf_iff _).2 ⟨hp.filter _, fun c hc => ?_⟩
  obtain ⟨hc, hf⟩ := List.mem_filter.1 hc
  simp only [fillLines, background_cons]
  rw [if_neg (by simpa using hf)]
  exact hb c hc

/-- The rest of a fill keeps the canonical form, where the fill is the newest. -/
theorem wf_fillRest (f : FillRange) (fills : List FillRange) (m : Memory) (hf : m.fills = f :: fills) (h : m.wf = true) :
    (fillRest f m).wf = true := by
  obtain ⟨hp, hb⟩ := (wf_iff m).1 h
  refine (wf_iff _).2 ⟨hp.filter _, fun c hc => ?_⟩
  obtain ⟨hc, hk⟩ := List.mem_filter.1 hc
  have hb := hb c hc
  simp only [fillRest, hf, List.erase_cons_head, background_cons] at hb ⊢
  by_cases hin : f.first ≤ c.1 / 128 ∧ c.1 / 128 < f.first + f.lines
  · have hcov : fillCovers f (c.1 / 128) = true := by
      simp only [hin.1, hin.2, decide_true, Bool.and_self, Bool.not_true, Bool.false_or] at hk
      exact hk
    have hall : fillCovers { f with pick := none } (c.1 / 128) = true := by simp [fillCovers, hin.1, hin.2]
    rw [if_pos hall]
    rw [if_pos hcov] at hb
    exact hb
  · have h1 : fillCovers f (c.1 / 128) = false := by
      simp only [fillCovers, Bool.and_eq_false_iff, decide_eq_false_iff_not]
      by_cases h : f.first ≤ c.1 / 128
      · exact .inl (.inr fun k => hin ⟨h, k⟩)
      · exact .inl (.inl h)
    have h2 : fillCovers { f with pick := none } (c.1 / 128) = false := by
      simp only [fillCovers, Bool.and_eq_false_iff, decide_eq_false_iff_not]
      by_cases h : f.first ≤ c.1 / 128
      · exact .inl (.inr fun k => hin ⟨h, k⟩)
      · exact .inl (.inl h)
    rw [if_neg (by simp [h2])]
    rw [if_neg (by simp [h1])] at hb
    exact hb

/-- What a loss of power keeps has the canonical form. -/
theorem wf_flashMemory (m : Memory) (h : m.wf = true) : (flashMemory m).wf = true := by
  obtain ⟨hp, _⟩ := (wf_iff m).1 h
  refine (wf_iff _).2 ⟨hp.filter _, fun c hc => ?_⟩
  have hk := (List.mem_filter.1 hc).2
  simp only [Bool.and_eq_true, decide_eq_true_eq] at hk
  exact hk.2

/-- What cell-buffer metadata loses is memory (R416): the Curator stays as it was. -/
theorem loseWaiting_cur (s : Part) : (loseWaiting s).cur = s.cur := by
  unfold loseWaiting
  have undone (l : List WaitingWrite) (q : Part) : (l.foldl undoWrite q).cur = q.cur := by
    induction l generalizing q with
    | nil => rfl
    | cons w ws ih => rw [List.foldl_cons, ih]; rfl
  generalize List.range 24 = l
  induction l generalizing s with
  | nil => rfl
  | cons x xs ih => rw [List.foldl_cons, ih]; dsimp only; split <;> [rfl; (rw [undone]; rfl)]

/-- The memory of the machine before power comes has the canonical form. -/
theorem wf_reset : Part.reset.dram.memory.wf = true := rfl

end Sys2Proof.Machine
end

