-- ==== Sys2Proof/Laws/Regions.lean ====
section
/-!
SUPPORT. What the regions that wait for a page depend on (R95).
-/

namespace Sys2Proof.Machine

open Sys2Proof

/-- Neither the record of the starved regions nor the region events bear on which regions wait for a page. -/
theorem starvedRegions_noting (p : Part) (events : EventQueue) (starved : List (BitVec 64)) :
    starvedRegions { p with regions := { p.regions with starved := starved, events := events } } = starvedRegions p := rfl

/-- Nor do the daybook, the interrupts of the cores and the counters. -/
theorem starvedRegions_withRecords (m : Management) (t : Telemetry) (p : Part) : starvedRegions (withRecords m t p) = starvedRegions p := rfl

theorem starvedRegions_raiseCore (i : Nat) (p : Part) : starvedRegions (raiseCore i p) = starvedRegions p := by
  rw [raiseCore_rest, starvedRegions_withRecords]

theorem starvedRegions_note (b v : Nat) (g : Option Nat) (c : Note) (d : List Nat) (p : Part) :
    starvedRegions (note b v g c d p) = starvedRegions p := by
  rw [note_rest, starvedRegions_withRecords]

/-- A region event leaves them. -/
theorem starvedRegions_regionEvent (kind slot info : Nat) (p : Part) :
    starvedRegions (regionEvent kind slot info p) = starvedRegions p := by
  have h (q : EventQueue) : starvedRegions (raiseCore (queueBlock .region + 1) (setQueue .region q p)) = starvedRegions p :=
    starvedRegions_raiseCore _ _
  unfold regionEvent pushEvent enqueueEvent
  split
  · rfl
  · dsimp only; split
    · exact h _
    · exact (starvedRegions_note _ _ _ _ _ _).trans (h _)

/-- The record of the starved regions is not changed by a region event. -/
theorem regionEvent_starved (kind slot info : Nat) (p : Part) : (regionEvent kind slot info p).regions.starved = p.regions.starved := by
  unfold regionEvent pushEvent enqueueEvent
  split
  · rfl
  · dsimp only; split
    · rfl
    · rw [note_regions]; rfl

end Sys2Proof.Machine
end

