-- ==== Sys2Proof/Laws/Turns.lean ====
section
/-!
SUPPORT. What a deal of turns can answer (R390, R391), and what the passing of time leaves (R232).
-/

namespace Sys2Proof.Machine

open Sys2Proof

/-- A window never holds more than 4,096 turns, the newest first. -/
theorem turnServed_length (g : Nat) (w : List Nat) : (turnServed g w).length ≤ 4096 := by simp [turnServed]

@[simp] theorem turnServed_head (g : Nat) (w : List Nat) : (turnServed g w).head? = some g := rfl

/-- A turn that is dealt falls to a gallery with work waiting, and is the newest of its window. -/
theorem dealTurn_spec {n : Nat} {w idle waiting : List Nat} {s : Part} {d : Deal} (h : dealTurn n w idle waiting s = some d) :
    d.gallery ∈ waiting ∧ d.window.head? = some d.gallery ∧ d.window.length ≤ 4096 := by
  induction n generalizing w idle with
  | zero => cases h
  | succ n ih =>
    rw [dealTurn] at h
    split at h
    · cases h
    · split at h
      · rename_i g _ hg
        cases h
        exact ⟨hg, turnServed_head _ _, turnServed_length _ _⟩
      · exact ih h

/-- The next turn of an engine falls to a gallery with work waiting. -/
theorem nextTurn_spec {e : Nat} {waiting : List Nat} {s : Part} {d : Deal} (h : nextTurn e waiting s = some d) :
    d.gallery ∈ waiting ∧ d.window.head? = some d.gallery ∧ d.window.length ≤ 4096 := by
  rw [nextTurn] at h
  split at h
  · cases h
  · exact dealTurn_spec h

/-- Time that passes is counted, and changes neither the Curator nor the scheduler (R232). -/
theorem creditWait_frame (us : Nat) (s : Part) : (creditWait us s).cur = s.cur ∧ (creditWait us s).power = s.power := by
  unfold creditWait
  generalize s.str.streams = l
  induction l generalizing s with
  | nil => exact ⟨rfl, rfl⟩
  | cons x xs ih =>
    rw [List.foldl_cons]
    refine ⟨(ih _).1.trans ?_, (ih _).2.trans ?_⟩ <;> (split <;> [simp; rfl])

@[simp] theorem creditWait_cur (us : Nat) (s : Part) : (creditWait us s).cur = s.cur := (creditWait_frame us s).1
@[simp] theorem creditWait_power (us : Nat) (s : Part) : (creditWait us s).power = s.power := (creditWait_frame us s).2

end Sys2Proof.Machine
end

