-- ==== Sys2Proof/Tests/Slice0.lean ====
section
/-!
SUPPORT. Tests: what well-formedness refuses, worked examples of the spec, and for every statement of the obligations states and operands
that meet its hypotheses.
-/

namespace Sys2Proof.Tests

open Sys2Proof Sys2Proof.Machine

set_option Elab.async false

/-! ### States -/

/-- A tray part that runs, with 64 GiB modules on every channel, both hosts up and the cores on. -/
def tray : Machine.Part :=
  { Part.reset with
    cur := { coldCurator with power := .coreOn, pwrgd := true, vin48 := 48000, phase := 12 }
    pool := { coldPool defaultRecord with perChannel := 256 }
    dram := { coldDram { cells := [], attrs := [], fills := [] } with channels := List.replicate 24 { Channel.blank with trained := true } }
    mgmt := { coldManagement with hosts := List.replicate 2 { HostPort.reset with perst := true, link := true, retry := false }
                                  coresOn := true }
    gals := { coldGalleries defaultRecord with
              gals := { Gallery.reset with state := .active, current := some { epoch := 1, key := 7 } } :: List.replicate 7 Gallery.reset } }

/-- A part whose classes hold that much energy each, and no more. -/
def paced (e : Nat) (p : Machine.Part) : Machine.Part :=
  onPower (fun b => { b with classes := b.classes.map fun x => { x with held := some e } }) p

/-- The machine with that part. -/
def machine (p : Machine.Part) : State := { part := p, pending := [] }

/-- An extent entry of object 5 in a state. -/
def extent (x : ExtState) (c : ExtClass) : Extent := { Extent.blank with object := 5, state := x, cls := c }

/-- A part with these extents. -/
def withExtents (xs : Table Extent) (p : Machine.Part) : Machine.Part := onPool (fun b => { b with extents := xs }) p

/-- The tray part with its lowest port ACTIVE towards a peer. -/
def linked : Machine.Part :=
  { tray with links := { coldLinks defaultRecord with
      ports := [(0, { LPort.idle with link := .active, peerYp := true })], enable := [(0, true)] } }

/-! ### Well-formedness -/

/-- A board that is none. -/
def noBoard : BootEnv :=
  { modules := [], rngOk := true, norOk := true, coreRefclk := true, vin48 := 48000, resetN := true, perst := [], drives := [], straps := 0 }

/-- A sample with one reading too many. -/
def manyReadings : Sensors :=
  { temps := List.replicate 65 0, invalid := [], volts := [], modules := [], inputW := 0, vin48 := 0 }

/-- A drive whose wear is out of range. -/
def noDrive : DriveInfo :=
  { alone := true, rates := [3], lanes := 4, version := 2, zns := true, zoned := true, lbaBytes := 4096, metadata := 0, protect := false,
    zcap := 524800, zcapMax := 524800, zsize := 524800, nzones := 64, transfer := none, actives := none, queues := 8, entries := 1024,
    percent := 256, used := [], journal := [], contents := [] }

/-! Each command with an operand just past its range, or of the wrong form, is ill formed. -/

theorem test_ill_formed_one :
  (([
    .pwrgdRise noBoard, .resetNPulse noBoard, .vinOvervoltage 131072, .corePllLockRetry noBoard, .sdsRefclkLoss 4,
    .hostRefclkLoss 2, .lockstepMismatch noBoard, .curatorSramUe noBoard, .internalMemoryUe (.cellPayload 0 8), .fastReset 4 0,
    .fastResetWatchdog noBoard, .sensorSample manyReadings, .schedulerTick (2 ^ 21),
    .forcedRunDefer 16 0, .modeWrite 4 0, .pwrEventPop 4, .linkEnable 128, .linkDisable 128, .linkRetrain 256, .pmdTrained 256,
    .trainTimeout 256, .trainRetry 256, .pcsLocked 256, .lockTimeout 256, .xenusStartSet 256, .alignTimeout 256,
    .initFlit 256 [], .paramTimeout 256, .dataFlit 256 [], .nullFlit 256 [], .ackDue 256, .ackTimeout 256, .retrainTimeout 256,
    .stallTimerExpiry 256 0, .bufferAdmission 768 0, .policerRecolour 256 0, .shaperConfigWrite 4 0 0,
    .policerConfigWrite 4 0 0 0, .rdLine 256 Msg.blank, .wrLine 256 Msg.blank] : List Instr).all fun c => !wellFormed c) = true :=
  by decide

theorem test_ill_formed_two :
  (([
    .wrMasked 256 Msg.blank, .atAdd 256 Msg.blank, .atMin 256 Msg.blank, .atMax 256 Msg.blank, .atCas 256 Msg.blank,
    .fence 256 Msg.blank, .fenceMark 256 Msg.blank, .loanOffer 256 Msg.blank, .loanOfferExpiry 4096, .loanRecall 256 Msg.blank,
    .contrib 256 Msg.blank, .result 256 Msg.blank, .streamAttach 256 Msg.blank, .tile 256 Msg.blank,
    .windowCredit 256 Msg.blank, .gatherReq 256 Msg.blank, .filterReq 256 Msg.blank, .gatherData 256 Msg.blank,
    .filterData 256 Msg.blank, .cpl 256 Msg.blank, .rdData 256 Msg.blank, .atData 256 Msg.blank, .loanReply 256 Msg.blank,
    .faultNotice 256 Msg.blank, .rdShared 256 Msg.blank, .rdOwn 256 Msg.blank, .upgrade 256 Msg.blank, .wbDirty 256 Msg.blank,
    .cmpAck 256 Msg.blank, .snpShrFwd 256 Msg.blank, .snpInv 256 Msg.blank, .snpInvFwd 256 Msg.blank, .snpNa 256 Msg.blank,
    .snpRsp 256 Msg.blank, .catCmp 256 Msg.blank, .dataS 256 Msg.blank, .dataE 256 Msg.blank, .dataM 256 Msg.blank,
    .dataMAt 256 Msg.blank, .snpData 256 Msg.blank] : List Instr).all fun c => !wellFormed c) = true := by decide

theorem test_ill_formed_three :
  (([
    .twinEntry 256 Msg.blank, .twinCheck 256 Msg.blank, .twinSum 256 Msg.blank, .mgmtReq 256 Msg.blank, .mgmtRsp 256 Msg.blank,
    .telReq 256 Msg.blank, .telRsp 256 Msg.blank, .retransmitTimer 512 0 0, .completionTimeout 4096 0 0,
    .streamIdleExpiry 512 0, .reseqSlotIdle 4096 0, .atomicCacheExpiry 4096 0 0, .revoke 4 0, .revokeComplete 262144,
    .moveOut 4 0, .forceRecall 4 0, .freeExtent 4 0, .recallCopyDone 262144 [], .lenderReadRetry 262144,
    .recallGraceExpiry 4096, .tblRead 4 0, .tblWrite 4 0, .catalogueInitDone 262144, .acquireRegion 4 0, .releaseRegion 4 0,
    .orphanRegion 4 0, .regionDrainEnd 4, .openDraft 4 0, .publish 4 0, .abortDraft 4 0, .openRead 4 0, .closeRead 4 0,
    .renew 4 0, .reclaim 4 0, .addSpare 4 0, .dropRegion 4 0, .regionEventPop 4, .setRegion 4 0, .clearRegion 4 0,
    .setMember 4 0] : List Instr).all fun c => !wellFormed c) = true := by decide

theorem test_ill_formed_four :
  (([
    .removeMember 4 0, .hostLost 4 0, .purgeExtent 4 0, .snoopTimeout 2251799813685248 0, .catEventPop 4, .openContext 4 0,
    .closeContext 4 0, .contextAbort 4 0, .contextQuery 4 0, .ctxTimeout 4096, .clvEventPop 4, .gfuReadReturn 32 0,
    .gfuRunLimitExpiry 32 0, .gfuUnitDisable 4 0, .streamLoad 4 0, .streamStart 4 0, .streamStop 4 0, .streamAbort 4 0,
    .streamUnload 4 0, .streamQuery 4 0, .tileProductionStart 256, .tileHanded 256, .tileDeadline 256 0,
    .memberStallTimer 256 0, .strEventPop 4, .foldTableLoad 4 0, .foldTableDrop 4 0, .jobStart 4 0, .jobAbort 4 0,
    .jobQuery 4 0, .jobEnd 64, .cmpEventPop 4, .mendDisable 4 0, .submitCommand 4 0, .chuCancel 4 0, .chuQuery 4 0,
    .chuCommandStart 24, .chuCommandEnd 24, .chuUnitDisable 4 0, .chuEventPop 4] : List Instr).all fun c => !wellFormed c) = true :=
  by decide

theorem test_ill_formed_five :
  (([
    .refreshDue 24, .dramRetrainStep 24, .subchannelLost 24, .fillStart 4 0, .fillAbort 4, .surveyStart 4 0, .surveyAbort 4,
    .flipArm 4 0, .flipHitRead 4, .demote 4 0, .promote 4 0, .moveAbort 4 0, .moveCopyDone 64, .addRoom 4 0, .removeRoom 4 0,
    .adopt 4 0, .discardExtent 4 0, .enroll 4 0, .pageStaged 4398046511104 [], .nvmeCompletion 8 0 0, .nvmeTimeout 8 0,
    .nvmeAbortTimeout 8 0, .smartPoll 8 0 0, .nvmeAsyncEvent 8 0 [], .driveLinkDown 8, .driveReady 8 noDrive, .zoneReset 8 0,
    .driveInserted 8, .npPerstRelease 8, .driveRemoved 8, .fltEventPop 4, .disableGallery 4 0, .enableGallery 4 0, .rinse 4 0,
    .rinseAll 4 0, .rinseComplete 8, .galleryDrainEnd 8, .enterVitrine 4 0, .sealBinding 4 0, .unbindEntry 4 0] : List Instr).all fun c => !wellFormed c) = true :=
  by decide

theorem test_ill_formed_six :
  (([
    .keyInstall 3 [], .rotate 3 [], .collectionLoad 3 [], .bindObject 3 [], .reencryptPage 4398046511104, .galPortWrite 4 0 0,
    .galEventPop 4, .holdExtent 4 0, .releaseHold 4 0, .mirrorCopy 4 0, .sysTwinWrite 4 0, .resumeTwin 4 0,
    .twinWriteTimeout 512 0, .beginStandIn 4 0, .sendExtents 4 0, .sendStall 4096, .abandonTwin 4 0, .takeIdentity 4 0,
    .abortStandin 4 0, .unquarantine 4 0, .selftest 4 0, .selftestRun 80 0, .spotCheck 80 0 [], .reDisable 4 0,
    .drainBoundExpiry (.gallery 8), .hostPortReset 2 0, .functionDrainExpiry 2, .flrEventPop 4, .faultQueuePop 4 0,
    .eventHeadLatch 4 0, .getInfo 3 [], .updateBegin 3 [], .updateWrite 3 [], .updateVerify 3 [], .updateActivate 3 [],
    .updateStatus 3 [], .updateConfirm 3 [], .updateAbort 3 [], .configRead 3 [], .configWrite 3 []] : List Instr).all fun c => !wellFormed c) = true :=
  by decide

theorem test_ill_formed_seven :
  (([
    .daybookRead 3 [], .measureExtend 3 [], .coldReset 3 [], .coldResetExpiry noBoard, .getVersion 3 [], .getCapabilities 3 [],
    .negotiateAlgorithms 3 [], .getDigests 3 [], .getCertificate 3 [], .challenge 3 [], .getMeasurements 3 [],
    .spdmUnsupportedRequest 3 [], .poolWindowRead 2 0 0, .poolWindowWrite 2 0 [] [], .poolWindowAtomic 2 0 0 [],
    .corePoolAccess .load 0 [], .coreCacheUe 18 0 false, .apcHwErrorRead 4, .telCatQuery 4 0, .telClear 4 0, .censusStart 4,
    .telEventPop 4, .registerWrite 4 0 0 0, .messageStart 256, .lockLost 256, .jtagInstruction 32, .vin48Reaches39v noBoard,
    .perstDeassert 2] : List Instr).all fun c => !wellFormed c) = true := by decide

/-- Each further check of an operand refuses something. -/
theorem test_other_checks_refuse :
  (([
    .initFlit 0 [], .dataFlit 0 (List.replicate 255 0), .nullFlit 0 (List.replicate 257 0), .stallTimerExpiry 0 8,
    .policerRecolour 0 8, .shaperConfigWrite 0 512 0, .policerConfigWrite 0 1024 0 0, .policerConfigWrite 0 0 2 0,
    .rdLine 0 Msg.blank, .cpl 0 Msg.blank, .retransmitTimer 0 4096 0, .completionTimeout 0 512 0, .completionTimeout 0 0 65536,
    .recallCopyDone 0 [[]], .forcedRunDefer 0 (2 ^ 26), .snoopTimeout 0 64, .gfuReadReturn 0 65536, .gfuUnitDisable 0 32, .tileDeadline 0 16777216,
    .memberStallTimer 0 64, .mendDisable 0 16, .chuUnitDisable 0 24, .nvmeCompletion 0 0 32768, .smartPoll 0 256 0,
    .smartPoll 0 0 256, .driveReady 0 noDrive, .zoneReset 0 65536, .galPortWrite 0 32 0, .selftestRun 0 4, .spotCheck 0 80 [],
    .spotCheck 0 1 [80], .reDisable 0 64, .hostPortReset 0 5, .faultQueuePop 0 8, .eventHeadLatch 0 10,
    .getInfo 0 (List.replicate 4081 0), .getVersion 0 [0, 0, 0], .poolWindowRead 0 0 0, .poolWindowRead 0 4095 2] :
      List Instr).all fun c => !wellFormed c) = true := by decide +kernel

/-- So do the checks of boards, samples, memories, drains, drives and core accesses. -/
theorem test_structured_checks_refuse :
  (([
    .poolWindowWrite 0 0 [] [], .poolWindowWrite 0 0 [1] [], .poolWindowAtomic 0 3 0 [], .poolWindowAtomic 0 0 0 [1],
    .corePoolAccess .load 0 [], .corePoolAccess .store 127 [1, 2], .corePoolAccess .add 2 [1, 2, 3, 4],
    .corePoolAccess .cas 0 [1, 2, 3, 4], .coreCacheUe 0 0 false, .coreCacheUe 18 0 false, .registerWrite 0 0 0 0,
    .registerWrite 0 0 9 0, .internalMemoryUe (.cellPayload 257 0), .internalMemoryUe (.reduction 4096 0),
    .internalMemoryUe (.mending 256 0), .drainBoundExpiry (.context 4096), .drainBoundExpiry (.stream 256),
    .drainBoundExpiry (.gfuUnit 32), .drainBoundExpiry (.reduceEngine 64), .drainBoundExpiry (.mendEngine 16),
    .drainBoundExpiry (.channelUnit 24), .drainBoundExpiry (.function 2)] : List Instr).all fun c => !wellFormed c) = true := by
  decide +kernel

/-- A read request of one line. -/
def readMsg : Msg := { Msg.blank with op := 0x01, vc := 0, len := 8, srcPart := 2, srcPort := 3, tag := 9, epoch := 1, addr := 0x80 }

/-- A store of one line with its 128 bytes. -/
def writeMsg : Msg := { readMsg with op := 0x03, len := 40, data := (List.range 128).map (BitVec.ofNat 8) }

/-- Well-formed commands of several kinds are taken. -/
theorem test_well_formed :
  (([
    .rdLine 255 readMsg, .wrLine 0 writeMsg, .vinOvervoltage 131071, .corePoolAccess .cas 16 (List.replicate 16 0),
    .poolWindowAtomic 1 2 4088 (List.replicate 8 0), .hostPortReset 1 4, .revoke 3 0, .registerWrite 0 2 2 0,
    .bufferAdmission 256 7] : List Instr).all wellFormed) = true := by decide +kernel

/-! ### Worked examples of the spec -/

/-- The worked example of R22: local offset 0x3_1000_2E40 lies on MC02 at 0x20AA_AC40, and the next chunk on MC00. -/
theorem test_channel_hash_example :
    interleaveHash 0x310002E40 = (2, 0x20AAAC40) ∧ (interleaveHash (0x310002E40 + 512)).1 = 0 := by decide +kernel

/-- The worked example of R23: the request from logical port 3 to that offset on T12 has h = 0xD. -/
theorem test_path_hash_example :
    pathHash 0x3 { readMsg with addr := BitVec.ofNat 58 (12 * 2 ^ 46 + 0x310002E40) } = 0xD := by decide +kernel

/-- The worked example of chapter 18: FPT_LINK_CTRL of FP065 and TRF_Q_CFG_n of queue 7 on logical port 130. -/
theorem test_register_examples :
    (regAt 0x482000).map (·.reg) = some (.linkCtrl 65) ∧ (regAt 0x618238).map (·.reg) = some (.qCfg 4167) ∧
    (regAt 0x61823C).map (·.reg) = some (.qCfg 4167) ∧ regAt 0x2000000 = none := by decide +kernel

/-- The fold table of the worked example after R250: five exponents, ESC of 4 bits. -/
def exampleTable : FoldTable :=
  { gen := 1, kind := 1, syms := [(0x7A, 2), (0x7B, 2), (0x7C, 2), (0x7D, 3), (0x79, 4)], escLen := 4 }

/-- Its codewords: 00, 01, 10, 110, 1110 and ESC 1111. -/
theorem test_codewords_example : (codebook exampleTable).map (fun c => (c.2.1, c.2.2)) =
    [(2, 0), (2, 1), (2, 2), (3, 6), (4, 14), (4, 15)] := by decide +kernel

/-- Its three values in section B: 0x37, 0xC2, 0x80, of 17 bits. -/
theorem test_section_b_example :
    bytesOfBits 3 ([0x3D48, 0xBE80, 0x42C5].flatMap (codeBits 1 (codebook exampleTable))) = [0x37, 0xC2, 0x80] ∧
    ([0x3D48, 0xBE80, 0x42C5].flatMap (codeBits 1 (codebook exampleTable))).length = 17 := by decide +kernel

/-- The three values go out in the RAW form, whose 16 bytes are fewer than 24, and a stream that holds them is read back (R244, R246). -/
theorem test_small_block_is_raw : (encodeBlock exampleTable 0 [0x3D48, 0xBE80, 0x42C5]).length = 16 := by decide +kernel

/-- The leaf context of the worked example after R182 (BF16, 128 shards, window 16,384, SPREAD): 272 × 4 KiB of scratch in each bay. -/
theorem test_scratch_example :
    ctxAlloc [2 * 2 ^ 6 + 8 * 2 ^ 20 + 128 * 2 ^ 32, 131072 + 16384 * 2 ^ 20] tray = (List.range 8).map fun b => (b, 1088) := by
  decide +kernel

/-- A message of `n` data bytes on VC 2 that wakes queue 3 of port 0. -/
def waking (n : Nat) : Queued :=
  { msg := { Msg.blank with op := 0x41, vc := 2, len := BitVec.ofNat 7 (n / 4) }, input := 0, port := 0, queue := 3, space := .shared,
    left := 0, tag := none, copy := false, wakes := true, shared := none, seen := [] }

/-- The worked example of R362: 272 bytes and an overhead of 8 at weight 32,768 are a tag step of 560. -/
theorem test_tag_step_example :
    tagOf (waking 272) { tray with sw := { coldSwitch defaultRecord with
      portCfg := [(0, { PortCfg.reset with overhead := 8 })], qcfg := [(3, { QueueCfg.reset with weight := 32768 })] } } = 560 := by
  decide +kernel

/-- Merforoth's default record passes the checks of R480 and R481 and reads back from its bytes (R480, R565). -/
theorem test_default_record : recordOk defaultRecord = true ∧ recordOfBytes (recordBytes defaultRecord) = defaultRecord := by
  decide +kernel

/-- The epoch after 0xFFFE is 1 (R393). -/
theorem test_epoch_wraps : nextEpoch 0xFFFE = 1 ∧ nextEpoch 1 = 2 := by decide

/-- Counters at their limits (R505): WRAP64 goes to 0, SAT32 sticks and sets OVF. -/
theorem test_counter_limits :
    bumpCounter (ctrId 2 0 0) 1 { value := 2 ^ 64 - 1, ovf := false } = { value := 0, ovf := false } ∧
    bumpCounter (ctrId 2 0 64) 1 { value := 0xFFFFFFFF, ovf := false } = { value := 0xFFFFFFFF, ovf := true } := by decide +kernel

/-- What a step from a state with that one command leaves, if it answers a next state. -/
def after (c : Instr) (s : State) : Option State :=
  match step { s with pending := [c] } with
  | .next t => some t
  | _ => none

/-- ISLAND_POWER_UP powers the island alone, and the core die stays dark (R551). -/
theorem test_island_power_up :
    (after .islandPowerUp State.reset).map (fun t => (t.part.cur.power, t.pending)) = some (.islandOnly, []) := by decide +kernel

/-- VIN48 below 38.0 V is part loss with cause 0x10 (R545, R564). -/
theorem test_undervoltage :
    (after .vinUndervoltage (machine tray)).map (fun t => (t.part.cur.power, t.part.cur.haltCause)) = some (.islandOnly, 0x10) := by
  decide +kernel

/-- VIN48 above the transient rating of R556 stops the machine. -/
theorem test_damage : after (.vinOvervoltage 80001) (machine tray) = none := by decide +kernel

/-- SILU(1) = 0.7310586 and GELU(1) = 0.8411920 (R285, by hand): the nearest pattern is allowed, one 16 ulp away is not. -/
theorem test_activation_bound :
    actAllowed 3 false 1 0 0x3F3B26A8 = true ∧ actAllowed 3 false 1 0 0x3F3B26B8 = false ∧
    actAllowed 2 false 1 0 0x3F57585C = true ∧ actAllowed 2 false 1 0 0x3F57586C = false := by decide +kernel

/-- The bytes 0, 1, 2 and on. -/
def counting (n : Nat) : List Byte := (List.range n).map (BitVec.ofNat 8)

/-- SHAKE256 of nothing, as FIPS 202's published example has it (R397, R476). -/
theorem test_shake256 : shake256 8 [] = [0x46, 0xB9, 0xDD, 0x2B, 0x0B, 0xA8, 0x8D, 0x13] := by unfold shake256; decide +kernel

/-- AES-256 of a block, by appendix C.3 of FIPS 197 (R392). -/
theorem test_aes256 : aesBlock (roundKeys (counting 32)) ((List.range 16).map (17 * ·)) =
    [0x8E, 0xA2, 0xB7, 0xCA, 0x51, 0x67, 0x45, 0xBF, 0xEA, 0xFC, 0x49, 0x90, 0x4B, 0x49, 0x60, 0x89] := by decide +kernel

/-- The keys of vector 10 of IEEE 1619: the digits of e and of pi. -/
def xtsKey : Nat := ofLe [
  0x27, 0x18, 0x28, 0x18, 0x28, 0x45, 0x90, 0x45, 0x23, 0x53, 0x60, 0x28, 0x74, 0x71, 0x35, 0x26,
  0x62, 0x49, 0x77, 0x57, 0x24, 0x70, 0x93, 0x69, 0x99, 0x59, 0x57, 0x49, 0x66, 0x96, 0x76, 0x27,
  0x31, 0x41, 0x59, 0x26, 0x53, 0x58, 0x97, 0x93, 0x23, 0x84, 0x62, 0x64, 0x33, 0x83, 0x27, 0x95,
  0x02, 0x88, 0x41, 0x97, 0x16, 0x93, 0x99, 0x37, 0x51, 0x05, 0x82, 0x09, 0x74, 0x94, 0x45, 0x92]

/-- The first two blocks of that vector, data unit 0xFF (R392). -/
theorem test_xts : (xtsEncrypt xtsKey 0xFF 0 (counting 128)).take 32 =
    [0x1C, 0x3B, 0x3A, 0x10, 0x2F, 0x77, 0x03, 0x86, 0xE4, 0x83, 0x6C, 0x99, 0xE3, 0x70, 0xCF, 0x9B,
     0xEA, 0x00, 0x80, 0x3F, 0x5E, 0x48, 0x23, 0x57, 0xA4, 0xAE, 0x12, 0xD4, 0x14, 0xA3, 0xE6, 0x3B] := by
  unfold xtsEncrypt; decide +kernel

/-! ### Hypotheses of the obligations: the machine as a whole -/

theorem test_meets_TheQueueIsConsumed :
    State.reset.pending = [] ∧ (∃ t, step { State.reset with pending := [.jtagInstruction 0, .daybookFlush] } = .next t) :=
  ⟨rfl, _, rfl⟩

theorem test_meets_StarvedRegionsStayNoted :
    starvedNoted State.reset.part ∧ ∃ t, step { State.reset with pending := [.islandPowerUp] } = .next t :=
  ⟨by unfold starvedNoted; decide +kernel, _, rfl⟩

theorem test_meets_PartsAtRestStay :
    (firstPump (pumps Part.reset) Part.reset = none ∧ starvedNoted Part.reset) ∧ firstPump (pumps tray) tray = none ∧ starvedNoted tray := by
  unfold starvedNoted; decide +kernel

/-- A response with every field at its largest value. -/
def fullResponse : Msg :=
  { Msg.blank with op := 0x81, vc := 7, len := 36, gallery := 7, srcPart := 0xFFF, dstPart := 0xFFF, dstPort := 0x1FF, status := 15,
                   resync := true, tag := 0xFFFF, sseq := 0xFFFFFF, aux := 0xFFFFFF, data := List.replicate 128 0xFF }

/-- A request with every field at its largest value. -/
def fullRequest : Msg :=
  { Msg.blank with op := 0x01, vc := 7, len := 8, gallery := 7, srcPart := 0xFFF, srcPort := 0x1FF, dstPart := 0xFFF, dstPort := 0x1FF,
                   tag := 0xFFFF, epoch := 0xFFFF, sseq := 0xFFFFFF, ord := true, syn := true, retx := true, after := true,
                   addr := BitVec.allOnes 58, na := true, oparg := BitVec.allOnes 64 }

theorem test_meets_MessagesCrossTheWire : onWire readMsg = true ∧ onWire fullRequest = true ∧ onWire fullResponse = true := by
  decide +kernel

theorem test_meets_RequestHeaderHasItsLayout :
    longHeader (msgClass fullRequest) = true ∧ onWire fullRequest = true := by decide +kernel

theorem test_meets_ResponseHeaderHasItsLayout :
    longHeader (msgClass fullResponse) = false ∧ onWire fullResponse = true := by decide +kernel

theorem test_meets_FlitsAreChecked :
    2 ^ 96 - 1 < 2 ^ 96 ∧ (List.replicate 236 (0xFF : Byte)).length = 236 ∧ (255 : Nat) < 256 ∧ (7 : Nat) < 8 := by
  decide +kernel

theorem test_meets_MemoryReadsBack :
    (Memory.wf { cells := [(3, 7), (9, 1)], attrs := [], fills := [] }) = true ∧ (3 < 4 ∧ 4 + [(1 : Byte)].length ≤ 5) := by
  decide +kernel

theorem test_meets_ChannelHashIsOneToOne : (23 : Nat) < 24 ∧ interleaveHash 0x310002E40 = interleaveHash 0x310002E40 := ⟨by decide, rfl⟩

/-- An atomic with 8-byte operands at an address in a line. -/
def atomicMsg (op : Byte) (isSigned : Bool) (addr : Nat) : Msg :=
  { Msg.blank with op := op, len := 10, oparg := if isSigned then 3 else 1, addr := BitVec.ofNat 58 addr, data := List.replicate 16 5 }

theorem test_meets_AtomicsTouchTheirOperand :
    (∀ op ∈ ([0x08, 0x09, 0x0A, 0x0B] : List Byte), ∀ b ∈ [true, false], ∀ addr ∈ [0, 120],
      isAtomic (atomicMsg op b addr).op.toNat = true ∧ bitAt (atomicMsg op b addr).oparg.toNat 1 = b ∧
      (atomicMsg op b addr).addr.toNat % 128 % 8 = 0) ∧ (List.replicate 128 (0 : Byte)).length = 128 := by decide +kernel

theorem test_meets_IntegerReductionsAreExact : (8 = 8 ∨ 8 = 9) ∧ (9 = 8 ∨ 9 = 9) ∧ 2 ^ 32 - 1 < 2 ^ 32 ∧ 2 ^ 31 < 2 ^ 32 :=
  by decide

theorem test_meets_CountersStopAtTheirLimits :
    (ctrIsWrap (ctrId 2 0 0) = true ∧ 2 ^ 64 - 1 < 2 ^ 64) ∧
    (ctrIsWrap (ctrId 2 0 64) = false ∧ ctrIsSat (ctrId 2 0 64) = true ∧ 0xFFFFFFFF ≤ 0xFFFFFFFF) ∧
    (ctrIsWrap (ctrId 2 0 128) = false ∧ ctrIsSat (ctrId 2 0 128) = false ∧ 0xFFFF ≤ 0xFFFF) := by decide +kernel

theorem test_meets_BusyCommandsAreIgnored :
    (∀ q ∈ ([.ext, .region, .tbl, .cat, .clv, .str, .slot, .job, .chu, .flt, .gal, .flr] : List SeqName),
      let p := setSeq q { CmdSeq.reset with busy := [true, false, false, false] } tray
      viewOpen 0 p = true ∧ (seqOf q p).busy.getD 0 false = true) ∧
    (let p := { tray with cur := { tray.cur with phase := 13 } }
     viewOpen 0 p = true ∧ blockReady (seqBlock .ext) p = false) := by decide +kernel

/-! ### Hypotheses of the obligations: pool, regions and catalogue -/

/-- A loan of one extent that its lender recalls, and extent 3 LIVE. -/
def recalling : Machine.Part :=
  onPool (fun b => { b with loans := [(0, { Loan.blank with lender := 2, count := 1, state := .recalling, grace := 5 })] })
    (withExtents [(3, extent .live .owned), (0x3000, extent .recalling .owned)] tray)

theorem test_meets_ExtentCommandsAct :
    canCommand .ext 0 recalling ∧ (let t := took .ext 0 recalling
    (noSuchExtent 3 t = false ∧ (extentAt 3 t).state = .live) ∧
    (noSuchExtent 0x3000 t = false ∧ noSuchExtent 4 t = false ∧ (extentAt 0x3000 t).state = .recalling ∧
      (loanOf 0x3000 t).any (fun l => l.2.state = .recalling) ∧ (t.pool.copies.any fun c => c.src = 0x3000) = false ∧
      isDramHome 4 t = true ∧ (extentAt 4 t).state = .free ∧ inUse 4 t = false) ∧
    inLoanWindow 0x3000 = true ∧
    ((extentAt 3 t).cls = .owned ∧ extBusy 3 t = false ∧ inFlashWindow 3 = false)) := by unfold canCommand; decide +kernel

/-- A route of sixteen ports as its four words. -/
def routeData : Machine.Part :=
  onPool (fun b => { b with tblData := lset b.tblData 0 [0, 0, 0xFEDCBA9876543210, 16 + 256, 0, 0, 0, 0] }) tray

theorem test_meets_TableWindowReadsAndWrites :
    canCommand .tbl 0 routeData ∧ (let t := took .tbl 0 routeData
    (5 ≤ 5 ∧ 12287 < tableSize 5 t ∧ 262143 < tableSize 0 t) ∧ (1048575 < tableSize 1 t ∧ isTray t = true) ∧
    (31 < tableSize 3 t ∧ routeOk false ((t.pool.tblData.getD 0 []).map (·.toNat)) = true)) := by unfold canCommand; decide +kernel

/-- Object 5, of class owned, with an owner. -/
def ownedRegion (o : List OwnerEntry) : Machine.Part :=
  onRegions (fun r => { r with obj := [5, 0, 0, 0], owners := o }) (withExtents [(3, extent .live .owned)] tray)

/-- The owner of object 5: agent 0x103 of part 7. -/
def owner : OwnerEntry := { object := 5, part := 7, port := 0x103, owned := true, lastFence := none }

theorem test_meets_OwnershipCommandsAct :
    (canCommand .region 0 (ownedRegion []) ∧ (let t := took .region 0 (ownedRegion [])
      regionRefusal (t.regions.obj.getD 0 0) .owned t = 0 ∧ ownerOf 5 t = none ∧ t.regions.owners.length < 16384)) ∧
    (canCommand .region 0 (ownedRegion [owner]) ∧ (let t := took .region 0 (ownedRegion [owner])
      let cmd : Word64 := BitVec.ofNat 64 (7 * 2 ^ 8 + 0x103 * 2 ^ 20)
      regionRefusal (t.regions.obj.getD 0 0) .owned t = 0 ∧ ownerOf 5 t = some owner ∧ owner.owned = true ∧
      owner.part = field cmd.toNat 19 8 ∧ owner.port = field cmd.toNat 28 20)) := by unfold canCommand; decide +kernel

/-- A region of editions with these slots, of an object that part `home` issued. -/
def edition (object : Word64) (slots : List SlotState) (leases : List Lease) : Machine.Part :=
  onRegions (fun r =>
    { r with
      obj := [object, 0, 0, 0], leases := leases
      editions := [{ object := object, slots := slots.map fun s => { SlotRec.blank with state := s, serial := 1 }, writerPart := 0,
                     writerPort := 0, nextSerial := 2, maps := [] }] })
    (withExtents [(3, { extent .live .edition with object := object })] tray)

/-- Can the region commands be given on that part, and is the object one of editions there? -/
def editionsReady (p : Machine.Part) : Bool :=
  viewOpen 0 p && blockReady 5 p && p.regions.seq = CmdSeq.reset &&
  decide (regionRefusal (p.regions.obj.getD 0 0) .edition (took .region 0 p) = 0)

theorem test_meets_EditionCommandsAct_open :
    (let p := edition 5 [.free, .current] []
     let t := took .region 0 p
     editionsReady p = true ∧ (editionOf 5 t).any (fun r => slotIn r .draft = none && slotIn r .free = some 0) ∧
     isIssuer 5 t = true ∧ t.flt.moves = [] ∧ ((extentsOf 5 t).any fun p => p.2.place = .flash) = false ∧ t.regions.leases.length < 65536) ∧
    (let p := edition (BitVec.ofNat 64 (9 * 2 ^ 52)) [.free, .current] []
     let object : Word64 := p.regions.obj.getD 0 0
     let t := took .region 0 p
     editionsReady p = true ∧ isIssuer object t = false ∧ (editionOf object t).any (fun r => (slotAt r 0).state = .free)) := by
  decide +kernel

theorem test_meets_EditionCommandsAct_slots :
    (let t := took .region 0 (edition 5 [.draft, .free] [])
     editionsReady (edition 5 [.draft, .free] []) = true ∧
     (editionOf 5 t).any (fun r => (slotAt r 0).state = .draft && slotIn r .current = none)) ∧
    (let t := took .region 0 (edition 5 [.retired, .current] [])
     editionsReady (edition 5 [.retired, .current] []) = true ∧
     (editionOf 5 t).any (fun r => (slotAt r 0).state = .retired && (slotAt r 0).readers = 0) ∧ slotMoving 5 0 t = false) ∧
    (let t := took .region 0 (edition 5 [.draft, .current] [])
     editionsReady (edition 5 [.draft, .current] []) = true ∧
     (editionOf 5 t).any (fun r => (slotAt r 0).state = .draft && slotIn r .current = some 1)) ∧
    (let t := took .region 0 (edition 5 [.current] [])
     editionsReady (edition 5 [.current] []) = true ∧ ownerOf 5 t = none ∧
     (editionOf 5 t).any (fun r => (slotAt r 0).state = .current && (slotAt r 0).readers = 0 && r.slots.length = 1)) ∧
    (let t := took .region 0 (edition 5 [.current] [])
     isDramHome 4 t = true ∧ isReserved 4 t = false ∧ (extentAt 4 t).state = .free ∧ inUse 4 t = false) := by decide +kernel

/-- RENEW's two cases: a part that has issued an object, and one that has issued none. -/
theorem test_meets_EditionCommandsAct_renew :
    (let p := onPool (fun b => { b with objects := [(5, ObjectEntry.blank)] }) tray
     canCommand .region 0 p ∧ (took .region 0 p).pool.objects ≠ []) ∧
    (canCommand .region 0 tray ∧ (took .region 0 tray).pool.objects = []) := by unfold canCommand; decide +kernel

theorem test_meets_EditionCommandsAct_leases :
    let p := edition 5 [.current] [{ part := 7, port := 3, object := 5, slot := 0, expiry := 9 }]
    let t := took .region 0 p
    editionsReady p = true ∧ isIssuer 5 t = true ∧ (editionOf 5 t).any (fun r => slotIn r .current = some 0) ∧
    (t.regions.leases.find? fun l => l.object = 5 && l.slot = 0 && l.part = 7 && l.port = 3).isSome := by decide +kernel

/-- A part whose catalogue register names object 6, with these regions, members and an extent of class catalogue. -/
def catalogued (regions : List CatRegion) (members : Table CatMember) (x : ExtState) : Machine.Part :=
  onCatalogue (fun c => { c with obj := [6, 0, 0, 0], cmdExt := [3, 0, 0, 0], regions := regions, members := members })
    (withExtents [(3, { extent x .catalogue with object := 6 })] tray)

/-- A region of object 6 under group 255. -/
def catRegion : CatRegion := { object := 6, group := 255, revert := false, predMode := .home, predInit := 0, nearest := false }

theorem test_meets_CatalogueCommandsAct :
    (let p := catalogued [] [] .live
     let t := took .cat 0 p
     let cmd : Word64 := BitVec.ofNat 64 (255 * 2 ^ 8 + 127 * 2 ^ 17 + 2 ^ 47)
     canCommand .cat 0 p ∧ isTray p = true ∧ memberWalks (withOp 3 3 cmd) p = false ∧ field cmd.toNat 48 47 = 1 ∧
     catRegionOf (t.cat.obj.getD 0 0) t = none ∧ t.cat.regions.length < 512 ∧
     field cmd.toNat 24 17 < t.cat.groupSize ∧ catMember 255 127 t = none ∧
     (extentAt 3 t).cls = .catalogue ∧ (extentAt 3 t).state = .live) ∧
    (let p := catalogued [catRegion] [(255 * 256 + 127, { part := 7, port := 3, nearAt := false, state := .active })] .lost
     let t := took .cat 0 p
     canCommand .cat 0 p ∧ (catRegionOf 6 t).isSome = true ∧ catRegionLive 6 t = false ∧
     (catMember 255 127 t).any (fun m => m.state = .active)) := by unfold canCommand; decide +kernel

/-! ### Hypotheses of the obligations: engines and memory services -/

/-- A reduction context in a state. -/
def context (x : CtxState) (desc : List Nat) (chunks : Table Chunk) : Context :=
  { desc := desc, state := x, gen := 0, base := 0, absent := [], chunks := chunks, retired := [], done := [], units := [],
    headLimit := none, alloc := [] }

/-- A descriptor that OPEN takes: an all-reduce of FP32 over 4,096 shards and one chunk, window 64, group 5. -/
def ctxDesc : List Nat := [4096 * 2 ^ 32, 1 + 64 * 2 ^ 20 + 64 * 2 ^ 36, 1000 + 5 * 2 ^ 20, 0, 0, 0, 0, 0]

/-- A part with contexts, a valid group 5, and that descriptor in view 0. -/
def reducing (xs : Table Context) : Machine.Part :=
  onCollectives (fun b =>
    { b with descs := lset b.descs 0 ctxDesc, groups := [(5, BitVec.ofNat 64 (1 * 2 ^ 16 + 2 ^ 29))], contexts := xs }) tray

theorem test_meets_ContextCommandsAct :
    (canCommand .clv 0 (reducing []) ∧ (let t := took .clv 0 (reducing [])
      let d := t.clv.descs.getD 0 []
      ctxAt 4095 t = none ∧ ctxValid d = true ∧ galleryActive (ctxGallery d) t = true ∧ ctxGroupOk d t = true ∧
      allocOk (ctxAlloc d t) t = true)) ∧
    (∀ x ∈ [CtxState.opened, .running, .closing, .done, .failed],
      let p := reducing [(7, context x ctxDesc [])]
      viewOpen 0 p = true ∧ blockReady 7 p = true ∧ p.clv.seq = CmdSeq.reset ∧
      (ctxAt 7 (took .clv 0 p)).any (fun c => c.state = x)) := by unfold canCommand; decide +kernel

/-- Member 63 of a stream. -/
def strMember : StreamMember := { index := 63, part := 0, port := 0, joined := true, first := 0, released := 0 }

/-- A weight stream in a state, with one member and these tiles; its program has four slots. -/
def aStream (x : StreamState) (tiles : List TileRun) (next : Nat) : Stream :=
  { state := x, gallery := 0, base := 0, epoch := 0, handle := 0, header := [4 * 2 ^ 56, 0, 0, 0], sources := [], descs := [],
    members := [strMember], pass := 0, record := 0, nextTile := next, tiles := tiles, t0 := 0, lastHand := none, starting := false, recLine := none,
    recRead := none, fold := none, residual := none, badPass := false, latePass := 0, handed := 0, lateNew := [], view := none }

/-- A part with that stream under number 255. -/
def streaming (x : Stream) : Machine.Part := onStreaming (fun b => { b with streams := [(255, x)] }) tray

theorem test_meets_StreamCommandsAct :
    (canCommand .str 0 tray ∧ (let t := took .str 0 tray
      strAt 255 t = none ∧ t.str.progAddr.getD 0 0 % 2 ^ 58 % 128 = 0)) ∧
    (∀ x ∈ [StreamState.loaded, .failed, .running, .stopping],
      let p := streaming (aStream x [] 0)
      viewOpen 0 p = true ∧ blockReady 9 p = true ∧ p.str.seq = CmdSeq.reset ∧
      (strAt 255 (took .str 0 p)).any (fun s => s.state = x && s.members ≠ [] && galleryActive s.gallery (took .str 0 p))) := by unfold canCommand; decide +kernel

/-- A job on a fold table in a state. -/
def foldJob (x : JobState) (go : Bool) (desc : List Nat) : FoldJob :=
  { unit := 0, turn := .idle, desc := desc, state := x, status := 0, written := 0, phase := .values, go := go, budget := 0, ask := none, reads := [], bytes := [],
    taken := 0, blocks := 0, out := [], at_ := 128, first := [], hist := [], writes := [], reader := none }

/-- A descriptor that folds 128 BF16 values of an object by table 1 of slot 0. -/
def jobDesc : List Nat := [1 + 1 * 2 ^ 2 + 1 * 2 ^ 8 + 128 * 2 ^ 24, 0x1000, 0x2000, 0x10000, 0, 0]

/-- A part whose slot 0 holds the example's table, as NEW and as OLD, and which runs these jobs. -/
def folding (old : Option FoldTable) (jobs : Table FoldJob) : Machine.Part :=
  onCompression (fun b =>
    { b with
      slots := [(0, { FoldSlot.blank with old := old, new := some exampleTable })], jobs := jobs,
      jobDescs := lset b.jobDescs 0 jobDesc }) tray

theorem test_meets_FoldTableCommandsAct :
    canCommand .slot 0 (folding none []) ∧ (let t := took .slot 0 (folding none [])
    galleryActive (foldSlot 0 t).gallery t = true ∧ holdsGen 255 (foldSlot 0 t) = false ∧ (foldSlot 0 t).old = none ∧
    holdsGen 1 (foldSlot 0 t) = true ∧ tableRefs 0 1 t = 0) ∧
    (let t := took .slot 0 (folding (some { exampleTable with gen := 2 }) [(0, foldJob .running false jobDesc)])
     tableRefs 0 1 t ≠ 0 ∧ holdsGen 1 (foldSlot 0 t) = true) ∧
    (let t := took .slot 0 (folding (some { exampleTable with gen := 1 }) [(0, foldJob .running false jobDesc)])
     (foldSlot 0 t).old.any (fun o => tableRefs 0 o.gen t ≠ 0) ∧ holdsGen 2 (foldSlot 0 t) = false) := by
  unfold canCommand; decide +kernel

theorem test_meets_JobCommandsAct :
    canCommand .job 0 (folding none []) ∧ (let t := took .job 0 (folding none [])
    let d := t.cmp.jobDescs.getD 0 []
    (jobAt 63 t).map (·.state) ≠ some .running ∧ jobDescOk d = true ∧ galleryActive (jdGallery d) t = true ∧ jdFold d = true ∧
    (slotTable (jdSlot d) (jdGen d) t).any (fun f => f.kind = jdKind d) ∧ slotGallery (jdSlot d) t = jdGallery d) ∧
    (∀ go ∈ [false, true], (jobAt 63 (took .job 0 (folding none [(63, foldJob .running go jobDesc)]))).any fun x =>
      x.state = .running && x.go = go) := by unfold canCommand; decide +kernel

/-- A fill of extent 3 that view 0 has started. -/
def fillRun : FillRun :=
  { view := 0, poison := false, background := false, firstLine := 3 * linesPerExtent, lines := linesPerExtent, pattern := 0, early := none, paid := fillCost linesPerExtent }

theorem test_meets_FillCommandsAct :
    (let cmd : Word64 := BitVec.ofNat 64 (3 * 2 ^ 8 + 1 * 2 ^ 32)
     let t := took .fill 0 tray
     canCommand .fill 0 tray ∧ isTray tray = true ∧ t.dram.fill = none ∧ fcCount (withOp 1 1 cmd) = 1 ∧
     fillCheck (withOp 1 1 cmd) (t.dram.fillLines.getD 0 0) t = 0 ∧
     fillWaits (3 * linesPerExtent) linesPerExtent t = false ∧ canSpend (fillClass (bitAt cmd.toNat 3)) (fillCost linesPerExtent) t = true ∧
     canSpend (fillClass (bitAt cmd.toNat 3)) (fillCost linesPerExtent) (took .fill 0 (paced 0 tray)) = false) ∧
    (let p := onDram (fun d => { d with fill := some fillRun }) tray
     viewOpen 0 p = true ∧ blockReady 11 p = true ∧ isTray p = true ∧ p.dram.fill = some fillRun ∧ fillRun.view = 0) := by
  unfold canCommand; decide +kernel

/-- A survey of the last backed extent. -/
def surveyRun : SurveyRun := { view := 0, base := 6143 * 2 ^ 28, len := 2 ^ 28, repair := true, skipFree := false, early := none, paid := surveyCost (2 ^ 28) }

theorem test_meets_SurveyCommandsAct :
    (let p := onDram (fun d => { d with surveyBase := [6143 * 2 ^ 28, 0, 0, 0], surveyLen := [2 ^ 28, 0, 0, 0] }) tray
     let t := took .survey 0 p
     canCommand .survey 0 p ∧ isTray p = true ∧ t.dram.survey = none ∧ t.dram.surveyBase.getD 0 0 % 128 = 0 ∧
     t.dram.surveyLen.getD 0 0 % 128 = 0 ∧ isDramHome ((6143 * 2 ^ 28 + 2 ^ 28 - 1) / 2 ^ 28) t = true ∧
     canSpend 8 (surveyCost (2 ^ 28)) t = true ∧ canSpend 8 (surveyCost (2 ^ 28)) (paced 0 t) = false) ∧
    (let p := onDram (fun d => { d with survey := some surveyRun }) tray
     viewOpen 0 p = true ∧ blockReady 11 p = true ∧ isTray p = true ∧ p.dram.survey = some surveyRun ∧ surveyRun.view = 0) := by
  unfold canCommand; decide +kernel

/-- A channel-unit descriptor: 32 FP32 elements of extent 3, A + B into D. -/
def chuDescOk : List Nat := [3 * 2 ^ 14 + 32 * 2 ^ 32, 0 + 128 * 2 ^ 32, 256, 0, 0, 0, 0, 0]

/-- A channel-unit command on unit 3. -/
def chuCmd (running : Bool) : ChuCmd :=
  { unit := 3, ticket := 0xFFFF, desc := chuDescOk, done := 0, poisoned := 0, firstBad := 0, status := stOK, running := running,
    ended := false, cancelled := false, paid := chuCost chuDescOk }

/-- A part whose extent 3 takes channel-unit commands, with these queued. -/
def channelUnits (cmds : List ChuCmd) : Machine.Part :=
  onChannelUnits (fun b => { b with descs := lset b.descs 0 chuDescOk, cmds := cmds })
    (withExtents [(3, { extent .live .owned with place := .channelLocal, opset := 1 })] tray)

theorem test_meets_ChannelUnitCommandsAct :
    (canCommand .chu 0 (channelUnits []) ∧
      (let t := took .chu 0 (channelUnits []); submitResult (t.chu.descs.getD 0 []) t = 0)) ∧
    (canCommand .chu 0 (channelUnits [chuCmd false]) ∧
      (let t := took .chu 0 (channelUnits [chuCmd false])
       (t.chu.cmds.find? fun c => c.unit = 3 && c.ticket = 0xFFFF) = some (chuCmd false) ∧ (chuCmd false).running = false)) := by
  unfold canCommand; decide +kernel

/-- A drive that is READY, with 1 TiB zones. -/
def readyDrive : Drive :=
  { Drive.blank with state := .ready, present := true, perst := false, nzones := 64, zcap := 65600 * 8, zsize := 65600 * 8 }

/-- A part with drive 0 READY and drive 1 UNENROLLED. -/
def flashed (f : Flash → Flash) (xs : Table Extent) : Machine.Part :=
  onFlash (fun b => f { b with drives := readyDrive :: { readyDrive with state := .unenrolled } :: b.drives.drop 2 }) (withExtents xs tray)

/-- The BIND record of extent 0x4000. -/
def bindRec : JRec :=
  { kind := .bind, zone := 2, ext := 0x4000, lba := 0, object := 5, ordinal := 0, gallery := 0, cls := 0, opset := 0, anyPoison := false,
    twinValid := false, twinPart := 0, serial := 0, slot := 0, keyEpoch := 1, seq := 1 }

/-- A move of extent 3 to extent 0x4000. -/
def aMove (demote : Bool) : Move :=
  { num := 63, demote := demote, src := if demote then 3 else 0x4000, dest := if demote then 0x4000 else 3, drive := 0, zone := 2,
    bg := false, slot := 0, serial := 0, revoking := false, copied := false, next := 0, start := 0, bad := [], paid := moveCost }

theorem test_meets_FlashCommandsAct_moves :
    (let p := flashed id [(3, extent .live .owned)]
     let t := took .flt 0 p
     canCommand .flt 0 p ∧ isTray p = true ∧ demoteResult 3 0x4000 2 t = 0) ∧
    (let p := flashed (fun b => { b with bound := [(0x4000, bindRec)] }) [(0x4000, { extent .live .owned with place := .flash })]
     let t := took .flt 0 p
     canCommand .flt 0 p ∧ promoteResult 0x4000 3 t = 0 ∧ inFlashWindow 0x4000 = true ∧ (extentAt 0x4000 t).state = .live ∧
     isMoveDest 0x4000 t = false) ∧
    (let p := flashed (fun b => { b with moves := [aMove true], cmdArg := [63 * 2 ^ 16, 0, 0, 0] }) []
     let t := took .flt 0 p
     canCommand .flt 0 p ∧ (moveNum (field (t.flt.cmdArg.getD 0 0) 21 16) t).isSome = true) := by unfold canCommand; decide +kernel

theorem test_meets_FlashCommandsAct_rooms :
    (let p := flashed id []
     let t := took .flt 0 p
     canCommand .flt 0 p ∧ 5823 < interleavedExtents t ∧ isReserved 5823 t = false ∧ (extentAt 5823 t).state = .free ∧
     inUse 5823 t = false ∧ t.flt.room.length < 1024 ∧ (drive (1 % 8) t).state = .unenrolled) ∧
    (let t := took .flt 0 (flashed id []); (drive 0 t).state = .ready ∧ (t.flt.bound.any fun p => driveOf p.1 = 0) = false) ∧
    (let t := took .flt 0 (flashed (fun b => { b with room := [9] }) []); 9 ∈ t.flt.room) ∧
    (let t := took .flt 0 (flashed (fun b => { b with bound := [(0x4000, bindRec)] }) [])
     tget? t.flt.bound 0x4000 = some bindRec ∧ extClassOf bindRec.cls ≠ .edition ∧ (extentAt 0x4000 t).state = .free ∧
     isMoveDest 0x4000 t = false) := by unfold canCommand; decide +kernel

/-- A part whose galleries are in these states, with a binding that is IMPORTING under entry 63. -/
def galleries (xs : List GalState) (c : CensusState) : Machine.Part :=
  onTelemetry (fun b => { b with census := c })
    (onGalleries (fun b => { b with gals := xs.map fun x => { Gallery.reset with state := x }
                                    bindings := [(63, { Binding.blank with state := .importing })] }) tray)

theorem test_meets_GalleryCommandsAct :
    (let p := galleries [.active, .disabled, .vacant, .draining, .vacant, .vacant, .vacant, .disabled] .idle
     let t := took .gal 0 p
     canCommand .gal 0 p ∧ (gallery 0 t).state = .active ∧ (gallery 7 t).state = .disabled ∧ t.tel.census ≠ .running ∧
     t.gals.vitrine = false ∧ (bindEntry 63 t).state = .importing) ∧
    (let t := took .gal 0 (galleries [.disabled] .running); (gallery 0 t).state = .disabled ∧ t.tel.census = .running) ∧
    (let p := galleries [.disabled, .vacant] .idle
     let t := took .gal 0 p
     canCommand .gal 0 p ∧ (t.gals.gals.all fun x => x.state = .disabled || x.state = .vacant) = true ∧ t.tel.census ≠ .running) := by
  unfold canCommand; decide +kernel

/-- A hold of extent 9 of part 7. -/
def hold : HoldEntry :=
  { object := 5, srcPart := 7, srcExt := 9, epoch := 0, gallery := 0, state := .live, cls := .owned, opset := 0, synced := false, next := 0 }

/-- A part with its recovery block changed. -/
def recovering (f : Recovery → Recovery) (xs : Table Extent) : Machine.Part := onRecovery f (withExtents xs tray)

theorem test_meets_RecoveryCommandsAct :
    (let p := recovering (fun b => { b with cmdArg := [9 + 79 * 2 ^ 18, 0, 0, 0] }) []
     let t := took .flr 0 p
     canCommand .flr 0 p ∧ mayReset t = true ∧ isDramHome 3 t = true ∧ isReserved 3 t = false ∧ isCopyDest 3 t = false ∧ (extentAt 3 t).state = .free ∧
     inUse 3 t = false ∧ holdOf 7 (field (t.flr.cmdArg.getD 0 0) 17 0) t = none ∧ field (t.flr.cmdArg.getD 0 0) 24 18 < 80) ∧
    (let t := took .flr 0 (recovering (fun b => { b with holds := [(3, hold)] }) []); isHeld 3 t = true ∧ isDramHome 3 t = true) ∧
    (let t := took .flr 0 (recovering id [(3, { extent .live .owned with twinValid := true, twinPart := 7 })])
     isBacked 3 t = true ∧ (extentAt 3 t).twinValid = true ∧ isTwinDown (extentAt 3 t).twinPart t = false ∧
     (t.flr.mirrors.any fun r => r.ext = 3) = false ∧ (t.flr.sends.any fun r => r.standIn = 9) = false) ∧
    (let t := took .flr 0 (recovering (fun b => { b with standIn := .spare }) []); isSpare t = true ∧ 7 ≠ myPart t) ∧
    (let t := took .flr 0 (recovering (fun b => { b with standIn := .shadow }) []); t.flr.standIn = .shadow ∧ t.flr.standExts = []) ∧
    (let t := took .flr 0 (recovering (fun b => { b with standIn := .compare }) [])
     t.flr.standIn = .compare ∧ compareOver t = true) := by unfold canCommand; decide +kernel

/-! ### Hypotheses of the obligations: registers, messages, links and the switch core -/

/-- A part with an event in each of these queues. -/
def queued (q : QueueName) (es : List Event) : Machine.Part := setQueue q { entries := es, overflow := true, next := 9 } tray

/-- The same with an entry latched for view 0. -/
def latching (q : QueueName) (e : Event) (p : Machine.Part) : Machine.Part :=
  onView 0 (fun w => { w with latched := tset w.latched (queueBlock q) e }) p

theorem test_pop_rows : popRow .region 0 (.regionEventPop 0) ∧ popRow .cat 0 (.catEventPop 0) ∧ popRow .gal 0 (.galEventPop 0) ∧
    popRow .flr 0 (.flrEventPop 0) ∧ popRow .tel 0 (.telEventPop 0) ∧ popRow .pwr 0 (.pwrEventPop 0) ∧
    popRow .clv 0 (.clvEventPop 0) ∧ popRow .str 0 (.strEventPop 0) ∧ popRow .cmp 0 (.cmpEventPop 0) ∧
    popRow .chu 0 (.chuEventPop 0) ∧ popRow .flt 0 (.fltEventPop 0) := by simp [popRow]

theorem test_meets_EventReadsPop :
    ∀ q ∈ ([.region, .cat, .gal, .flr, .tel, .pwr, .clv, .str, .cmp, .chu, .flt] : List QueueName),
      let e : Event := { word := 2, info := 3, num := 8 }
      let p := queued q [e]
      viewOpen 0 p = true ∧ (getQueue q p).entries = [e] ∧ ((p.views[0]?).bind fun w => tget? w.latched (queueBlock q)) = none ∧
      (getQueue q tray).entries = [] ∧
      (((latching q e p).views[0]?).bind fun w => tget? w.latched (queueBlock q)) = some e ∧
      (((latching q e tray).views[0]?).bind fun w => tget? w.latched (queueBlock q)) = some e ∧
      e ∈ (getQueue q (latching q e p)).entries ∧ e ∉ (getQueue q (latching q e tray)).entries := by decide +kernel

/-- An entry of a gallery's fault queue. -/
def faultEntry : FaultEntry := { addr := 0x80, notice := 1, ident := 2, num := 8 }

/-- A part whose gallery 7 has that entry queued. -/
def faulted : Machine.Part :=
  onRecovery (fun b => { b with faults := lset b.faults 7 { entries := [faultEntry], overflow := false, next := 9 } }) tray

theorem test_meets_FaultQueueReadsPop :
    viewOpen 0 faulted = true ∧ 7 < 8 ∧ ((faulted.views[0]?).bind fun w => tget? w.latched (faultLatch 7)) = none ∧
    faultQueue 7 faulted = { entries := [faultEntry], overflow := false, next := 9 } := by decide +kernel

theorem test_meets_HeadReadsLatch :
    (∀ q ∈ [QueueName.cat, .flt], viewOpen 0 (queued q [{ word := 2, info := 3, num := 8 }]) = true ∧
      (getQueue q (queued q [{ word := 2, info := 3, num := 8 }])).entries = [{ word := 2, info := 3, num := 8 }] ∧ (getQueue q tray).entries = []) ∧
    (faultQueue 7 faulted).entries = [faultEntry] := by decide +kernel

theorem test_meets_ClearingReadsClear : viewOpen 0 tray = true ∧ viewOpen 3 tray = true ∧ isTray tray = true := by decide +kernel

theorem test_meets_UnitsAreDisabled :
    viewOpen 1 tray = true ∧ tray.gfu.enable.getD 31 true = true ∧ (mendEngine 15 tray).enable = true ∧
    tray.chu.enable.getD 23 true = true ∧ (tray.chu.cmds.any fun c => c.unit = 23) = false ∧ tray.flr.reEnable.getD 63 true = true := by
  decide +kernel

theorem test_meets_RegisterRowsWrite :
    viewOpen 0 tray = true ∧
    (let v : Word64 := BitVec.ofNat 64 (1 + 1024 * 2 ^ 24); field v.toNat 23 0 ≠ 0 ∧ 1024 ≤ field v.toNat 47 24) ∧
    (let v : Word64 := BitVec.ofNat 64 (1 + 9 * 2 ^ 8 + 9 * 2 ^ 32)
     policerOk { tget tray.sw.policers 1023 Policer.reset with
       twoRate := bitAt v.toNat 0, refuse := bitAt v.toNat 1, cir := field v.toNat 31 8, pir := field v.toNat 55 32 } = true) ∧
    (let v : Word64 := BitVec.ofNat 64 (1024 + 1024 * 2 ^ 24)
     policerOk { tget tray.sw.policers 0 Policer.reset with cbs := field v.toNat 23 0, ebs := field v.toNat 47 24 } = true) ∧
    (tray.gals.vitrine = false ∧ field (BitVec.ofNat 32 (23 * 2 ^ 20)).toNat 24 20 ≤ 23) ∧ bitAt (0xFFF : Word32).toNat 12 = false ∧
    (let v : Word32 := BitVec.ofNat 32 (50 * 2 ^ 4 + 115 * 2 ^ 11 + 1000 * 2 ^ 18)
     pmOk v.toNat = true ∧ pmMode v.toNat = tray.power.modeNow) := by decide +kernel

theorem test_meets_GalleryPortIsWritten :
    viewOpen 0 tray = true ∧ (31 : Nat) < 32 ∧ (7 : Nat) < 8 ∧ (let v : Word32 := 0x70000000
    (∀ j, j < 8 → j ≠ 7 → field v.toNat (4 * j + 2) (4 * j) = portGallery (8 * 31 + j) tray) ∧
    field v.toNat (4 * 7 + 2) (4 * 7) ≠ portGallery (8 * 31 + 7) tray ∧ tget tray.links.enable ((8 * 31 + 7) / 2) false = false) := by
  decide +kernel

theorem test_meets_TelemetryCommandsAct :
    (canCommand .census 0 tray ∧
      ctrClass ((BitVec.ofNat 32 (ctrId 2 0 64)).toNat % 2 ^ 28) = 2) ∧
    (canCommand .census 0 tray ∧ (took .census 0 tray).tel.census ≠ .pending ∧ (took .census 0 tray).tel.census ≠ .running) ∧
    ((onTelemetry (fun b => { b with census := .pending }) tray).tel.census = .pending ∧
      rinsing (onTelemetry (fun b => { b with census := .pending }) tray) = false ∧
      canSpend 13 lineCost (onTelemetry (fun b => { b with census := .pending }) tray) = true) ∧
    (onTelemetry (fun b => { b with census := .running }) tray).tel.census = .running := by unfold canCommand; decide +kernel

theorem test_meets_RegisterWritesReachTheRegister :
    viewOpen 0 tray = true ∧
    (widthOk 0x482000 8 (regAt 0x482000) = false ∧ widthOk 0x482002 4 (regAt 0x482002) = false) ∧
    (widthOk 0x2000000 8 (regAt 0x2000000) = true ∧ regAt 0x2000000 = none) ∧
    (widthOk 0x482000 4 (regAt 0x482000) = true ∧ (regAt 0x482000).any (fun r => !r.wide) ∧
      blockAnswers (blockOf 0x482000) 0 tray = true) ∧
    (widthOk 0x618238 8 (regAt 0x618238) = true ∧ (regAt 0x618238).any (fun r => r.wide && r.at_ = 0)) ∧
    (widthOk 0x61823C 4 (regAt 0x61823C) = true ∧ (regAt 0x61823C).any (fun r => r.wide && r.at_ = 4) ∧
      (((onView 0 (fun w => { w with held := tset w.held 0x618238 9 }) tray).views[0]?).bind fun w => tget? w.held 0x618238) = some 9) := by
  decide +kernel

/-- A message of an opcode with the least data that its length allows, on a VC of its class. -/
def sample (op : Nat) : Msg :=
  let c := (opClass op).getD .req
  let d := ((List.range 65).find? fun d => lenSuits op (hdrUnits c + d) 0).getD 0
  { Msg.blank with
    op := BitVec.ofNat 8 op, vc := BitVec.ofNat 3 (((List.range 8).find? fun v => vcClass v = c).getD 0),
    len := BitVec.ofNat 7 (hdrUnits c + d), data := List.replicate (4 * d) 0 }

theorem test_message_rows_one (port : Nat) (m : Msg) :
    messageRow 0x01 port m (.rdLine port m) ∧ messageRow 0x03 port m (.wrLine port m) ∧
    messageRow 0x04 port m (.wrMasked port m) ∧ messageRow 0x08 port m (.atAdd port m) ∧
    messageRow 0x09 port m (.atMin port m) ∧ messageRow 0x0A port m (.atMax port m) ∧ messageRow 0x0B port m (.atCas port m) ∧
    messageRow 0x10 port m (.fence port m) ∧ messageRow 0x11 port m (.fenceMark port m) ∧
    messageRow 0x18 port m (.loanOffer port m) ∧ messageRow 0x19 port m (.loanRecall port m) ∧
    messageRow 0x40 port m (.contrib port m) ∧ messageRow 0x41 port m (.result port m) ∧
    messageRow 0x48 port m (.streamAttach port m) ∧ messageRow 0x49 port m (.tile port m) ∧
    messageRow 0x4A port m (.windowCredit port m) ∧ messageRow 0x50 port m (.gatherReq port m) ∧
    messageRow 0x52 port m (.filterReq port m) ∧ messageRow 0x51 port m (.gatherData port m) ∧
    messageRow 0x53 port m (.filterData port m) ∧ messageRow 0x80 port m (.cpl port m) ∧
    messageRow 0x81 port m (.rdData port m) ∧ messageRow 0x82 port m (.atData port m) ∧
    messageRow 0x83 port m (.loanReply port m) := by
  simp [messageRow]

theorem test_message_rows_two (port : Nat) (m : Msg) :
    messageRow 0x8F port m (.faultNotice port m) ∧ messageRow 0x20 port m (.rdShared port m) ∧
    messageRow 0x21 port m (.rdOwn port m) ∧ messageRow 0x22 port m (.upgrade port m) ∧
    messageRow 0x23 port m (.wbDirty port m) ∧ messageRow 0x32 port m (.cmpAck port m) ∧
    messageRow 0x28 port m (.snpShrFwd port m) ∧ messageRow 0x29 port m (.snpInv port m) ∧
    messageRow 0x2A port m (.snpInvFwd port m) ∧ messageRow 0x2B port m (.snpNa port m) ∧
    messageRow 0x30 port m (.snpRsp port m) ∧ messageRow 0x31 port m (.catCmp port m) ∧ messageRow 0x38 port m (.dataS port m) ∧
    messageRow 0x39 port m (.dataE port m) ∧ messageRow 0x3A port m (.dataM port m) ∧ messageRow 0x3B port m (.dataMAt port m) ∧
    messageRow 0x3C port m (.snpData port m) ∧ messageRow 0x60 port m (.twinEntry port m) ∧
    messageRow 0x61 port m (.twinCheck port m) ∧ messageRow 0x62 port m (.twinSum port m) ∧
    messageRow 0x70 port m (.mgmtReq port m) ∧ messageRow 0x71 port m (.mgmtRsp port m) ∧
    messageRow 0x74 port m (.telReq port m) ∧ messageRow 0x75 port m (.telRsp port m) := by
  simp [messageRow]

/-- The part of one peer port, as an endpoint's. -/
def endpointLinked : Machine.Part := onPort 0 (fun x => { x with peerYp := false }) linked

theorem test_meets_MessagesAreTakenIn :
    (portActive 0 linked = true ∧ portActive 0 endpointLinked = true) ∧
    (∀ op ∈ ([
      0x01, 0x03, 0x04, 0x08, 0x09, 0x0A, 0x0B, 0x10, 0x11, 0x18, 0x19, 0x40, 0x41, 0x48, 0x49, 0x4A, 0x50, 0x52, 0x51, 0x53,
      0x80, 0x81, 0x82, 0x83, 0x8F, 0x20, 0x21, 0x22, 0x23, 0x32, 0x28, 0x29, 0x2A, 0x2B, 0x30, 0x31, 0x38, 0x39, 0x3A, 0x3B,
      0x3C, 0x60, 0x61, 0x62, 0x70, 0x71, 0x74, 0x75] : List Nat),
      msgFits op (sample op) = true) := by decide +kernel

/-- A part with one port in a link state. -/
def linking (x : LinkState) (f : LPort → LPort) : Machine.Part := onPort 0 (fun y => f { y with link := x }) linked

/-- The INIT flit of a peer: KIND 1, VERSION 1, four lanes. -/
def peerInit : List Byte := initFlit 0 linked

/-- An INIT flit of VERSION 0. -/
def badInit : List Byte := mkFlit 2 (List.replicate 236 0)

theorem test_meets_LinksComeUp :
    (tray.cur.power = .coreOn ∧ tray.cur.fastPending = false ∧ linksRun tray = true ∧ tget tray.links.enable 127 false = false ∧
      127 ∉ tray.power.ecoDown ∧ tget linked.links.enable 0 false = true) ∧
    ((lport 0 (linking .train id)).link = .train ∧ (lport 0 (linking .train id)).retraining = false) ∧
    (let p := linking .down id
     portEnabled 0 p = true ∧ linksRun p = true ∧ 0 % 2 = 0 ∧ (lport 0 p).link = .down) ∧
    (lport 0 (linking .lock id)).link = .lock ∧ (lport 0 (linking .align id)).link = .align ∧
    ((lport 0 (linking .param id)).link = .param ∧ (lport 0 (linking .param id)).retraining = false ∧ flitGood peerInit = true ∧
      flitType peerInit = 2 ∧ initSuits (lport 0 (linking .param id)) peerInit = true ∧ flitGood badInit = true ∧ flitType badInit = 2 ∧
      initSuits (lport 0 (linking .param id)) badInit = false) := by decide +kernel

/-- A DATA flit numbered 255 and a NULL flit, each with an empty payload. -/
def dataFlit255 : List Byte := mkFlit (1 + 255 * 2 ^ 4) (List.replicate 236 0)
def nullFlit0 : List Byte := mkFlit 0 (List.replicate 236 0)

theorem test_meets_LinksCarryFlits :
    (let p := linking .active fun x => { x with rxExp := 255, unacked := 15, replay := [nullFlit0], replays := 7 }
     portActive 0 p = true ∧ flitGood dataFlit255 = true ∧ flitType dataFlit255 = 1 ∧
     flitSeq dataFlit255 = (lport 0 p).rxExp.toNat ∧ flitGood nullFlit0 = true ∧ flitType nullFlit0 = 0 ∧
     flitGood badInit = true ∧ flitType badInit = 2 ∧ 0 < (lport 0 p).unacked ∧
     (lport 0 p).replay ≠ [] ∧ (lport 0 p).replays < tget p.links.replayLimit (0 / 2) 8) ∧
    (lport 0 (linking .train fun x => { x with retraining := true })).retraining = true := by decide +kernel

/-- A message of the part's own that waits in queue 3 of port 0, whose peer has credits. -/
def waitingOut : Machine.Part :=
  onSwitch (fun w => { w with queues := [(3, [waking 272])] })
    (onPort 0 (fun x => { x with txCredits := List.replicate 8 9, rxPartial := some { bytes := [0], need := 40, vc := 7 } }) linked)

/-- A read of the peer's that waits in ingress space of port 0 under a colour. -/
def waitingIn (c : Colour) : Waiting := { msg := { readMsg with dstPort := 0x1FF }, issued := false, colour := c, policer := none, holds := true,
                                          entry := { port := 0, bay := 0, seen := [] } }

theorem test_meets_SwitchCoreMoves :
    (portActive 0 waitingOut = true ∧
      (chooseHead 0 waitingOut).any (fun q => (lport 0 waitingOut).replay.length + flitsOf q.msg ≤ 64) ∧
      (lport 0 waitingOut).rxPartial.any (fun b => b.vc = 7) ∧ (lport 0 waitingOut).nakSent = false) ∧
    chooseHead 0 linked = none ∧
    (∀ c ∈ [Colour.red, .green],
      let p := onSwitch (fun w => { w with waiting := [(waitKey 0 0, [waitingIn c])] }) linked
      tget p.sw.waiting (waitKey 0 0) [] = [waitingIn c] ∧
      (colourMsg 0 (waitingIn c).policer (waitingIn c).msg p).1 ≠ .red ∧
      (c ≠ .red → (passOn 0 (waitingIn c) (dropFirstWaiting (waitKey 0 0) p)).isSome)) := by decide +kernel

/-! ### Hypotheses of the obligations: events of the fabric, the pool and the engines -/

/-- A request of agent 511 with tag 65,535 to part 4,095. -/
def lateMsg : Msg := { readMsg with srcPart := 0, srcPort := 0x1FF, tag := 0xFFFF, dstPart := 0xFFF }

/-- A write-through of the last line of extent 6143. -/
def through (k : ThroughKind) (a : Option Msg) : WriteThrough :=
  { agent := 0x115, tag := 0xFFFF, twin := 4095, line := 6143 * linesPerExtent + (linesPerExtent - 1), kind := k, answer := a }

theorem test_meets_OrderingTimersAct :
    (let p := onLinks (fun l =>
      { l with streams := [(streamKey 511 4095, { SrcStream.start with unacked := [{ msg := { lateMsg with sseq := 0xFFFFFF }, path := 0 }] })]
       }) linked
     ((stream 511 4095 p).unacked.find? (fun u => decide (u.msg.sseq = 0xFFFFFF))).isSome = true) ∧
    (let p := onLinks (fun l => { l with fences := [{ agent := 511, msg := lateMsg, covered := [], waits := [], taken := true }] }) linked
     (((discardHeld (myPart p) 511 0xFFFF p).links.fences.find? fun f => decide (f.agent = 511) && decide (f.msg.tag.toNat = 0xFFFF)).isSome
       = true)) ∧
    (let p := onLinks (fun l => { l with tracked := [(trackKey 511 0xFFFF, { msg := lateMsg, timeout := 0, pathDown := false })] }) linked
     let q := discardHeld (myPart p) 511 0xFFFF p
     q.links.fences.find? (fun f => decide (f.agent = 511) && decide (f.msg.tag.toNat = 0xFFFF)) = none ∧
     (tget? q.links.tracked (trackKey 511 0xFFFF)).isSome = true) ∧
    (let m := { lateMsg with op := 0x19 }
     let p := onPool (fun b => { b with loans := [(4095, { Loan.blank with state := .recalling, notice := some m })] })
       (onLinks (fun l => { l with tracked := [(trackKey 511 0xFFFF, { msg := m, timeout := 0, pathDown := false })] }) linked)
     let q := discardHeld (myPart p) 511 0xFFFF p
     q.links.fences.find? (fun f => decide (f.agent = 511) && decide (f.msg.tag.toNat = 0xFFFF)) = none ∧
     (tget? q.links.tracked (trackKey 511 0xFFFF)).isSome = true ∧ recallPends m q = true) ∧
    (let p := onLinks (fun l =>
      { l with streams := [(streamKey 0 1, { SrcStream.start with unacked := [{ msg := { lateMsg with op := 0x11 }, path := 0 }] })] }) linked
     ((stream 0 1 p).unacked.all fun u => decide (u.msg.op = 0x11)) = true) ∧
    (let p := recovering (fun b => { b with throughs := [through .fill none] }) []
     (p.flr.throughs.find? fun w => decide (w.agent = 0x115) && decide (w.tag.toNat = 0xFFFF)) = some (through .fill none) ∧
     (through .fill none).kind ≠ .send) ∧
    (let p := recovering (fun b => { b with standIn := .shadow, senders := [4095] }) []
     p.flr.standIn = .shadow ∧ 4095 ∈ p.flr.senders ∧ shadowOver p = false) := by decide +kernel

/-- A loan entry in a state. -/
def loan (x : LoanState) : Loan := { Loan.blank with state := x, lender := 0, count := 1, first := 0x2F00 }

/-- A part whose entry 4,095 is that loan. -/
def borrowing (x : LoanState) : Machine.Part := onPool (fun b => { b with loans := [(4095, loan x)] }) linked

/-- A transaction of a line that waits for member 63's snoop answer. -/
def snooping : CatTxn :=
  { item := .fix, member := none, group := 0, poisonMode := false, found := .s, ptrs := [63], fin := .perform, dataOp := 0, next := none,
    needsAck := false, snoops := [{ member := 63, op := 0x29, tag := 1 }], supplier := none, supplyOp := 0, fetchTag := none,
    retried := false, dirty := none, forwarded := false, p0After := 0, lost := [], awaitAck := false, acked := false, held := false }

theorem test_meets_PoolTimersAct :
    (loanAt 4095 (borrowing .offered)).state = .offered ∧ (loanAt 4095 (borrowing .recalling)).state = .recalling ∧
    (let c : CopyJob := { src := 0x3FFF, dest := 3, lender := 0, running := true, stalled := false }
     let p := onPool (fun b => { b with copies := [c] }) linked
     p.pool.copies.find? (fun c => decide (c.src = 0x3FFF) && c.running) = some c ∧ c.stalled = false ∧
     ([[]] : List (List Byte)).isEmpty = false ∧ portActive c.lender p = true) ∧
    (onPool (fun b => { b with revokes := [{ ext := 3, view := 0 }] }) linked).pool.revokes.find? (fun r => decide (r.ext = 3))
      = some { ext := 3, view := 0 } ∧
    (let p := onRegions (fun b => { b with wait := some (.drain 3 5 []) }) tray
     p.regions.wait = some (.drain 3 5 []) ∧ regionBusy [] p = false) ∧
    running tray = true ∧
    (∀ k ∈ [WalkKind.hostLost, .remove, .purge],
      let w : Walk := { kind := k, group := 15, member := 63, ext := 3, view := 0 }
      let p := onCatalogue (fun c => { c with walks := [w] }) tray
      p.cat.walks = [w] ∧ walkBusy w p = false) ∧
    (let p := onCatalogue (fun c => { c with txns := [(9, snooping)] }) tray
     tget? p.cat.txns 9 = some snooping ∧ (snooping.snoops.find? fun w => decide (w.member = 63)).isSome = true) := by decide +kernel

/-- A chunk that a shard has reached and that is not complete. -/
def openChunk : Chunk := { accum := [], raw := [], counted := [3], complete := false, short := false, poison := false }

/-- A gather request of a unit, with this phase and these reads. -/
def gathering (x : GfuPhase) (reads : List Fetch) : GfuReq :=
  { unit := 31, req := { readMsg with op := 0x50, tag := 0xFFFF }, filter := false, limit := 0, phase := x, terms := [], next := 0, bag := 0,
    bagStart := none, bagEnd := none, idxLine := none, bagLine := none, reads := reads, want := .data, writes := [], failed := [], entries := [], acc := [], added := 0,
    tainted := false, out := [], sent := 0, scanned := 0, passed := 0, delivered := 0, firstBad := none, bad := 0, nans := 0, topk := [],
    cancelled := false, stopped := none, truncated := false }

/-- A part with that request. -/
def gathers (q : GfuReq) : Machine.Part := { tray with gfu := { tray.gfu with requests := [(7, q)] } }

/-- A tile of a stream that is ready; its record names a source and a deadline. -/
def readyTile : TileRun :=
  { number := 5, index := 0, record := [1 * 2 ^ 20, 0, 0, 0], desc := [], stage := .ready, row := 0, reads := [], values := [], factor := [],
    engine := none, u := [], v := [], status := 0, filled := false, late := false }

/-- A stream whose member has four tiles on its hands: a stalled one, of four slots. -/
def stalledStream : Stream := { aStream .running [] 4 with header := [0, 4 * 2 ^ 13, 0, 0] }

/-- A LOAD of slot 0 that waits for the last reference of generation 2. -/
def slotWait : SlotRun := { view := 0, addr := 0, arg := 0, load := true, slot := 0, gen := 3, waiting := true, read := none }

theorem test_meets_EngineEventsAct_one :
    (∀ x ∈ [CtxState.running, .closing],
      (ctxAt 4095 (reducing [(4095, context x (ctxDesc.set 0 (4096 * 2 ^ 32 + 2 ^ 14)) [(0, openChunk)])])).any (fun c =>
        ctxStalled c && decide (c.state = x) && ctxPartial c.desc)) ∧
    (ctxAt 4095 (reducing [(4095, context .running ctxDesc [(0, openChunk)])])).any (fun c =>
        ctxStalled c && decide (c.state = .running) && !ctxPartial c.desc) ∧
    (let q := gathering .scan [{ tag := 65535, line := 0, answer := some (0, []), taken := false }]
     (gathers q).gfu.requests.find? (fun r => decide (r.2.unit = 31) && r.2.reads.any fun a => a.tag = 65535 && a.answer.isSome && !a.taken)
       = some (7, q)) ∧
    (let q := gathering .terms []
     (gathers q).gfu.requests.find? (fun r => decide (r.2.unit = 31) && decide (r.2.req.tag.toNat = 65535))
       = some (7, q)) := by decide +kernel

theorem test_meets_EngineEventsAct_two :
    (strAt 255 (streaming (aStream .running [] 0))).any (fun x => decide (x.state = .running)) ∧
    ((strAt 255 (streaming (aStream .running [readyTile] 6))).any (fun x => x.tiles = [readyTile]) ∧ readyTile.stage = .ready ∧
      readyTile.status = 0 ∧ readyTile.filled = false ∧ rcSource readyTile.record ≠ 2) ∧
    (∀ x ∈ [StreamState.running, .stopping],
      (strAt 255 (streaming (aStream x [readyTile] 6))).any (fun y => decide (y.state = x) && decide (
        y.tiles.find? (fun t => decide (t.number = 5)) = some readyTile)) ∧ readyTile.late = false ∧ rcDeadline readyTile.record ≠ 0) ∧
    ((strAt 255 (streaming (aStream .running [readyTile] 6))).any (fun y =>
      decide (y.tiles.find? (fun t => decide (t.number = 6)) = none) && decide (y.nextTile ≤ 6) && decide (6 ∉ y.lateNew))) ∧
    (strAt 255 (streaming stalledStream)).any (fun x => decide (memberAt x 63 = some strMember) && strMember.joined &&
      decide ((sentTo x strMember - strMember.released).toNat = prSlots x.header)) ∧
    (let p := onCompression (fun b => { b with slotRun := some slotWait }) (folding (some { exampleTable with gen := 2 }) [])
     p.cmp.slotRun = some slotWait ∧ slotWait.waiting = true ∧
     awaitedGen slotWait.load slotWait.gen (foldSlot slotWait.slot p) = some 2 ∧ tableRefs slotWait.slot 2 p = 0) ∧
    (let p := onCompression (fun b => { b with slotRun := some slotWait }) (folding none [])
     p.cmp.slotRun = some slotWait ∧ awaitedGen slotWait.load slotWait.gen (foldSlot slotWait.slot p) = none) ∧
    (jobAt 63 (folding none [(63, foldJob .running false jobDesc)])).any (fun x =>
      decide (x.state = .running)) := by decide +kernel

theorem test_meets_MemoryEventsAct :
    (let p := channelUnits [chuCmd false]
     (chuRunning 3 p).isSome = false ∧ canSpend 4 lineCost p = true ∧ p.chu.cmds.find? (fun c => decide (c.unit = 3)) = some (chuCmd false)) ∧
    (let p := channelUnits [chuCmd true]
     chuRunning 3 p = some (chuCmd true) ∧ (chuCmd true).ended = false ∧ chuWaits (chuCmd true) p = false ∧
     chuCost (chuCmd true).desc ≤ (chuCmd true).paid) ∧
    (channelTrained 23 tray = true ∧ canSpend 9 retrainCost tray = true ∧ canSpend 9 retrainCost (paced 0 tray) = false ∧ channelTrained 23 (paced 0 tray) = true ∧ ((tray.dram.channels[23]?).map (·.lost)).getD false = false) ∧
    (let p := onDram (fun d => { d with fill := some fillRun }) tray
     p.dram.fill = some fillRun ∧ fillWaits fillRun.firstLine fillRun.lines p = false ∧ fillCost fillRun.lines ≤ fillRun.paid) ∧
    (onDram (fun d => { d with survey := some surveyRun }) tray).dram.survey = some surveyRun ∧ surveyCost surveyRun.len ≤ surveyRun.paid := by decide +kernel

/-! ### Hypotheses of the obligations: events of the flash tier, of drives, galleries and recovery -/

/-- A command of a drive. -/
def nvmeCmd (u : NvmeUse) : NvmeCmd := { cid := 65535, queue := 1, use := u, retried := false }

/-- A part whose drive 0 is READY and changed so. -/
def driving (f : Drive → Drive) (g : Flash → Flash) : Machine.Part := onDrive 0 f (flashed g [])

theorem test_meets_FlashEventsAct_one :
    (∀ demote ∈ [true, false],
      let p := flashed (fun b => { b with moves := [aMove demote] }) []
      moveNum 63 p = some (aMove demote) ∧ (aMove demote).copied = false ∧
      (p.chu.cmds.any fun c => c.running && chuExt c.desc = (aMove demote).src) = false ∧ driveServes (aMove demote).drive p = true ∧ moveCost ≤ (aMove demote).paid) ∧
    (let p := flashed (fun b => { b with room := [9], removing := [9], run := some (.removeRoom 0 9) }) []
     p.flt.run = some (.removeRoom 0 9) ∧ ((takenRooms (evictRoom 9 p)).any fun r => r / 4096 = 9) = false) ∧
    (flashed (fun b => { b with run := some (.enroll 0 7) }) []).flt.run = some (.enroll 0 7) ∧
    (let p := driving (fun y => { y with cmds := [nvmeCmd (.stage (0x4000 * 4096) (9 * 4096))] }) id
     driveOf (0x4000 * 4096 / 4096) = 0 ∧ (drive 0 p).cmds.findSome? (stagingRoom (0x4000 * 4096)) = some (9 * 4096)) := by decide +kernel

theorem test_meets_FlashEventsAct_two :
    (∀ u ∈ [NvmeUse.stage (0x4000 * 4096) (9 * 4096), .direct 0x10000000, .moveRead 63 4095, .moveWrite 63 0, .reset 63, .abort 0],
      let p := driving (fun y => { y with cmds := [nvmeCmd u] }) id
      (drive 0 p).cmds.find? (fun c => decide (c.cid = 65535)) = some (nvmeCmd u)) ∧
    (let p := driving (fun y => { y with cmds := [nvmeCmd (.direct 5)] }) id
     NvmeUse.abort 65535 ∉ usesOf (drive 0 p)) ∧
    (let p := driving (fun y => { y with zones := [(63, { wp := 1, live := [], finished := false })] }) id
     (zoneAt 0 63 p).wp ≠ 0 ∧ (zoneAt 0 63 p).live.isEmpty = true ∧ zoneWriting 0 63 p = false ∧ driveServes 0 p = true ∧
     ((usesOf (drive 0 p)).any isJournal) = false) := by
  decide +kernel

/-- A journal zone whose HEADER names that part and root port. -/
def journalOf (part port : Nat) : List (List Byte) :=
  let b := [3, BitVec.ofNat 8 port] ++ leBytes 2 part ++ List.replicate 52 0
  [b ++ leBytes 8 (crc64 b)]

/-- What a drive that meets the requirements shows, with these journal zones. -/
def driveInfo (j : List (List (List Byte))) : DriveInfo :=
  { noDrive with percent := 255, journal := j }

theorem test_meets_DrivesComeAndGo :
    driveServes 0 (driving id id) = true ∧ canSpend 13 lineCost (driving id id) = true ∧
    (driveServes 0 (paced 0 (driving id id)) = true ∧ canSpend 13 lineCost (paced 0 (driving id id)) = false) ∧ ((drive 0 (driving id id)).cmds.find? fun c => c.use = .asyncEvent) = none ∧
    ((drive 0 (driving (fun y => { y with cmds := [nvmeCmd .asyncEvent] }) id)).cmds.find? fun c => c.use = .asyncEvent)
      = some (nvmeCmd .asyncEvent) ∧
    (linkRate noDrive ≠ 0 ∧ linkWidth noDrive ≠ 0 ∧ failedItem noDrive = none ∧ failedItem { noDrive with zcap := 65599 } = some 4) ∧ ([65535] : List Nat).isEmpty = false ∧
    ((drive 0 (driving id id)).state ≠ .absent ∧ (drive 0 (driving id id)).state ≠ .down) ∧
    (∀ x ∈ [DriveState.starting, .down],
      let p := driving (fun y => { y with state := x }) id
      (drive 0 p).present = true ∧ (drive 0 p).perst = false ∧ (drive 0 p).state = x) ∧
    (let p := driving (fun y => { y with state := .starting }) id
     (driveInfo []).journal.filterMap headerOf = [] ∧
     (((driveInfo [journalOf 4095 0]).journal.filterMap headerOf).any fun h => h ≠ (myPart p, 0)) = true ∧
     (driveInfo [journalOf (myPart p) 0]).journal.filterMap headerOf = [(myPart p, 0)]) ∧
    (let p := onDrive 7 (fun y => { y with present := true, perst := true })
       (onFlash (fun b => { b with ports := 255 }) tray)
     rootPortOn 7 p = true ∧ (drive 7 p).present = true ∧ (drive 7 p).perst = true ∧ p.cur.power = .coreOn ∧ 6 ≤ p.cur.phase) := by
  decide +kernel

theorem test_meets_GalleryAndRecoveryEventsAct_one :
    (let p := onGalleries (fun b => { b with rinseWait := [7], rinseView := some 0 }) (galleries [] .idle)
     p.gals.rinseView = some 0 ∧ p.tel.census ≠ .running) ∧
    ((gallery 0 (galleries [.rinsing] .idle)).state = .rinsing) ∧
    ((gallery 0 (galleries [.draining] .idle)).state = .draining ∧ galIdle 0 (galleries [.draining] .idle) = true) ∧
    (ctxAt 4095 (reducing [(4095, context .closing ctxDesc [])])).any (fun x => decide (x.state = .closing)) ∧
    (strAt 255 (streaming (aStream .stopping [] 0))).any (fun x => decide (x.state = .stopping)) ∧
    ({ tray with gfu := { tray.gfu with draining := lset tray.gfu.draining 31 true } } : Machine.Part).gfu.draining.getD 31 false = true ∧
    (mendEngine 15 (onCompression (fun b => { b with mend := lset b.mend 15 { enable := false, draining := true, current := none, panels := [] } }) tray)).draining
      = true ∧
    (onChannelUnits (fun b => { b with draining := lset b.draining 23 true }) tray).chu.draining.getD 23 false = true := by decide +kernel

/-- A part in which gallery 3 rotates, and page 12,288 of its extent 3 is still under the epoch before. -/
def rotatingPart : Machine.Part :=
  onGalleries (fun b =>
    { b with
      gals := lset b.gals 3 { Gallery.reset with
        state := .active, rotating := true, current := some { epoch := 2, key := 8 }, previous := some { epoch := 1, key := 7 } }
      tags := [(3 * 4096, { epoch := 1, split := 3 })] }) (withExtents [(3, { extent .live .owned with gallery := 3 })] tray)

theorem test_meets_GalleryAndRecoveryEventsAct_two :
    (let p := rotatingPart
     let g := (pageUnit (3 * 4096) p).1.gallery
     (gallery g p).rotating = true ∧ (gallery g p).previous.map (·.epoch) = some (pageTag (3 * 4096) p).epoch ∧
     thas p.gals.tags (3 * 4096) = true ∧ canSpend 11 pageCost p = true) ∧
    (79 ∈ (recovering (fun b => { b with selftests := [79] }) []).flr.selftests ∧
     canSpend 14 (testCost 79) tray = true ∧ canSpend 14 (testCost 79) (paced 0 tray) = false ∧
     (onPower (fun b => { b with modeNow := 1 }) tray).power.modeNow = 1 ∧ 79 ∉ tray.flr.selftests) ∧
    (checkPair 0 7 = true ∧ chargesOk 0 7 [] = true ∧ chargesOk 0 7 [7] = true ∧ checkPair 64 79 = true ∧
     chargesOk 64 79 [64, 79, 70] = true ∧
     (∀ c ∈ [({ engine := 64, unit := 255, number := 5 } : SpotItem), { engine := 0, unit := 4095, number := 0 }],
       let p := onRecovery (fun b => { b with checks := [c] })
         (onCollectives (fun b => { b with contexts := [(4095, context .running ctxDesc [(0, { openChunk with complete := true })])] })
           (streaming (aStream .running [readyTile] 6)))
       dueCheck c.engine p = some c ∧ canSpend 14 (testCost c.engine) p = true ∧ canSpend 14 (testCost c.engine) (paced 0 p) = false) ∧ checkPair 63 64 = false ∧ checkPair 0 8 = false) ∧
    (host 1 (onHost 1 (fun h => { h with draining := true }) tray)).draining = true ∧ tray.cur.power = .coreOn := by decide +kernel

/-! ### Hypotheses of the obligations: the Curator, the host ports and the cores -/

/-- The payload of a key message: its length, gallery with flags, and epoch. -/
def keyMessage (len gal epoch : Nat) : List Byte :=
  [0, BitVec.ofNat 8 gal] ++ leBytes 2 epoch ++ List.replicate (len - 4) 0

/-- A tray part with its boot NOR answering and its management block changed. -/
def managed (f : Management → Management) : Machine.Part :=
  onManagement f (onCurator (fun c => { c with norOk := true, aux1v8 := true }) tray)

/-- A part in which gallery 7 is ACTIVE under that key. -/
def keyed (now : KeySlot) : Machine.Part :=
  onGalleries (fun b => { b with gals := lset b.gals 7 { Gallery.reset with state := .active, current := some now } }) (managed id)

theorem test_meets_MailboxCommandsAct_keys :
    (∀ c ∈ [0, 1, 2], mailReady c (managed id)) ∧ (managed id).cur.phase ≠ 14 ∧
    (let m := ofKind 1 (keyMessage 1664 6 0xFFFE)
     m.length = 1664 ∧ kmFieldsOk m = true ∧ kmPrevious m = false ∧
     (gallery (kmGallery m) (asked 0 0x10 m (managed id))).state = .vacant) ∧
    (let m := ofKind 1 (keyMessage 1664 (7 + 8) 0xFFFE)
     let q := asked 0 0x10 m (keyed { epoch := 1, key := 7 })
     m.length = 1664 ∧ kmFieldsOk m = true ∧ kmPrevious m = true ∧ (gallery (kmGallery m) q).current = some { epoch := 1, key := 7 } ∧
     (gallery (kmGallery m) q).previous = none ∧ nextEpoch (kmEpoch m) = 1) ∧
    (let m := ofKind 2 (keyMessage 1664 7 1)
     let q := asked 0 0x10 m (keyed { epoch := 0xFFFE, key := 7 })
     m.length = 1664 ∧ kmFieldsOk m = true ∧ (gallery (kmGallery m) q).rotating = false ∧ (gallery (kmGallery m) q).state = .active ∧
     (gallery (kmGallery m) q).current = some { epoch := 0xFFFE, key := 7 } ∧ (gallery (kmGallery m) q).previous = none ∧
     kmEpoch m = nextEpoch 0xFFFE) ∧
    (let m := ofKind 3 (keyMessage 1632 7 0)
     m.length = 1632 ∧ kmFieldsOk m = true ∧ thas (asked 0 0x10 m (managed id)).gals.colls (kmColl m) = false) ∧
    (let m := ofKind 4 (keyMessage 96 7 0)
     m.length = 96 ∧ kmFieldsOk m = true ∧ inRecovery (managed id) = false) := by unfold mailReady; decide +kernel

/-- An update session of 3,000 bytes of which `n` are written. -/
def session (n : Nat) (v : Bool) : Machine.Part := managed fun m => { m with session := some { len := 3000, next := n, verified := v } }

theorem test_meets_MailboxCommandsAct_updates :
    (let p := managed id
     let d := directory p.mgmt
     norSession p = false ∧ d.trial = 0 ∧ d.active = p.cur.runSlot ∧ norUsable p = true ∧
     0x2000 ≤ leAt (leBytes 4 (0x2000 + 25157632)) 0 4 ∧ leAt (leBytes 4 (0x2000 + 25157632)) 0 4 ≤ 0x2000 + 25157632) ∧
    (mailReady 1 (session 2048 false) ∧ updateRuns (session 2048 false) = false ∧ norUsable (session 2048 false) = true ∧
      (let pl := leBytes 4 2048 ++ List.replicate 952 0
       4 < pl.length ∧ 2048 < 3000 ∧ pl.length - 4 = min 2048 (3000 - 2048) ∧ pl.length - 4 = 3000 % 2048 ∧ leAt pl 0 4 = 2048)) ∧
    (session 3000 true).mgmt.session = some { len := 3000, next := 3000, verified := true } ∧
    (let p := managed (writeDirectory fun d => { d with trial := 1 })
     mailReady 0 p ∧ (directory p.mgmt).trial ≠ 0 ∧ norUsable p = true) ∧
    (let pl := leBytes 4 0xFFFFFFFF ++ leBytes 1 63
     pl.length = 5 ∧ 1 ≤ leAt pl 4 1 ∧ leAt pl 4 1 ≤ 63) := by unfold mailReady; decide +kernel

theorem test_meets_MailboxCommandsAct_record :
    (recordBytes defaultRecord).length = 1024 ∧ recordOk (recordOfBytes (recordBytes defaultRecord)) = true :=
  ⟨by decide +kernel, by rw [test_default_record.2]; exact test_default_record.1⟩

/-- Its CRC is good. -/
theorem test_record_crc : recordCrcOk (recordBytes defaultRecord) = true := by
  have hl : (recordBody defaultRecord).length = 1016 := by decide +kernel
  simp only [recordCrcOk, recordBytes, leAt, List.length_append, hl, leBytes_length, ofLe_leBytes, List.take_append,
    List.take_of_length_le, List.drop_append, List.drop_eq_nil_of_le, Bool.and_eq_true, decide_eq_true_eq, le_refl,
    Nat.sub_self, List.take_zero, List.drop_zero, List.append_nil, List.nil_append]
  exact ⟨trivial, Nat.mod_eq_of_lt (crc64_lt _)⟩

/-- A part with a NOR step under way. -/
def stepping (op : Nat) (nor : Bool) : Machine.Part :=
  onCurator (fun c => { c with norOk := nor }) (managed fun m =>
    { m with async := [{ op := op, chan := 2, offset := 0, bytes := [1] }], session := some { len := 1, next := 0, verified := false } })

theorem test_meets_NorStepsEnd :
    (∀ op ∈ [0x20, 0x21, 0x22, 0x23, 0x25, 0x31], (stepping op true).mgmt.async.head?.any (fun a => decide (a.op = op) && decide (a.chan < 3)) ∧
      (stepping op true).cur.power ≠ .off ∧ norUsable (stepping op true) = true ∧ (stepping op true).mgmt.session.isSome) ∧
    norUsable (stepping 0x20 false) = false := by decide +kernel

/-- A connection that has come as far as the algorithms. -/
def connected : Machine.Part := managed fun m =>
  { m with spdm := lset m.spdm 0 { Spdm.reset with version := true, caps := true, algorithms := true } }

theorem test_meets_SpdmRequestsAreAnswered :
    (∀ c ∈ [0, 1, 2], spdmOpen c connected = true) ∧
    (let x := spdmAt 0 (count 1 0 1 1 connected)
     x.version = true ∧ x.caps = true ∧ x.algorithms = true) ∧
    offersBoth (withCode spAlgorithms (List.replicate 28 0 ++ [1, 1, 0, 0] ++ falconAlg ++ shakeAlg)) = true ∧
    leAt (withCode spChallenge [0x12, 0, 0, 0]) 2 1 % 16 = 0 ∧
    (let r := withCode spMeasurements [0x12, 0, 1, 0xFF]
     leAt r 3 1 = 0xFF ∧ bitAt (leAt r 2 1) 0 = true) ∧
    (let r := withCode spMeasurements [0x12, 0, 0, 6]
     leAt r 3 1 ∈ measureIndices connected ∧ bitAt (leAt r 2 1) 0 = false) ∧
    ¬ leAt [0x12, 0x7F, 0, 0] 1 1 ∈ [spVersion, spCaps, spAlgorithms, spDigests, spCertificate, spChallenge, spMeasurements] := by
  decide +kernel

/-- A part whose last window entry of host port 1 and of the cores is valid, the cores' one through the caches or not. -/
def windowed (cached : Bool) : Machine.Part :=
  onHost 1 (fun h => { h with win := [(255, BitVec.ofNat 64 (2 ^ 63))] })
    (managed fun m => { m with apcWin := [(2 * 4095, BitVec.ofNat 64 (2 ^ 63)), (2 * 4095 + 1, BitVec.ofNat 64 (8 * bitOf cached))] })

/-- A line that the cores hold. -/
def heldLine : CoreLine := { state := .modified, catalogue := true, bytes := List.replicate 128 0, poison := false, gallery := 0, epoch := 0, handle := 0 }

theorem test_meets_WindowsReachThePool :
    (let p := windowed false
     let offset := 2 ^ 36 - 16
     windowOpen 1 p = true ∧ poolOpen p = true ∧ (host 1 p).draining = false ∧ wnValid (hostEntry 1 offset p) = true ∧ inFourKib offset 16 = true ∧
     inFourKib offset 8 = true ∧ offset % 8 = 0 ∧ offset % 16 = 0 ∧ inFourKib (2 ^ 36 - 4096) 4096 = true) ∧
    (windowOpen 1 tray = true ∧ hostTurnsAway 1 0 tray = true ∧ inFourKib 0 4096 = true) ∧ (2 ^ 36 - 8 < 2 ^ 36 ∧ (2 ^ 36 - 8) % 128 + 8 ≤ 128) ∧
    (∀ cached ∈ [false, true],
      let p := windowed cached
      let offset := 4095 * 2 ^ 28 + (2 ^ 28 - 8)
      p.mgmt.coresOn = true ∧ coresRun p = true ∧ offset < 2 ^ 40 ∧ offset % 128 + 8 ≤ 128 ∧ offset % 8 = 0 ∧
      wnValid (apcWord (offset / 2 ^ 28 % 4096) 0 p) = true ∧ bitAt (apcWord (offset / 2 ^ 28 % 4096) 1 p) 3 = cached) ∧
    (∀ d ∈ [false, true],
      let q (p : Machine.Part) : Machine.Part := raiseCore 63 (count 18 0 64 1 (onManagement (fun m =>
        { m with apcError := BitVec.ofNat 64 (9 * 128 % 2 ^ 58 + bitOf d * 2 ^ 58 + 17 * 2 ^ 59) }) p))
      coreLine 9 (q (managed id)) = none ∧
      coreLine 9 (q (managed fun m => { m with coreCache := [(9, heldLine)] })) = some heldLine) := by decide +kernel

/-! ### Hypotheses of the obligations: the board, the island and power -/

theorem test_meets_BoardEventsAct :
    State.reset.part.cur.power = .off ∧
    (tray.cur.power ≠ .off ∧ tray.cur.pwrgd = true ∧ tray.cur.power = .coreOn) ∧
    (onCurator (fun c => { c with pwrgd := false }) tray).cur.pwrgd = false ∧
    (onCurator (fun c => { c with aonExternal := true }) tray).cur.aonExternal = true ∧
    (let p := onCurator (fun c => { c with power := .islandOnly, waitVin := true, phase := 4 }) tray
     p.cur.power = .islandOnly ∧ p.cur.pwrgd = true ∧ p.cur.waitVin = true ∧ p.cur.phase = 4) := by decide +kernel

theorem test_meets_IslandEventsAct :
    tray.cur.power ≠ .off ∧ running tray = true ∧
    (tray.cur.power = .coreOn ∧ tray.cur.fastPending = false) ∧
    (let p := onCurator (fun c => { c with fastPending := true }) (onManagement (fun m => { m with record := { m.record with role := 2 } }) tray)
     p.cur.fastPending = true ∧ isTray p = false) ∧
    (managed fun m => { m with coldPending := true }).mgmt.coldPending = true ∧
    420 ≤ (onPower (fun b => { b with tempMax := 420 }) tray).power.tempMax := by decide +kernel

theorem test_meets_PowerEventsAct :
    tray.cur.power = .coreOn ∧ running tray = true ∧
    (onPower (fun b => { b with modeNow := 1 }) tray).power.modeNow = 1 ∧
    (let p := onPower (fun b => { b with
       classes := b.classes.mapIdx fun i x => if i = 13 then { x with word := BitVec.ofNat 32 (2 ^ 16), deferred := 100 } else x })
       (onTelemetry (fun b => { b with census := .pending }) tray)
     cwDefer (classWord 13 p) ≠ 0 ∧ 100 * cwDefer (classWord 13 p) ≤ (pwrClass 13 p).deferred ∧ turnEnergy 13 p ≠ 0) := by decide +kernel

theorem test_meets_OvervoltageStopsTheCoreDie :
    (62001 : Nat) ≤ 80000 ∧ 62000 < (62001 : Nat) ∧ tray.cur.power = .coreOn ∧ State.reset.part.cur.power ≠ .coreOn := by decide

/-- 62.0 V itself leaves the core die on, 62.001 V stops it (R545). -/
theorem test_overvoltage_boundary :
    (after (.vinOvervoltage 62000) (machine tray)).map (fun t => t.part.cur.power) = some .coreOn ∧
    (after (.vinOvervoltage 62001) (machine tray)).map (fun t => (t.part.cur.power, t.part.cur.haltCause)) = some (.islandOnly, 0x11) := by
  decide +kernel

end Sys2Proof.Tests
end

/-!
PROOFS. The channel hash of R22: the hash within one chunk group, its inverse, and the obligation O13.
-/

namespace Sys2Proof.Machine

/-! ### The 3-bit fold -/

theorem fold3_lt (n q : Nat) : fold3 n q < 8 := by
  induction n generalizing q with
  | zero => exact Nat.succ_pos 7
  | succ n ih => exact Nat.xor_lt_two_pow (n := 3) (Nat.mod_lt q (by norm_num)) (ih (q / 8))

/-- The `k`-th 3-bit digit of a number without its last digit is the digit above. -/
theorem digit_div_eight (q k : Nat) : field (q / 8) (3 * k + 2) (3 * k) = field q (3 * (k + 1) + 2) (3 * (k + 1)) := by
  have hw (m : Nat) : 3 * m + 2 + 1 - 3 * m = 3 := by omega
  have hp : 2 ^ (3 * (k + 1)) = 8 * 2 ^ (3 * k) := by rw [Nat.mul_succ, pow_add, Nat.mul_comm]; norm_num
  rw [field_eq_div, field_eq_div, hw, hw, hp, Nat.div_div_eq_div_mul]

/-- `fold3` peels digits off from the low end; R22 writes the same fold over the digit positions. -/
theorem foldl_digits_eq_fold3 (n q a : Nat) :
    (List.range n).foldl (fun x k => x ^^^ field q (3 * k + 2) (3 * k)) a = a ^^^ fold3 n q := by
  induction n generalizing q a with
  | zero => exact (Nat.xor_zero a).symm
  | succ n ih =>
    have hlow : field q 2 0 = q % 8 := by simp [field_eq_div]
    rw [List.range_succ_eq_map, List.foldl_cons, List.foldl_map]
    simp only [Nat.succ_eq_add_one, ← digit_div_eight, ih, Nat.mul_zero, Nat.zero_add, hlow, fold3, Nat.xor_assoc]

/-! ### The hash within one chunk group -/

/-- The channel of the chunk at position `j` of chunk group `q` (R22). -/
def channelInGroup (q j : Nat) : Nat := 3 * ((j / 3) ^^^ fold3 13 q) + (j % 3 + q % 3) % 3

/-- The position in chunk group `q` of the chunk that channel `c` holds: the fold and the rotation undone. -/
def positionInGroup (q c : Nat) : Nat := 3 * ((c / 3) ^^^ fold3 13 q) + (c % 3 + (3 - q % 3)) % 3

theorem interleaveHash_eq (offset : Nat) :
    interleaveHash offset = (channelInGroup (offset / 512 / 24) (offset / 512 % 24), offset / 512 / 24 * 512 + offset % 512) := rfl

theorem interleaveHash_chunk (q k : Nat) (hk : k < 24) : (interleaveHash ((24 * q + k) * 512)).1 = channelInGroup q k := by
  have hq : (24 * q + k) * 512 / 512 / 24 = q := by omega
  have hj : (24 * q + k) * 512 / 512 % 24 = k := by omega
  rw [interleaveHash_eq, hq, hj]

/-- Both maps act on the digits `c / 3` and `c % 3` separately: an exclusive or, undone by itself, and a rotation. -/
theorem channelInGroup_eq_iff (q j c : Nat) : channelInGroup q j = c ↔ j = positionInGroup q c := by
  have hfold : (j / 3) ^^^ fold3 13 q = c / 3 ↔ (c / 3) ^^^ fold3 13 q = j / 3 := by
    constructor <;> (intro h; rw [← h, Nat.xor_xor_cancel_right])
  unfold channelInGroup positionInGroup
  omega

theorem positionInGroup_lt (q c : Nat) (hc : c < 24) : positionInGroup q c < 24 := by
  have hu : (c / 3) ^^^ fold3 13 q < 2 ^ 3 := Nat.xor_lt_two_pow (by omega) (fold3_lt 13 q)
  unfold positionInGroup
  omega

theorem channelInGroup_injective (q : Nat) : Function.Injective (channelInGroup q) := fun i j h =>
  ((channelInGroup_eq_iff q i _).1 h).trans ((channelInGroup_eq_iff q j _).1 rfl).symm

/-- The channel address gives the group and the byte within the chunk, and then the channel gives the position in the group. -/
theorem interleaveHash_injective : Function.Injective interleaveHash := by
  intro a b h
  rw [interleaveHash_eq, interleaveHash_eq, Prod.mk.injEq] at h
  obtain ⟨hchannel, haddr⟩ := h
  have hgroup : a / 512 / 24 = b / 512 / 24 := by omega
  have hposition : a / 512 % 24 = b / 512 % 24 := channelInGroup_injective _ (hgroup ▸ hchannel)
  omega

/-- Settles O13: R22's formula is `interleaveHash` digit by digit, `positionInGroup` finds the one chunk of a group that a
channel holds, and the hash is injective. -/
theorem channelHashIsOneToOne : Obligations.ChannelHashIsOneToOne := by
  unfold Obligations.ChannelHashIsOneToOne
  refine ⟨fun offset => ?formula, fun q c hc => ⟨positionInGroup q c, positionInGroup_lt q c hc, fun k hk => ?chunk⟩,
    fun _ _ h => interleaveHash_injective h⟩
  case formula =>
    have hlow : field offset 8 0 = offset % 512 := by simp [field_eq_div]
    simp only [foldl_digits_eq_fold3, Nat.zero_xor, hlow]
    rfl
  case chunk => rw [interleaveHash_chunk q k hk, channelInGroup_eq_iff]

end Sys2Proof.Machine

/-!
PROOFS. The headers of R55 and R56: a header word as the row of its fields, the words that a message's bytes spell, and the obligations
O9 and O10.
-/

namespace Sys2Proof.Machine

/-! ### A word as the row of its fields -/

/-- The fields of a word from bit 0 up and without gaps: each a width and a value of that width. -/
abbrev FieldRow : Type := List (Σ width : Nat, BitVec width)

/-- The number whose fields are `fs`. -/
def packFields : FieldRow → Nat
  | [] => 0
  | ⟨width, v⟩ :: fs => v.toNat + 2 ^ width * packFields fs

theorem packFields_lt (fs : FieldRow) : packFields fs < 2 ^ (fs.map (·.1)).sum := by
  induction fs with
  | nil => exact Nat.one_pos
  | cons f fs ih =>
    obtain ⟨width, v⟩ := f
    have hv := v.isLt
    calc v.toNat + 2 ^ width * packFields fs
      _ < 2 ^ width * (packFields fs + 1) := by rw [Nat.mul_succ]; omega
      _ ≤ 2 ^ width * 2 ^ (fs.map (·.1)).sum := Nat.mul_le_mul_left _ ih
      _ = 2 ^ (width + (fs.map (·.1)).sum) := (pow_add ..).symm

/-- Shifting the first field out leaves the others. -/
theorem packFields_cons_div (width : Nat) (v : BitVec width) (fs : FieldRow) :
    packFields (⟨width, v⟩ :: fs) / 2 ^ width = packFields fs := by
  rw [packFields, Nat.add_mul_div_left _ _ (by positivity), Nat.div_eq_of_lt v.isLt, Nat.zero_add]

/-- The lowest field of the row. -/
@[simp] theorem field_packFields_head (width hi : Nat) (v : BitVec width) (fs : FieldRow) (h : hi + 1 = width) :
    field (packFields (⟨width, v⟩ :: fs)) hi 0 = v.toNat := by
  rw [field_eq_div, h, Nat.sub_zero, pow_zero, Nat.div_one, packFields, Nat.add_mul_mod_self_left, Nat.mod_eq_of_lt v.isLt]

/-- A field above the lowest one is a field of the rest of the row. -/
@[simp] theorem field_packFields_tail (width hi lo : Nat) (v : BitVec width) (fs : FieldRow)
    (hlo : width ≤ lo) (hhi : lo ≤ hi) :
    field (packFields (⟨width, v⟩ :: fs)) hi lo = field (packFields fs) (hi - width) (lo - width) := by
  have hlen : hi + 1 - lo = hi - width + 1 - (lo - width) := by omega
  have hpow : 2 ^ lo = 2 ^ width * 2 ^ (lo - width) := by rw [← pow_add, Nat.add_sub_cancel' hlo]
  rw [field_eq_div, field_eq_div, hlen, hpow, ← Nat.div_div_eq_div_mul, packFields_cons_div]

theorem bitAt_eq_field (n i : Nat) : bitAt n i = decide (field n i i = 1) := by
  rw [bitAt_eq, field_eq_div, Nat.add_sub_cancel_left, pow_one]

/-- A field of one bit. -/
@[simp] theorem bitAt_packFields_head (v : BitVec 1) (fs : FieldRow) :
    bitAt (packFields (⟨1, v⟩ :: fs)) 0 = v.getLsbD 0 := by
  have hv : v.toNat % 2 = v.toNat := Nat.mod_eq_of_lt v.isLt
  rw [bitAt_eq_field, field_packFields_head 1 0 v fs rfl, BitVec.getLsbD, Nat.testBit_zero, hv]

/-- A bit above the lowest field is a bit of the rest of the row. -/
@[simp] theorem bitAt_packFields_tail (width i : Nat) (v : BitVec width) (fs : FieldRow) (h : width ≤ i) :
    bitAt (packFields (⟨width, v⟩ :: fs)) i = bitAt (packFields fs) (i - width) := by
  rw [bitAt_eq_field, bitAt_eq_field, field_packFields_tail width i i v fs h le_rfl]

theorem bitOf_eq_toNat_ofBool (b : Bool) : bitOf b = (BitVec.ofBool b).toNat := by cases b <;> rfl

/-! ### The header words as rows of fields -/

/-- Word 0 of R55's table. -/
def reqRow0 (m : Msg) : FieldRow :=
  [⟨8, m.op⟩, ⟨3, m.vc⟩, ⟨7, m.len⟩, ⟨3, m.gallery⟩, ⟨12, m.srcPart⟩, ⟨9, m.srcPort⟩, ⟨12, m.dstPart⟩, ⟨9, m.dstPort⟩,
   ⟨1, 0#1⟩]

/-- Word 1 of R55's table. -/
def reqRow1 (m : Msg) : FieldRow :=
  [⟨16, m.tag⟩, ⟨16, m.epoch⟩, ⟨24, m.sseq⟩, ⟨1, BitVec.ofBool m.ord⟩, ⟨1, BitVec.ofBool m.syn⟩, ⟨1, BitVec.ofBool m.retx⟩,
   ⟨1, BitVec.ofBool m.after⟩, ⟨4, 0#4⟩]

/-- Word 2 of R55's table. -/
def reqRow2 (m : Msg) : FieldRow := [⟨58, m.addr⟩, ⟨1, BitVec.ofBool m.na⟩, ⟨5, 0#5⟩]

/-- Word 0 of R56's table. -/
def rspRow0 (m : Msg) : FieldRow :=
  [⟨8, m.op⟩, ⟨3, m.vc⟩, ⟨7, m.len⟩, ⟨3, m.gallery⟩, ⟨12, m.dstPart⟩, ⟨9, m.dstPort⟩, ⟨12, m.srcPart⟩, ⟨4, m.status⟩,
   ⟨1, BitVec.ofBool m.resync⟩, ⟨5, 0#5⟩]

/-- Word 1 of R56's table. -/
def rspRow1 (m : Msg) : FieldRow := [⟨16, m.tag⟩, ⟨24, m.sseq⟩, ⟨24, m.aux⟩]

theorem reqWord0_eq_packFields (m : Msg) : reqWord0 m = packFields (reqRow0 m) := by
  simp only [reqWord0, reqRow0, packFields, BitVec.toNat_zero]
  ring

theorem reqWord1_eq_packFields (m : Msg) : reqWord1 m = packFields (reqRow1 m) := by
  simp only [reqWord1, reqRow1, packFields, bitOf_eq_toNat_ofBool, BitVec.toNat_zero]
  ring

theorem reqWord2_eq_packFields (m : Msg) : reqWord2 m = packFields (reqRow2 m) := by
  simp only [reqWord2, reqRow2, packFields, bitOf_eq_toNat_ofBool, BitVec.toNat_zero]
  ring

theorem rspWord0_eq_packFields (m : Msg) : rspWord0 m = packFields (rspRow0 m) := by
  simp only [rspWord0, rspRow0, packFields, bitOf_eq_toNat_ofBool, BitVec.toNat_zero]
  ring

theorem rspWord1_eq_packFields (m : Msg) : rspWord1 m = packFields (rspRow1 m) := by
  simp only [rspWord1, rspRow1, packFields]
  ring

/-! ### The words that a message's bytes spell -/

/-- A word at the front of the bytes is read back. -/
theorem leAt_word_head (n : Nat) (bs : List Byte) (h : n < 2 ^ 64) : leAt (leBytes 8 n ++ bs) (8 * 0) 8 = n :=
  (leAt_leBytes_append 8 n bs).trans (Nat.mod_eq_of_lt h)

/-- The words behind the first. -/
theorem leAt_word_tail (n k : Nat) (bs : List Byte) : leAt (leBytes 8 n ++ bs) (8 * (k + 1)) 8 = leAt bs (8 * k) 8 := by
  simp only [leAt, Nat.mul_succ, Nat.add_comm _ 8, ← List.drop_drop, List.drop_left' (leBytes_length 8 n)]

theorem msgBytes_length (m : Msg) : (msgBytes m).length = 4 * hdrUnits (msgClass m) + m.data.length := by
  unfold msgBytes hdrUnits
  split <;> simp only [List.length_append, leBytes_length]

/-- LEN of a message on the wire counts its bytes, in units of 4. -/
theorem len_of_onWire (m : Msg) (h : onWire m = true) : 4 * m.len.toNat = (msgBytes m).length := by
  obtain ⟨hlen, -⟩ := (Bool.and_eq_true _ _).mp h
  rw [msgBytes_length, ← of_decide_eq_true hlen, Nat.add_comm]

/-- The bytes of a request begin with the four words of R55. -/
theorem request_words (m : Msg) (h : longHeader (msgClass m) = true) :
    leAt (msgBytes m) (8 * 0) 8 = packFields (reqRow0 m) ∧ leAt (msgBytes m) (8 * 1) 8 = packFields (reqRow1 m) ∧
    leAt (msgBytes m) (8 * 2) 8 = packFields (reqRow2 m) ∧ leAt (msgBytes m) (8 * 3) 8 = m.oparg.toNat := by
  have hbytes : msgBytes m = leBytes 8 (packFields (reqRow0 m)) ++ (leBytes 8 (packFields (reqRow1 m)) ++
      (leBytes 8 (packFields (reqRow2 m)) ++ (leBytes 8 m.oparg.toNat ++ m.data))) := by
    simp only [msgBytes, h, if_true, reqWord0_eq_packFields, reqWord1_eq_packFields, reqWord2_eq_packFields, List.append_assoc]
  rw [hbytes]
  refine ⟨leAt_word_head _ _ (packFields_lt _), ?_, ?_, ?_⟩
  · rw [leAt_word_tail, leAt_word_head _ _ (packFields_lt _)]
  · rw [leAt_word_tail, leAt_word_tail, leAt_word_head _ _ (packFields_lt _)]
  · rw [leAt_word_tail, leAt_word_tail, leAt_word_tail, leAt_word_head _ _ m.oparg.isLt]

/-- The bytes of a response begin with the two words of R56. -/
theorem response_words (m : Msg) (h : longHeader (msgClass m) = false) :
    leAt (msgBytes m) (8 * 0) 8 = packFields (rspRow0 m) ∧ leAt (msgBytes m) (8 * 1) 8 = packFields (rspRow1 m) := by
  have hbytes : msgBytes m = leBytes 8 (packFields (rspRow0 m)) ++ (leBytes 8 (packFields (rspRow1 m)) ++ m.data) := by
    simp only [msgBytes, h, Bool.false_eq_true, if_false, rspWord0_eq_packFields, rspWord1_eq_packFields, List.append_assoc]
  rw [hbytes]
  refine ⟨leAt_word_head _ _ (packFields_lt _), ?_⟩
  rw [leAt_word_tail, leAt_word_head _ _ (packFields_lt _)]

/-- Settles O9: the four words of the bytes are the rows of R55's table, and each field is found by passing over the fields below it. -/
theorem requestHeaderHasItsLayout : Obligations.RequestHeaderHasItsLayout := by
  intro m hclass hwire w
  obtain ⟨h0, h1, h2, h3⟩ : w 0 = packFields (reqRow0 m) ∧ w 1 = packFields (reqRow1 m) ∧ w 2 = packFields (reqRow2 m) ∧
      w 3 = m.oparg.toNat := request_words m hclass
  rw [h0, h1, h2, h3, ← len_of_onWire m hwire]
  simp [reqRow0, reqRow1, reqRow2]

/-- Settles O10: the two words of the bytes are the rows of R56's table, and each field is found by passing over the fields below it. -/
theorem responseHeaderHasItsLayout : Obligations.ResponseHeaderHasItsLayout := by
  intro m hclass hwire w
  obtain ⟨h0, h1⟩ : w 0 = packFields (rspRow0 m) ∧ w 1 = packFields (rspRow1 m) := response_words m hclass
  rw [h0, h1, ← len_of_onWire m hwire]
  simp [rspRow0, rspRow1]

end Sys2Proof.Machine

/-!
PROOFS. The integer reductions of R168: two's complement values as those of bit vectors, saturation at a width, and the obligation O15.
-/

namespace Sys2Proof.Machine

/-! ### Two's complement values -/

theorem signed_eq_toInt (w n : Nat) (hw : 0 < w) : signed w n = (BitVec.ofNat w n).toInt := by
  have hpow : 2 ^ w = 2 * 2 ^ (w - 1) := by rw [← pow_succ', Nat.sub_add_cancel hw]
  have hhalf : n % 2 ^ w < 2 ^ (w - 1) ↔ 2 * (n % 2 ^ w) < 2 ^ w := by omega
  simp only [signed, BitVec.toInt, BitVec.toNat_ofNat, hhalf]

theorem unsign_eq_toNat (w : Nat) (z : Int) : unsign w z = (BitVec.ofInt w z).toNat := (BitVec.toNat_ofInt z).symm

theorem neg_two_pow_le_signed (w n : Nat) (hw : 0 < w) : -2 ^ (w - 1) ≤ signed w n :=
  signed_eq_toInt w n hw ▸ BitVec.le_toInt _

theorem signed_lt_two_pow (w n : Nat) (hw : 0 < w) : signed w n < 2 ^ (w - 1) :=
  signed_eq_toInt w n hw ▸ BitVec.toInt_lt

theorem signed_mod_two_pow (w n : Nat) : signed w (n % 2 ^ w) = signed w n := by
  simp only [signed, Nat.mod_mod]

/-- A value that `w` bits can hold is read back from its pattern. -/
theorem signed_unsign (w : Nat) (z : Int) (hw : 0 < w) (hlo : -2 ^ (w - 1) ≤ z) (hhi : z < 2 ^ (w - 1)) :
    signed w (unsign w z) = z := by
  rw [unsign_eq_toNat, signed_eq_toInt w _ hw, BitVec.ofNat_toNat, BitVec.setWidth_eq]
  exact BitVec.toInt_ofInt_eq_self hw hlo hhi

/-! ### Saturation -/

/-- Saturation clamps to the ends of the range and marks what lies outside it (R168). -/
theorem satInt_eq_clamp (w : Nat) (z : Int) :
    satInt w z = (unsign w (max (-2 ^ (w - 1)) (min (2 ^ (w - 1) - 1) z)),
      decide (z < -2 ^ (w - 1) ∨ 2 ^ (w - 1) - 1 < z)) := by
  have hpos : (0 : Int) < 2 ^ (w - 1) := by positivity
  dsimp only [satInt]
  split_ifs with hhi hlo
  case pos => rw [min_eq_left hhi.le, max_eq_right (by omega), decide_eq_true (Or.inr hhi)]
  case pos => rw [min_eq_right (by omega), max_eq_left hlo.le, decide_eq_true (Or.inl hlo)]
  case neg => rw [min_eq_right (by omega), max_eq_right (by omega), decide_eq_false (by omega)]

theorem signed_satInt (w : Nat) (z : Int) (hw : 0 < w) :
    signed w (satInt w z).1 = max (-2 ^ (w - 1)) (min (2 ^ (w - 1) - 1) z) := by
  have hpos : (0 : Int) < 2 ^ (w - 1) := by positivity
  rw [satInt_eq_clamp]
  exact signed_unsign w _ hw (by omega) (by omega)

theorem satInt_sat_iff (w : Nat) (z : Int) : (satInt w z).2 = true ↔ z < -2 ^ (w - 1) ∨ 2 ^ (w - 1) - 1 < z := by
  rw [satInt_eq_clamp, decide_eq_true_iff]

/-! ### The operations of an integer format -/

section Operations

variable (fmt x y : Nat) (h : isFloatFmt fmt = false)
include h

theorem combineElement_sum :
    combineElement fmt 0 (x, false) (y, false) = satInt 32 (signed 32 x + signed 32 y) := by
  simp [combineElement, h]

theorem combineElement_min :
    combineElement fmt 1 (x, false) (y, false) = (if signed 32 y < signed 32 x then y else x, false) := by
  simp [combineElement, h]

theorem combineElement_max :
    combineElement fmt 2 (x, false) (y, false) = (if signed 32 x < signed 32 y then y else x, false) := by
  simp [combineElement, h]

theorem combineElement_band : combineElement fmt 4 (x, false) (y, false) = (x &&& y, false) := by
  simp [combineElement, h]

theorem combineElement_bor : combineElement fmt 5 (x, false) (y, false) = (x ||| y, false) := by
  simp [combineElement, h]

theorem combineElement_bxor : combineElement fmt 6 (x, false) (y, false) = (x ^^^ y, false) := by
  simp [combineElement, h]

end Operations

/-! ### Integer inputs and outputs -/

/-- An INT8 input keeps its value when it is widened to INT32. -/
theorem signed_chunkElement_int8 (n i : Nat) (data : List Byte) :
    signed 32 (chunkElement 8 n data i).1 = signed 8 (leAt data i 1) := by
  have hlo := neg_two_pow_le_signed 8 (leAt data i 1) (by decide)
  have hhi := signed_lt_two_pow 8 (leAt data i 1) (by decide)
  exact signed_unsign 32 _ (by decide) (by omega) (by omega)

/-- An INT8 chunk of one element: its byte, padded to four (R148). -/
theorem encodeChunk_int8_singleton (x : Nat) :
    encodeChunk 8 [x] = (leBytes 1 (satInt 8 (signed 32 x)).1 ++ [0, 0, 0], (satInt 8 (signed 32 x)).2) := by
  simp [encodeChunk, sliceBytes, leBytes, chunkBytes, pad4, ceilDiv, List.replicate]

theorem encodeChunk_int32_singleton (x : Nat) : encodeChunk 9 [x] = (leBytes 4 x, false) := by
  simp [encodeChunk]

/-- Settles O15: INT8 widens without loss, SUM and the INT8 output are `satInt` at widths 32 and 8, and the other operations
choose or combine the patterns. -/
theorem integerReductionsAreExact : Obligations.IntegerReductionsAreExact := by
  unfold Obligations.IntegerReductionsAreExact
  refine ⟨fun n i data => ⟨signed_chunkElement_int8 n i data, rfl⟩, fun fmt x y hfmt _ _ => ?combine, fun x _ => ?output⟩
  case combine =>
    have hint : isFloatFmt fmt = false := by rcases hfmt with rfl | rfl <;> rfl
    simp only [combineElement_sum fmt x y hint, combineElement_min fmt x y hint, combineElement_max fmt x y hint]
    refine ⟨signed_satInt 32 _ (by decide), satInt_sat_iff 32 _, ?min, ?max, trivial, trivial, combineElement_band fmt x y hint,
      combineElement_bor fmt x y hint, combineElement_bxor fmt x y hint⟩
    case min => rw [apply_ite (signed 32)]; omega
    case max => rw [apply_ite (signed 32)]; omega
  case output =>
    have hbyte (y : Nat) : signed 8 (leAt (leBytes 1 y ++ [0, 0, 0]) 0 1) = signed 8 y := by
      rw [leAt_leBytes_append]; exact signed_mod_two_pow 8 y
    rw [encodeChunk_int8_singleton, hbyte]
    exact ⟨signed_satInt 8 _ (by decide), satInt_sat_iff 8 _, encodeChunk_int32_singleton x⟩

end Sys2Proof.Machine

/-!
PROOFS. The machine as a whole: every command but a damaging overvoltage settles the part and leaves the queue alone, settling notes the
starved regions, and the obligations O1 to O7.
-/

namespace Sys2Proof.Machine

/-! ### What a command leaves of the queue -/

/-- A command that does one thing to the part settles what that leaves. -/
theorem onPart_of_eq {f : Part → Part} {s : State} {p : Part} (h : f s.part = p) : onPart f s = .next (settled s p) := by
  rw [← h]; rfl

/-- Every command but VIN_OVERVOLTAGE completes: it acts on the part, which settles. -/
theorem exec_settles (c : Instr) (s : State) (h : ∀ mv : Nat, c ≠ .vinOvervoltage mv) : ∃ p : Part, exec c s = .next (settled s p) := by
  cases c with
  | vinOvervoltage mv => exact absurd rfl (h mv)
  | _ => exact ⟨_, rfl⟩

/-- An overvoltage within the transient rating, or of a part without power, completes. -/
theorem exec_vinOvervoltage_endured (mv : Nat) (s : State) (h : ¬ (80000 < mv ∧ s.part.cur.power ≠ .off)) :
    exec (.vinOvervoltage mv) s = .next (settled s (vinHigh mv s.part)) := by
  show (if _ then _ else _) = _
  rw [if_neg (by simpa using h)]
  rfl

/-- An overvoltage beyond the transient rating stops a powered part (R556). -/
theorem exec_vinOvervoltage_damages (mv : Nat) (s : State) (h : 80000 < mv ∧ s.part.cur.power ≠ .off) :
    exec (.vinOvervoltage mv) s = .fault .damaged := by
  show (if _ then _ else _) = _
  rw [if_pos (by simpa using h)]

/-- What a command can come to: it settles the part, or it is the overvoltage that damages it. -/
theorem exec_cases (c : Instr) (s : State) :
    (∃ p : Part, exec c s = .next (settled s p)) ∨
    (exec c s = .fault .damaged ∧ s.part.cur.power ≠ .off ∧ ∃ mv : Nat, c = .vinOvervoltage mv ∧ 80000 < mv) := by
  by_cases h : ∃ mv : Nat, c = .vinOvervoltage mv
  · obtain ⟨mv, rfl⟩ := h
    by_cases hd : 80000 < mv ∧ s.part.cur.power ≠ .off
    · exact .inr ⟨exec_vinOvervoltage_damages mv s hd, hd.2, mv, rfl, hd.1⟩
    · exact .inl ⟨_, exec_vinOvervoltage_endured mv s hd⟩
  · exact .inl (exec_settles c s fun mv hmv => h ⟨mv, hmv⟩)

theorem step_nil (s : State) (h : s.pending = []) : step s = .next s := by rw [step, h]

theorem step_cons (s : State) (c : Instr) (rest : List Instr) (h : s.pending = c :: rest) :
    step s = exec c { s with pending := rest } := by rw [step, h]

/-- Settles O1. -/
theorem stepRunsTheFront : Obligations.StepRunsTheFront := fun c s => step_cons _ c s.pending rfl

@[simp] theorem settled_pending (s : State) (p : Part) : (settled s p).pending = s.pending := by rw [settled]

theorem settled_part (s : State) (p : Part) : (settled s p).part = checkStarved (settleSteps settleBound p) := by rw [settled, settle]

/-- What a step that answers a next state has done: nothing where no command waits, and else it has taken the front command and settled
what that has left. -/
theorem step_next_cases {s t : State} (h : step s = .next t) :
    s.pending = [] ∧ t = s ∨ ∃ (c : Instr) (p : Part), s.pending = c :: t.pending ∧ t.part = checkStarved p := by
  cases hq : s.pending with
  | nil =>
    rw [step_nil s hq] at h
    exact .inl ⟨rfl, (Host.Outcome.next.inj h).symm⟩
  | cons c rest =>
    rw [step_cons s c rest hq] at h
    obtain ⟨p, hp⟩ | ⟨hfault, -⟩ := exec_cases c { s with pending := rest }
    · have ht : settled { s with pending := rest } p = t := Host.Outcome.next.inj (hp.symm.trans h)
      exact .inr ⟨c, settleSteps settleBound p, by rw [← ht, settled_pending], by rw [← ht, settled_part]⟩
    · exact absurd (hfault.symm.trans h) nofun

/-- Settles O2. -/
theorem theQueueIsConsumed : Obligations.TheQueueIsConsumed := by
  refine fun s => ⟨step_nil s, fun c rest t hq hstep => ?_⟩
  obtain ⟨hnil, -⟩ | ⟨c', p, hcons, -⟩ := step_next_cases hstep
  · exact absurd (hnil.symm.trans hq) nofun
  · exact (List.cons.inj (hcons.symm.trans hq)).2

/-- A step stops only at a damaging overvoltage in front of the queue. -/
theorem step_fault_iff (s : State) (f : Fault) :
    step s = .fault f ↔
      f = .damaged ∧ s.part.cur.power ≠ .off ∧ ∃ (mv : Nat) (rest : List Instr), s.pending = .vinOvervoltage mv :: rest ∧ 80000 < mv := by
  constructor
  · intro hstep
    cases hq : s.pending with
    | nil => exact absurd ((step_nil s hq).symm.trans hstep) nofun
    | cons c rest =>
      rw [step_cons s c rest hq] at hstep
      obtain ⟨p, hp⟩ | ⟨hfault, hpower, mv, rfl, hmv⟩ := exec_cases c { s with pending := rest }
      · exact absurd (hp.symm.trans hstep) nofun
      · exact ⟨Host.Outcome.fault.inj (hstep.symm.trans hfault), hpower, mv, rest, rfl, hmv⟩
  · rintro ⟨rfl, hpower, mv, rest, hq, hmv⟩
    rw [step_cons s _ rest hq]
    exact exec_vinOvervoltage_damages mv { s with pending := rest } ⟨hmv, hpower⟩

theorem step_ne_refused (s : State) (r : Refusal) : step s ≠ .refused r := by
  cases hq : s.pending with
  | nil => rw [step_nil s hq]; nofun
  | cons c rest =>
    rw [step_cons s c rest hq]
    obtain ⟨p, hp⟩ | ⟨hfault, -⟩ := exec_cases c { s with pending := rest }
    · rw [hp]; nofun
    · rw [hfault]; nofun

/-- Settles O3. -/
theorem onlyDamageStops : Obligations.OnlyDamageStops := fun s =>
  ⟨fun c hc => exec_settles c s hc, fun mv => exec_vinOvervoltage_damages mv s, fun mv hmv => ⟨_, exec_vinOvervoltage_endured mv s hmv⟩,
    step_fault_iff s, step_ne_refused s⟩

/-! ### The record of the starved regions (R95) -/

theorem starvedNoted_regionEvent (kind slot info : Nat) {p : Part} (h : starvedNoted p) : starvedNoted (regionEvent kind slot info p) := by
  rw [starvedNoted, regionEvent_starved, starvedRegions_regionEvent]
  exact h

/-- The events of newly starved regions do not disturb the record. -/
theorem starvedNoted_foldl_regionEvent (objects : List (BitVec 64)) {p : Part} (h : starvedNoted p) :
    starvedNoted (objects.foldl (fun p o => regionEvent 4 0 o.toNat p) p) := by
  induction objects generalizing p with
  | nil => exact h
  | cons o objects ih => exact ih (starvedNoted_regionEvent 4 0 o.toNat h)

/-- The record is brought up to date whatever it was. -/
theorem starvedNoted_checkStarved (p : Part) : starvedNoted (checkStarved p) := by
  rw [checkStarved]
  split
  · next h => exact h.symm
  · exact starvedNoted_foldl_regionEvent _ rfl

theorem checkStarved_of_starvedNoted {p : Part} (h : starvedNoted p) : checkStarved p = p := by
  rw [checkStarved, if_pos h.symm]

/-- Settles O4: what follows of a command ends with the check of the starved regions. -/
theorem starvedRegionsStayNoted : Obligations.StarvedRegionsStayNoted := by
  intro s t hs hstep
  obtain ⟨-, rfl⟩ | ⟨c, p, -, hpart⟩ := step_next_cases hstep
  · exact hs
  · rw [hpart]
    exact starvedNoted_checkStarved p

/-- Settles O5. -/
theorem starvedRegionsAreNotedAtReset : Obligations.StarvedRegionsAreNotedAtReset := rfl

/-- Settles O6. -/
theorem partsAtRestStay : Obligations.PartsAtRestStay := fun p hrest hnoted =>
  (settle_rest p hrest).trans (checkStarved_of_starvedNoted hnoted)

/-! ### Reset -/

/-- Settles O7. -/
theorem resetIsUnpowered : Obligations.ResetIsUnpowered :=
  ⟨rfl, rfl, rfl, rfl, fun _ => rfl, fun _ => rfl⟩

end Sys2Proof.Machine

/-!
PROOFS. Messages on the wire: the bytes of a message say every field but the requester for whom a service asks, which no header
carries, and the obligation O8.
-/

namespace Sys2Proof.Machine

/-- The lowest field of a row, cut out by its width. -/
theorem ofNat_packFields_head (width : Nat) (v : BitVec width) (fs : FieldRow) :
    BitVec.ofNat width (packFields (⟨width, v⟩ :: fs)) = v :=
  BitVec.eq_of_toNat_eq (by rw [BitVec.toNat_ofNat, packFields, Nat.add_mul_mod_self_left, Nat.mod_eq_of_lt v.isLt])

/-- OPCODE and VC stand in the same bits of both headers, so that the bytes say which header they begin with. -/
theorem hdrClass_of_word0 (op : BitVec 8) (vc : BitVec 3) (fs : FieldRow) :
    hdrClass (packFields (⟨8, op⟩ :: ⟨3, vc⟩ :: fs) % 256) (field (packFields (⟨8, op⟩ :: ⟨3, vc⟩ :: fs)) 10 8) =
      hdrClass op.toNat vc.toNat := by
  have hop : packFields (⟨8, op⟩ :: ⟨3, vc⟩ :: fs) % 256 = op.toNat := by
    have := op.isLt
    rw [packFields]
    omega
  simp [hop]

theorem msgOfBytes_of_request (m : Msg) (h : longHeader (msgClass m) = true) :
    msgOfBytes (msgBytes m) =
      reqOfWords (packFields (reqRow0 m)) (packFields (reqRow1 m)) (packFields (reqRow2 m)) m.oparg.toNat m.data := by
  obtain ⟨h0, h1, h2, h3⟩ := request_words m h
  have hdata : (msgBytes m).drop 32 = m.data := by
    simp only [msgBytes, h, if_true]
    exact List.drop_left' (by simp)
  simp only [Nat.reduceMul] at h0 h1 h2 h3
  rw [msgOfBytes, h0, h1, h2, h3, hdata, reqRow0, hdrClass_of_word0]
  exact if_pos h

theorem msgOfBytes_of_response (m : Msg) (h : longHeader (msgClass m) = false) :
    msgOfBytes (msgBytes m) = rspOfWords (packFields (rspRow0 m)) (packFields (rspRow1 m)) m.data := by
  obtain ⟨h0, h1⟩ := response_words m h
  have hdata : (msgBytes m).drop 16 = m.data := by
    simp only [msgBytes, h, Bool.false_eq_true, if_false]
    exact List.drop_left' (by simp)
  simp only [Nat.reduceMul] at h0 h1
  rw [msgOfBytes, h0, h1, hdata, rspRow0, hdrClass_of_word0]
  exact if_neg (by rw [msgClass] at h; simp [h])

/-- Reading the bytes of a message gives back all of it that a header has room for. -/
theorem msgOfBytes_msgBytes (m : Msg) (h : onWire m = true) : msgOfBytes (msgBytes m) = { m with behalf := none } := by
  obtain ⟨-, hzero⟩ := (Bool.and_eq_true _ _).mp h
  cases hclass : longHeader (msgClass m) with
  | true =>
    rw [hclass] at hzero
    obtain ⟨⟨hstatus, hresync⟩, haux⟩ : (m.status = 0 ∧ m.resync = false) ∧ m.aux = 0 := by simpa using hzero
    rw [msgOfBytes_of_request m hclass]
    simp [reqOfWords, reqRow0, reqRow1, reqRow2, Msg.blank, ofNat_packFields_head, hstatus, hresync, haux]
  | false =>
    rw [hclass] at hzero
    rw [msgOfBytes_of_response m hclass]
    simp at hzero
    simp [rspOfWords, rspRow0, rspRow1, Msg.blank, ofNat_packFields_head, hzero]

/-- A read of a line by an engine, for an endpoint: its fields suit the wire, but for the endpoint itself. -/
def readOnBehalf : Msg := { Msg.blank with op := 0x01, len := 8, behalf := some (0, 0) }

/-- Refutes O8: `onWire` does not ask that `behalf` be empty, and no byte of the message says it. -/
theorem not_messagesCrossTheWire : ¬ Obligations.MessagesCrossTheWire := by
  intro h
  have hwire : onWire readOnBehalf = true := by decide
  have hlost : { readOnBehalf with behalf := none } = readOnBehalf :=
    (msgOfBytes_msgBytes readOnBehalf hwire).symm.trans (h readOnBehalf hwire)
  exact absurd (congrArg Msg.behalf hlost) (by decide)

end Sys2Proof.Machine

/-!
PROOFS. The CRC of a flit: the register is never the same after two different bytes, so that one changed byte is always seen, and the
obligation O11.
-/

namespace Sys2Proof.Machine

/-! ### The register -/

/-- One step of the CRC register. -/
def crcShift (r : Nat) : Nat := if r % 2 = 1 then (r / 2) ^^^ 0xC96C5795D7870F42 else r / 2

theorem crcBits_succ (k r : Nat) : crcBits (k + 1) r = crcBits k (crcShift r) := rfl

theorem crcShift_lt {r : Nat} (h : r < 2 ^ 64) : crcShift r < 2 ^ 64 := crcBits_lt 1 r h

/-- The polynomial has its top bit set, which a register shifted down has not: the step shows the bit that it has taken. -/
theorem testBit_crcShift {r : Nat} (h : r < 2 ^ 64) : (crcShift r).testBit 63 = decide (r % 2 = 1) := by
  have htop : (r / 2).testBit 63 = false := Nat.testBit_lt_two_pow (by omega)
  unfold crcShift
  split
  · next hodd => rw [Nat.testBit_xor, htop, decide_eq_true hodd]; decide
  · next heven => rw [htop, decide_eq_false heven]

theorem crcShift_inj {r s : Nat} (hr : r < 2 ^ 64) (hs : s < 2 ^ 64) (h : crcShift r = crcShift s) : r = s := by
  have hodd : r % 2 = 1 ↔ s % 2 = 1 :=
    decide_eq_decide.mp ((testBit_crcShift hr).symm.trans ((congrArg (Nat.testBit · 63) h).trans (testBit_crcShift hs)))
  have hhalf : r / 2 = s / 2 := by
    unfold crcShift at h
    split at h
    · next h1 => rwa [if_pos (hodd.mp h1), Nat.xor_left_inj] at h
    · next h1 => rwa [if_neg (mt hodd.mpr h1)] at h
  omega

theorem crcBits_inj (k : Nat) {r s : Nat} (hr : r < 2 ^ 64) (hs : s < 2 ^ 64) (h : crcBits k r = crcBits k s) : r = s := by
  induction k generalizing r s with
  | zero => exact h
  | succ k ih =>
    rw [crcBits_succ, crcBits_succ] at h
    exact crcShift_inj hr hs (ih (crcShift_lt hr) (crcShift_lt hs) h)

theorem xor_byte_lt {r : Nat} (h : r < 2 ^ 64) (b : Byte) : r ^^^ b.toNat < 2 ^ 64 :=
  Nat.xor_lt_two_pow h (lt_trans b.isLt (by norm_num))

theorem crcByte_lt {r : Nat} (h : r < 2 ^ 64) (b : Byte) : crcByte r b < 2 ^ 64 := crcBits_lt 8 _ (xor_byte_lt h b)

/-- Two registers stay different over the same byte. -/
theorem crcByte_inj_left {r s : Nat} (b : Byte) (hr : r < 2 ^ 64) (hs : s < 2 ^ 64) (h : crcByte r b = crcByte s b) : r = s :=
  Nat.xor_left_inj.mp (crcBits_inj 8 (xor_byte_lt hr b) (xor_byte_lt hs b) h)

/-- Two bytes leave one register different. -/
theorem crcByte_inj_right {r : Nat} (a b : Byte) (hr : r < 2 ^ 64) (h : crcByte r a = crcByte r b) : a = b :=
  BitVec.eq_of_toNat_eq (Nat.xor_right_inj.mp (crcBits_inj 8 (xor_byte_lt hr a) (xor_byte_lt hr b) h))

theorem foldl_crcByte_lt (bs : List Byte) {r : Nat} (h : r < 2 ^ 64) : bs.foldl crcByte r < 2 ^ 64 := by
  induction bs generalizing r with
  | nil => exact h
  | cons b bs ih => exact ih (crcByte_lt h b)

theorem foldl_crcByte_inj (bs : List Byte) {r s : Nat} (hr : r < 2 ^ 64) (hs : s < 2 ^ 64)
    (h : bs.foldl crcByte r = bs.foldl crcByte s) : r = s := by
  induction bs generalizing r s with
  | nil => exact h
  | cons b bs ih => exact crcByte_inj_left b hr hs (ih (crcByte_lt hr b) (crcByte_lt hs b) h)

/-- Two byte strings that differ in one byte have different CRCs. -/
theorem crc64_inj_middle (as bs : List Byte) (a b : Byte) (h : crc64 (as ++ a :: bs) = crc64 (as ++ b :: bs)) : a = b := by
  have hreg : as.foldl crcByte 0xFFFFFFFFFFFFFFFF < 2 ^ 64 := foldl_crcByte_lt as (by norm_num)
  have hfold := Nat.xor_left_inj.mp h
  rw [List.foldl_append, List.foldl_append, List.foldl_cons, List.foldl_cons] at hfold
  exact crcByte_inj_right a b hreg (foldl_crcByte_inj bs (crcByte_lt hreg a) (crcByte_lt hreg b) hfold)

theorem crc64_set_ne (bs : List Byte) (k : Nat) (b : Byte) (hk : k < bs.length) (hb : b ≠ bs[k]) : crc64 (bs.set k b) ≠ crc64 bs := by
  intro h
  rw [List.set_eq_take_append_cons_drop, if_pos hk] at h
  conv_rhs at h => rw [← List.take_append_drop k bs, List.drop_eq_getElem_cons hk]
  exact hb (crc64_inj_middle _ _ _ _ h)

/-! ### Numbers and their bytes -/

theorem ofLe_inj {as bs : List Byte} (hlen : as.length = bs.length) (h : ofLe as = ofLe bs) : as = bs := by
  induction as generalizing bs with
  | nil => exact (List.length_eq_zero_iff.mp hlen.symm).symm
  | cons a as ih =>
    obtain _ | ⟨b, bs⟩ := bs
    · cases hlen
    · have ha := a.isLt
      have hb := b.isLt
      simp only [ofLe] at h
      rw [BitVec.eq_of_toNat_eq (show a.toNat = b.toNat by omega), ih (Nat.succ.inj hlen) (by omega)]

theorem ofLe_set_ne (bs : List Byte) (k : Nat) (b : Byte) (hk : k < bs.length) (hb : b ≠ bs[k]) : ofLe (bs.set k b) ≠ ofLe bs := by
  intro h
  have hset := ofLe_inj List.length_set h
  exact hb (by simpa [hk] using congrArg (·[k]?) hset)

/-! ### Flits -/

/-- The first 248 bytes of a flit, over which its CRC is taken (R45). -/
def flitBody (header : Nat) (payload : List Byte) : List Byte := leBytes 12 header ++ payload

theorem mkFlit_eq (header : Nat) (payload : List Byte) (h : payload.length = 236) :
    mkFlit header payload = flitBody header payload ++ leBytes 8 (crc64 (flitBody header payload)) := by
  have hslice : sliceBytes payload 0 236 = payload := by simp [sliceBytes, ← h]
  rw [mkFlit, hslice]
  rfl

theorem flitBody_length (header : Nat) (payload : List Byte) (h : payload.length = 236) : (flitBody header payload).length = 248 := by
  simp [flitBody, h]

/-- A flit whose last eight bytes spell the CRC of the others is good. -/
theorem flitGood_append_crc (body : List Byte) (h : body.length = 248) : flitGood (body ++ leBytes 8 (crc64 body)) = true := by
  have hcrc : leAt (body ++ leBytes 8 (crc64 body)) 248 8 = crc64 body := by
    rw [leAt_append body _ 248 8 h, ← List.append_nil (leBytes 8 (crc64 body)), leAt_leBytes_append,
      Nat.mod_eq_of_lt (lt_of_lt_of_le (crc64_lt body) (by norm_num))]
  simp [flitGood, hcrc, h]

/-- A good flit with one byte changed is bad: a byte of the body changes the CRC, and a byte of the CRC changes what is stored. -/
theorem flitGood_set (f : List Byte) (k : Nat) (b : Byte) (hf : flitGood f = true) (hk : k < f.length) (hb : b ≠ f[k]) :
    flitGood (f.set k b) = false := by
  obtain ⟨hlen, hcrc⟩ : f.length = 256 ∧ leAt f 248 8 = crc64 (f.take 248) := by simpa [flitGood] using hf
  have hstored (g : List Byte) (hg : g.length = 256) : leAt g 248 8 = ofLe (g.drop 248) := by
    rw [leAt, List.take_of_length_le (by simp [hg])]
  suffices leAt (f.set k b) 248 8 ≠ crc64 ((f.set k b).take 248) by simp [flitGood, this]
  rw [hstored f hlen] at hcrc
  rw [hstored _ (by simp [hlen])]
  by_cases hbody : k < 248
  · rw [List.drop_set_of_lt hbody, hcrc, List.take_set]
    exact (crc64_set_ne _ k b (by simp [hbody, hk]) (by simpa using hb)).symm
  · rw [List.take_set_of_le (by omega), ← hcrc, List.drop_set, if_neg hbody]
    have hplace : 248 + (k - 248) = k := by omega
    exact ofLe_set_ne _ (k - 248) b (by simp; omega) (by simpa [hplace] using hb)

/-- A byte in which one bit has been changed is another byte. -/
theorem xor_bit_ne (b : Byte) {i : Nat} (h : i < 8) : b ^^^ BitVec.ofNat 8 (2 ^ i) ≠ b := by
  intro heq
  have hbit := congrArg (BitVec.getLsbD · i) heq
  simp only [BitVec.getLsbD_xor, BitVec.getLsbD_ofNat, h, decide_true, Nat.testBit_two_pow_self] at hbit
  simp at hbit

/-- Settles O11. -/
theorem flitsAreChecked : Obligations.FlitsAreChecked := by
  intro header payload hheader hpayload f
  have hbody := flitBody_length header payload hpayload
  have hf : f = flitBody header payload ++ leBytes 8 (crc64 (flitBody header payload)) := mkFlit_eq header payload hpayload
  have hgood : flitGood f = true := by rw [hf]; exact flitGood_append_crc _ hbody
  have hlen : f.length = 256 := by simp [hf, hbody]
  refine ⟨hlen, hgood, ?header, ?payload, fun k i hk hi => ?flip⟩
  case header =>
    rw [flitHeader, hf, flitBody, List.append_assoc, leAt_leBytes_append, Nat.mod_eq_of_lt (lt_of_lt_of_le hheader (by norm_num))]
  case payload =>
    rw [flitPayload, hf, flitBody, List.append_assoc, List.drop_left' (leBytes_length 12 header), List.take_left' hpayload]
  case flip =>
    have hk' : k < f.length := hlen.symm ▸ hk
    exact flitGood_set f k _ hgood hk' (by rw [List.getD_eq_getElem _ _ hk']; exact xor_bit_ne _ hi)

end Sys2Proof.Machine

/-!
PROOFS. Values in memory: a run of bytes reads back and leaves the others, an atomic replaces its operand, a counter stops at its limit,
and the obligations O12, O14 and O16.
-/

namespace Sys2Proof.Machine

/-! ### Cells -/

theorem cellAt_append (as bs : List Host.Cell) (a : Nat) : cellAt (as ++ bs) a = (cellAt as a).or (cellAt bs a) := by
  induction as with
  | nil => rfl
  | cons c as ih =>
    obtain ⟨i, b⟩ := c
    by_cases h : i = a <;> simp [cellAt, h, ih]

/-- Cells at other addresses do not matter. -/
theorem cellAt_eq_none {cs : List Host.Cell} {a : Nat} (h : ∀ c ∈ cs, c.1 ≠ a) : cellAt cs a = none := by
  induction cs with
  | nil => rfl
  | cons c cs ih =>
    obtain ⟨i, b⟩ := c
    rw [cellAt, if_neg (h _ List.mem_cons_self), ih fun c hc => h c (List.mem_cons_of_mem _ hc)]

/-- A filter that keeps the cells of an address leaves what is read there. -/
theorem cellAt_filter {q : Host.Cell → Bool} (cs : List Host.Cell) (a : Nat) (h : ∀ b, q (a, b) = true) :
    cellAt (cs.filter q) a = cellAt cs a := by
  induction cs with
  | nil => rfl
  | cons c cs ih =>
    obtain ⟨i, b⟩ := c
    by_cases hi : i = a
    · subst hi
      rw [List.filter_cons_of_pos (h b), cellAt, cellAt, if_pos rfl, if_pos rfl]
    · by_cases hq : q (i, b) = true
      · rw [List.filter_cons_of_pos hq, cellAt, cellAt, if_neg hi, if_neg hi, ih]
      · rw [List.filter_cons_of_neg hq, ih, cellAt, if_neg hi]

/-- Each byte of a run is listed, or is what an unlisted byte reads as. -/
theorem cellAt_runCells (fills : List FillRange) (a k : Nat) (bs : List Byte) (h : k < bs.length) :
    (cellAt (runCells fills a bs) (a + k)).getD (background fills (a + k)) = bs[k] := by
  induction bs generalizing a k with
  | nil => simp at h
  | cons b bs ih =>
    cases k with
    | zero =>
      have hrest : cellAt (runCells fills (a + 1) bs) a = none :=
        cellAt_eq_none fun c hc => by have := (mem_runCells hc).1; omega
      by_cases hb : b = background fills a <;> simp [runCells, cellAt, hb, hrest]
    | succ k =>
      have hk := ih (a + 1) k (by simpa using h)
      have hplace : a + (k + 1) = a + 1 + k := by omega
      have hne : a ≠ a + 1 + k := by omega
      rw [hplace, List.getElem_cons_succ, ← hk]
      by_cases hb : b = background fills a <;> simp [runCells, cellAt, hb, hne]

/-! ### Runs of bytes -/

/-- A byte of the run reads as it was written. -/
theorem readByte_writeBytes_inside (m : Memory) (a k : Nat) (bs : List Byte) (h : k < bs.length) :
    readByte (writeBytes a bs m) (a + k) = bs[k] := by
  have hbelow : cellAt (m.cells.filter fun c => decide (c.1 < a)) (a + k) = none :=
    cellAt_eq_none fun c hc => by have := of_decide_eq_true (List.mem_filter.mp hc).2; omega
  have habove : cellAt (m.cells.filter fun c => decide (a + bs.length ≤ c.1)) (a + k) = none :=
    cellAt_eq_none fun c hc => by have := of_decide_eq_true (List.mem_filter.mp hc).2; omega
  rw [readByte, writeBytes, cellAt_append, cellAt_append, hbelow, habove, Option.none_or, Option.or_none]
  exact cellAt_runCells m.fills a k bs h

/-- A byte outside of the run reads as before. -/
theorem readByte_writeBytes_outside (m : Memory) (a b : Nat) (bs : List Byte) (h : b < a ∨ a + bs.length ≤ b) :
    readByte (writeBytes a bs m) b = readByte m b := by
  have hrun : cellAt (runCells m.fills a bs) b = none :=
    cellAt_eq_none fun c hc => by obtain ⟨hlo, hhi, -⟩ := mem_runCells hc; omega
  have hcells : cellAt (writeBytes a bs m).cells b = cellAt m.cells b := by
    rw [writeBytes, cellAt_append, cellAt_append, hrun, Option.or_none]
    rcases h with hlow | hhigh
    · have habove : cellAt (m.cells.filter fun c => decide (a + bs.length ≤ c.1)) b = none :=
        cellAt_eq_none fun c hc => by have := of_decide_eq_true (List.mem_filter.mp hc).2; omega
      rw [cellAt_filter m.cells b fun _ => decide_eq_true hlow, habove, Option.or_none]
    · have hbelow : cellAt (m.cells.filter fun c => decide (c.1 < a)) b = none :=
        cellAt_eq_none fun c hc => by have := of_decide_eq_true (List.mem_filter.mp hc).2; omega
      rw [hbelow, Option.none_or, cellAt_filter m.cells b fun _ => decide_eq_true hhigh]
  rw [readByte, hcells]
  rfl

theorem readBytes_writeBytes (m : Memory) (a : Nat) (bs : List Byte) : readBytes (writeBytes a bs m) a bs.length = bs := by
  refine List.ext_getElem (by simp [readBytes]) fun k _ hk => ?_
  simp [readBytes, readByte_writeBytes_inside m a k bs hk]

/-- Settles O12. -/
theorem memoryReadsBack : Obligations.MemoryReadsBack := fun m a bs hwf =>
  ⟨wf_writeBytes a bs m hwf, readBytes_writeBytes m a bs, fun b hb => readByte_writeBytes_outside m a b bs hb⟩

/-! ### Atomics (R61) -/

theorem ofLe_lt (bs : List Byte) : ofLe bs < 256 ^ bs.length := by
  induction bs with
  | nil => exact Nat.one_pos
  | cons b bs ih =>
    have hb := b.isLt
    rw [ofLe, List.length_cons, pow_succ]
    omega

theorem leAt_lt (bs : List Byte) (off k : Nat) : leAt bs off k < 256 ^ k :=
  lt_of_lt_of_le (ofLe_lt _) (Nat.pow_le_pow_right (by norm_num) (List.length_take_le _ _))

theorem patchBytes_eq_append (bs : List Byte) (off : Nat) (new : List Byte) (h : off + new.length ≤ bs.length) :
    patchBytes bs off new = bs.take off ++ (new ++ bs.drop (off + new.length)) := by
  rw [patchBytes, List.append_assoc]
  exact List.take_of_length_le (by simp; omega)

/-- The bytes of a number written into a line read back as the number. -/
theorem leAt_patchBytes (bs : List Byte) (off k n : Nat) (h : off + k ≤ bs.length) (hn : n < 256 ^ k) :
    leAt (patchBytes bs off (leBytes k n)) off k = n := by
  rw [patchBytes_eq_append _ _ _ (by simpa using h), leAt_append _ _ _ _ (by simp; omega), leAt_leBytes_append, Nat.mod_eq_of_lt hn]

/-- Every byte of a line outside of the bytes written is as before. -/
theorem getD_patchBytes_outside (bs : List Byte) (off : Nat) (new : List Byte) (k : Nat) (h : off + new.length ≤ bs.length)
    (hk : k < off ∨ off + new.length ≤ k) : (patchBytes bs off new).getD k 0 = bs.getD k 0 := by
  have hoff : (bs.take off).length = off := by simp; omega
  rw [patchBytes_eq_append bs off new h, List.getD_eq_getElem?_getD, List.getD_eq_getElem?_getD]
  rcases hk with hlow | hhigh
  · rw [List.getElem?_append_left (by omega), List.getElem?_take_of_lt hlow]
  · rw [List.getElem?_append_right (by omega), List.getElem?_append_right (by omega), List.getElem?_drop, hoff]
    congr 2
    omega

/-- An atomic is none of the other stores, and patches its operand into the line. -/
theorem updatedLine_of_isAtomic {m : Msg} (line : List Byte) (h : isAtomic m.op.toNat = true) :
    updatedLine m line =
      (patchBytes line (m.addr.toNat % 128)
        (leBytes (atomicWidth m) (atomicNew m (leAt line (m.addr.toNat % 128) (atomicWidth m)))),
       leBytes 8 (leAt line (m.addr.toNat % 128) (atomicWidth m))) := by
  rw [updatedLine, if_neg]
  intro hop
  rw [hop] at h
  cases h

/-- What each atomic makes of the old value. -/
theorem atomicNew_add (m : Msg) (old : Nat) (h : m.op = 0x08) :
    atomicNew m old = (old + leAt m.data 0 (atomicWidth m)) % 2 ^ (8 * atomicWidth m) := by
  simp [atomicNew, h]

theorem atomicNew_min (m : Msg) (old : Nat) (h : m.op = 0x09) (hs : bitAt m.oparg.toNat 1 = false) :
    atomicNew m old = min old (leAt m.data 0 (atomicWidth m)) := by
  simp [atomicNew, h, hs]
  split <;> omega

theorem atomicNew_max (m : Msg) (old : Nat) (h : m.op = 0x0A) (hs : bitAt m.oparg.toNat 1 = false) :
    atomicNew m old = max old (leAt m.data 0 (atomicWidth m)) := by
  simp [atomicNew, h, hs]
  split <;> omega

theorem signed_atomicNew_min (m : Msg) (old : Nat) (h : m.op = 0x09) (hs : bitAt m.oparg.toNat 1 = true) :
    signed (8 * atomicWidth m) (atomicNew m old) =
      min (signed (8 * atomicWidth m) old) (signed (8 * atomicWidth m) (leAt m.data 0 (atomicWidth m))) := by
  simp [atomicNew, h, hs, apply_ite (signed _)]
  omega

theorem signed_atomicNew_max (m : Msg) (old : Nat) (h : m.op = 0x0A) (hs : bitAt m.oparg.toNat 1 = true) :
    signed (8 * atomicWidth m) (atomicNew m old) =
      max (signed (8 * atomicWidth m) old) (signed (8 * atomicWidth m) (leAt m.data 0 (atomicWidth m))) := by
  simp [atomicNew, h, hs, apply_ite (signed _)]
  omega

theorem atomicNew_cas (m : Msg) (old : Nat) (h : m.op = 0x0B) :
    atomicNew m old = if old = leAt m.data 0 (atomicWidth m) then leAt m.data 8 (atomicWidth m) else old := by
  simp [atomicNew, h]

/-- What an atomic writes has the width of its operand. -/
theorem atomicNew_lt (m : Msg) (old : Nat) (hold : old < 256 ^ atomicWidth m) : atomicNew m old < 256 ^ atomicWidth m := by
  have harg := leAt_lt m.data 0 (atomicWidth m)
  have hswap := leAt_lt m.data 8 (atomicWidth m)
  have hpow : 2 ^ (8 * atomicWidth m) = 256 ^ atomicWidth m := pow_mul 2 8 _
  unfold atomicNew
  extract_lets w a signedCmp less
  split
  · exact hpow ▸ Nat.mod_lt _ (by positivity)
  all_goals (split <;> assumption)

theorem atomicWidth_cases (m : Msg) : atomicWidth m = 4 ∨ atomicWidth m = 8 := by
  unfold atomicWidth
  split <;> simp

/-- An aligned operand stands within its line. -/
theorem operand_in_line {off w : Nat} (hoff : off < 128) (hw : w = 4 ∨ w = 8) (halign : off % w = 0) : off + w ≤ 128 := by
  rcases hw with rfl | rfl <;> omega

/-- Settles O14. -/
theorem atomicsTouchTheirOperand : Obligations.AtomicsTouchTheirOperand := by
  intro m line hatomic hline w off old a new halign
  have hw : w = atomicWidth m := rfl
  have hfits : off + w ≤ line.length := hline ▸ operand_in_line (Nat.mod_lt _ (by norm_num)) (atomicWidth_cases m) halign
  have hupdated : updatedLine m line = (patchBytes line off (leBytes w (atomicNew m old)), leBytes 8 old) :=
    updatedLine_of_isAtomic line hatomic
  have hnew : new = atomicNew m old := by
    show leAt (updatedLine m line).1 off w = _
    rw [hupdated]
    exact leAt_patchBytes line off w _ hfits (atomicNew_lt m old (leAt_lt _ _ _))
  rw [hnew, hupdated]
  refine ⟨by rw [patchBytes_length _ _ _ (by simpa using hfits), hline], rfl, fun k hk => ?frame, atomicNew_add m old,
    atomicNew_min m old, atomicNew_max m old, signed_atomicNew_min m old, signed_atomicNew_max m old, atomicNew_cas m old⟩
  case frame => exact getD_patchBytes_outside line off _ k (by simpa using hfits) (by simpa using hk)

/-! ### Counters (R505) -/

theorem bumpCounter_wrap {id : Nat} (n : Nat) (c : Counter) (h : ctrIsWrap id = true) :
    bumpCounter id n c = { c with value := (c.value + n) % 2 ^ 64 } := by simp [bumpCounter, h]

theorem bumpCounter_sat {id : Nat} (n : Nat) (c : Counter) (hw : ctrIsWrap id = false) (hs : ctrIsSat id = true) :
    bumpCounter id n c =
      if c.value + n < 0xFFFFFFFF then { c with value := c.value + n } else { value := 0xFFFFFFFF, ovf := true } := by
  simp [bumpCounter, hw, hs]

theorem bumpCounter_bin {id : Nat} (n : Nat) (c : Counter) (hw : ctrIsWrap id = false) (hs : ctrIsSat id = false) :
    bumpCounter id n c = if c.value + n < 0xFFFF then { c with value := c.value + n } else { value := 0xFFFF, ovf := true } := by
  simp [bumpCounter, hw, hs]

/-- A counter that sticks at a limit: it counts up to it, and sets OVF once it is there. -/
theorem sticks_at_limit (limit n : Nat) (c : Counter) :
    let r : Counter := if c.value + n < limit then { c with value := c.value + n } else { value := limit, ovf := true }
    r.value = min limit (c.value + n) ∧ (r.ovf = true ↔ c.ovf = true ∨ limit ≤ c.value + n) := by
  by_cases h : c.value + n < limit
  · simp [h, Nat.min_eq_right h.le, Nat.not_le.mpr h]
  · simp [h, Nat.not_lt.mp h]

/-- Settles O16. -/
theorem countersStopAtTheirLimits : Obligations.CountersStopAtTheirLimits := fun _ n c =>
  ⟨fun hw _ => bumpCounter_wrap n c hw, fun hw hs _ => bumpCounter_sat n c hw hs ▸ sticks_at_limit 0xFFFFFFFF n c,
    fun hw hs _ => bumpCounter_bin n c hw hs ▸ sticks_at_limit 0xFFFF n c⟩

end Sys2Proof.Machine

/-!
PROOFS. Register commands: how a command row is performed or ignored, and the obligation O17.
-/

namespace Sys2Proof.Machine

/-- A register row of a view whose agent can reach the registers acts on the part, which settles. -/
theorem atView_settles {view : Nat} {f : Part → Part} {s : State} {p : Part} (hopen : viewOpen view s.part = true)
    (h : f s.part = p) : onPart (fun t => atView view f t) s = .next (settled s p) :=
  onPart_of_eq ((atView_open view f s.part hopen).trans h)

/-- A command row of an idle sequence: what writing its command register performs. -/
theorem command_settles {q : SeqName} {view : Nat} {write : Part → Part} {s : State} {p : Part}
    (hc : canCommand q view s.part) (h : write s.part = p) : onPart (fun t => atView view write t) s = .next (settled s p) :=
  atView_settles (canCommand_open hc) h

/-- The operation that a row writes into its command register. -/
theorem withOp_op_of_lt {hi op : Nat} (cmd : Word64) (h : op < 2 ^ (hi + 1)) : field (withOp hi op cmd) hi 0 = op :=
  (withOp_op hi op cmd).trans (Nat.mod_eq_of_lt h)

/-- A command register of CAT is not open to the members' walks while it is hindered. -/
theorem writeCatCmd_busy (view cmd : Nat) (p : Part) (hv : view < 4)
    (h : blockReady 6 p = false ∨ p.cat.seq.busy.getD view false = true) :
    writeCatCmd view cmd p = note 6 1 none .commandWhileBusy [view, cmd] p := by
  have hwalk : (decide (view < 4) && blockReady 6 p && !(p.cat.seq.busy.getD view false) && memberWalks cmd p) = false := by
    rcases h with h | h <;> simp [h, -List.getD_eq_getElem?_getD]
  rw [writeCatCmd, hwalk, if_neg Bool.false_ne_true]
  exact writeSeq_busy 6 _ _ _ view cmd p hv h

/-- Settles O17: every sequence but that of CAT is written by `writeSeq` alone. -/
theorem busyCommandsAreIgnored : Obligations.BusyCommandsAreIgnored := by
  intro s view cmd hview hopen p hindered ignored
  refine ⟨?ext, ?region, ?tbl, ?cat, ?clv, ?str, ?slot, ?job, ?chu, ?flt, ?gal, ?flr⟩
  case cat => exact fun h => atView_settles hopen (writeCatCmd_busy view _ s.part hview h)
  all_goals exact fun h => atView_settles hopen (writeSeq_busy _ _ _ _ view _ s.part hview h)

end Sys2Proof.Machine

/-!
PROOFS. The commands of POL_EXT_CMD and of the table window, and the obligations O18 and O19.
-/

namespace Sys2Proof.Machine

/-! ### POL_EXT_CMD -/

/-- The command that a row writes to POL_EXT_CMD: its operation, with the row's EXT and DEST. -/
theorem extCommand_fields (cmd : Word64) (op : Nat) (hop : op < 16) :
    field (setField cmd.toNat 23 20 op) 23 20 = op ∧ field (setField cmd.toNat 23 20 op) 17 0 = field cmd.toNat 17 0 ∧
    field (setField cmd.toNat 23 20 op) 49 32 = field cmd.toNat 49 32 :=
  ⟨(field_setField_same _ 23 20 op (by norm_num)).trans (Nat.mod_eq_of_lt hop),
    field_setField_below _ 23 20 op 17 0 (by norm_num) (by norm_num), field_setField_above _ 23 20 op 49 32 (by norm_num) (by norm_num)⟩

section Performing

variable (view : Nat) (cmd : Word64) (p : Part) (h : noSuchExtent (field cmd.toNat 17 0) p = false)
include h

theorem extPerform_revoke :
    extPerform view (setField cmd.toNat 23 20 1) p = extRevoke view (field cmd.toNat 17 0) p := by
  obtain ⟨hop, hext, hdest⟩ := extCommand_fields cmd 1 (by norm_num)
  simp [extPerform, hop, hext, h]

theorem extPerform_moveOut (hdest : noSuchExtent (field cmd.toNat 49 32) p = false) :
    extPerform view (setField cmd.toNat 23 20 2) p = extMoveOut view (field cmd.toNat 17 0) (field cmd.toNat 49 32) p := by
  obtain ⟨hop, hext, hto⟩ := extCommand_fields cmd 2 (by norm_num)
  simp [extPerform, hop, hext, hto, h, hdest]

theorem extPerform_force :
    extPerform view (setField cmd.toNat 23 20 3) p = extForce view (field cmd.toNat 17 0) p := by
  obtain ⟨hop, hext, hdest⟩ := extCommand_fields cmd 3 (by norm_num)
  simp [extPerform, hop, hext, h]

theorem extPerform_free :
    extPerform view (setField cmd.toNat 23 20 4) p = extFree view (field cmd.toNat 17 0) p := by
  obtain ⟨hop, hext, hdest⟩ := extCommand_fields cmd 4 (by norm_num)
  simp [extPerform, hop, hext, h]

end Performing

/-- REVOKE of a LIVE extent (R31). -/
theorem extRevoke_live (view e : Nat) (p : Part) (h : (extentAt e p).state = .live) :
    extRevoke view e p =
      onPool (fun q =>
        { q with
          revokes := q.revokes ++ [{ ext := e, view := view }]
          extSeq := seqReport view (q.extSeq.result.getD view 0) (((extentAt e p).epoch + 1).toNat * 2 ^ 16) q.extSeq })
        (dropWaiting e stRevoked (chuRevoked e
          (onFlash (fun b => { b with moves := b.moves.map fun m => if m.src = e then { m with revoking := true } else m })
            (changeExtent e (fun x => { x with epoch := x.epoch + 1, state := .revoking }) p)))) := by
  simp [extRevoke, h]

/-- MOVE_OUT of a RECALLING extent to a FREE one (R38). -/
theorem extMoveOut_recalling (view e dest i : Nat) (l : Loan) (p : Part) (he : (extentAt e p).state = .recalling)
    (hloan : loanOf e p = some (i, l)) (hl : l.state = .recalling) (hcopies : (p.pool.copies.any fun c => c.src = e) = false)
    (hhome : isDramHome dest p = true) (hfree : (extentAt dest p).state = .free) (huse : inUse dest p = false) :
    extMoveOut view e dest p = extEnd view 0 e (startCopies (onPool (fun q =>
      { q with copies := q.copies ++ [{ src := e, dest := dest, lender := l.lender, running := false, stalled := false }] }) p)) := by
  simp [extMoveOut, he, hloan, hl, hcopies, hhome, hfree, huse, -List.any_eq_false]

/-- FORCE_RECALL of an extent that is being recalled (R34). -/
theorem extForce_recalling (view e i : Nat) (l : Loan) (p : Part) (hwindow : inLoanWindow e = true)
    (hloan : loanOf e p = some (i, l)) (hl : l.state = .recalling) (he : (extentAt e p).state = .recalling) :
    extForce view e p = extEnd view 0 e (loanEnds i (startCopies (loseExtent e p))) := by
  simp [extForce, hwindow, hloan, hl, he]

/-- FREE of an extent outside of the flash window that nothing holds (R38). -/
theorem extFree_idle (view e : Nat) (p : Part) (he : (extentAt e p).state = .live ∨ (extentAt e p).state = .lost)
    (hdir : (extentAt e p).cls = .catalogue → dirHeld e p = false) (hbusy : extBusy e p = false) (hflash : inFlashWindow e = false) :
    extFree view e p =
      extEnd view 0 e (checkLoanOf e (unbindExtent e (changeExtent e (fun x => { x with state := .free, object := 0 }) p))) := by
  have hallowed : ((decide ((extentAt e p).state ≠ .live) && decide ((extentAt e p).state ≠ .lost)) ||
      (decide ((extentAt e p).cls = .catalogue) && dirHeld e p)) = false := by
    rcases he with h | h <;> simpa [h] using hdir
  simp only [extFree, hallowed, hbusy, hflash, Bool.false_eq_true, if_false]

/-- Settles O18. -/
theorem extentCommandsAct : Obligations.ExtentCommandsAct := by
  intro s view cmd hc t e dest hexists
  have hrun (op : Nat) := writeExtCmd_runs view (setField cmd.toNat 23 20 op) s.part hc
  refine ⟨fun hlive => ?revoke, fun i l hdest he hloan hl hcopies hhome hfree huse => ?moveOut, fun i l hwindow hloan hl he => ?force,
    fun he hdir hbusy hflash => ?free⟩
  case revoke =>
    exact command_settles hc ((hrun 1).trans ((extPerform_revoke view cmd t hexists).trans (extRevoke_live view e t hlive)))
  case moveOut =>
    exact command_settles hc ((hrun 2).trans ((extPerform_moveOut view cmd t hexists hdest).trans
      (extMoveOut_recalling view e dest i l t he hloan hl hcopies hhome hfree huse)))
  case force =>
    exact command_settles hc ((hrun 3).trans ((extPerform_force view cmd t hexists).trans
      (extForce_recalling view e i l t hwindow hloan hl he)))
  case free =>
    exact command_settles hc ((hrun 4).trans ((extPerform_free view cmd t hexists).trans (extFree_idle view e t he hdir hbusy hflash)))

/-! ### The table window -/

/-- READ of an entry that exists (R535). -/
theorem tblPerform_read (view : Nat) (cmd : Word64) (p : Part) (htable : field cmd.toNat 5 2 ≤ 5)
    (hindex : field cmd.toNat 25 6 < tableSize (field cmd.toNat 5 2) p) :
    tblPerform view (withOp 1 1 cmd) p =
      tblEnd view 0 (onPool (fun q =>
        { q with tblData := lset q.tblData view ((List.range 8).map fun k =>
                   BitVec.ofNat 64 ((tableWords (field cmd.toNat 5 2) (field cmd.toNat 25 6) p).getD k
                     (((p.pool.tblData.getD view []).map (·.toNat)).getD k 0))) }) p) := by
  have hentry : ¬ (5 < field cmd.toNat 5 2 || tableSize (field cmd.toNat 5 2) p ≤ field cmd.toNat 25 6) = true := by simp; omega
  simp only [tblPerform, withOp_op_of_lt cmd (show 1 < 2 ^ (1 + 1) by norm_num), withOp_above 1 1 cmd 5 2 (by norm_num),
    withOp_above 1 1 cmd 25 6 (by norm_num), hentry]
  rfl

/-- WRITE of an entry that exists (R536). -/
theorem tblPerform_write (view : Nat) (cmd : Word64) (p : Part) (r : Nat) (q : Part) (htable : field cmd.toNat 5 2 ≤ 5)
    (hindex : field cmd.toNat 25 6 < tableSize (field cmd.toNat 5 2) p)
    (hwrite : tableWrite (field cmd.toNat 5 2) (field cmd.toNat 25 6) ((p.pool.tblData.getD view []).map (·.toNat)) p = (r, q)) :
    tblPerform view (withOp 1 2 cmd) p = tblEnd view r q := by
  have hentry : ¬ (5 < field cmd.toNat 5 2 || tableSize (field cmd.toNat 5 2) p ≤ field cmd.toNat 25 6) = true := by simp; omega
  simp only [tblPerform, withOp_op_of_lt cmd (show 2 < 2 ^ (1 + 1) by norm_num), withOp_above 1 2 cmd 5 2 (by norm_num),
    withOp_above 1 2 cmd 25 6 (by norm_num), hentry, hwrite]
  rfl

theorem tableWrite_object (i : Nat) (words : List Nat) (p : Part) (h : isTray p = true) :
    tableWrite 1 i words p = (0, onPool (fun q =>
      { q with objects :=
                 if objectOfWords words = ObjectEntry.blank then tdel q.objects i else tset q.objects i (objectOfWords words) }) p) := by
  simp [tableWrite, h]

theorem tableWrite_route (i : Nat) (words : List Nat) (p : Part) (h : routeOk false words = true) :
    tableWrite 3 i words p = (0, resendRerouted p.pool.routeParts
      (onPool (fun q => { q with routeParts := tset q.routeParts i (routeOfWords words) }) p)) := by
  simp [tableWrite, h]

/-- Settles O19. -/
theorem tableWindowReadsAndWrites : Obligations.TableWindowReadsAndWrites := by
  intro s view cmd hc t tab i words htable hindex
  have hrun (op : Nat) := writeTblCmd_runs view (withOp 1 op cmd) s.part hc
  have hwrite (r : Nat) (q : Part) (h : tableWrite tab i words t = (r, q)) :
      exec (.tblWrite view cmd) s = .next (settled s (tblEnd view r q)) :=
    command_settles hc ((hrun 2).trans (tblPerform_write view cmd t r q htable hindex h))
  refine ⟨?read, fun htab htray => ?object, fun htab hok => ?route⟩
  case read => exact command_settles hc ((hrun 1).trans (tblPerform_read view cmd t htable hindex))
  case object => exact hwrite _ _ (by rw [htab]; exact tableWrite_object i words t htray)
  case route => exact hwrite _ _ (by rw [htab]; exact tableWrite_route i words t hok)

end Sys2Proof.Machine

/-!
PROOFS. The commands of POL_REGION_CMD: owned regions and editions, and the obligations O20 and O21.
-/

namespace Sys2Proof.Machine

/-! ### Dispatch -/

/-- The command that a row writes to POL_REGION_CMD: its operation, with the row's SLOT, PART, PORT and ARG. -/
theorem regionCommand_fields (cmd : Word64) (op : Nat) (hop : op < 16) :
    field (withOp 3 op cmd) 3 0 = op ∧ field (withOp 3 op cmd) 7 4 = field cmd.toNat 7 4 ∧
    field (withOp 3 op cmd) 19 8 = field cmd.toNat 19 8 ∧ field (withOp 3 op cmd) 28 20 = field cmd.toNat 28 20 ∧
    field (withOp 3 op cmd) 63 32 = field cmd.toNat 63 32 :=
  ⟨withOp_op_of_lt cmd hop, withOp_above 3 op cmd 7 4 (by norm_num), withOp_above 3 op cmd 19 8 (by norm_num),
    withOp_above 3 op cmd 28 20 (by norm_num), withOp_above 3 op cmd 63 32 (by norm_num)⟩

/-- RENEW looks at no region (R106). -/
theorem regPerform_renew (view : Nat) (cmd : Word64) (p : Part) :
    regPerform view (withOp 3 9 cmd) p = renew view (field cmd.toNat 19 8) (field cmd.toNat 28 20) p := by
  obtain ⟨hop, -, hpart, hport, -⟩ := regionCommand_fields cmd 9 (by norm_num)
  simp [regPerform, hop, hpart, hport]

section Owned

variable (view : Nat) (cmd : Word64) (p : Part) (h : regionRefusal (p.regions.obj.getD view 0) .owned p = 0)
include h

theorem regPerform_acquire :
    regPerform view (withOp 3 1 cmd) p = acquire view (p.regions.obj.getD view 0) (field cmd.toNat 19 8) (field cmd.toNat 28 20) p := by
  obtain ⟨hop, -, hpart, hport, -⟩ := regionCommand_fields cmd 1 (by norm_num)
  simp only [regPerform, hop, hpart, hport]
  generalize p.regions.obj.getD view 0 = object at h ⊢
  simp [h]

theorem regPerform_release :
    regPerform view (withOp 3 2 cmd) p = release view (p.regions.obj.getD view 0) (field cmd.toNat 19 8) (field cmd.toNat 28 20) p := by
  obtain ⟨hop, -, hpart, hport, -⟩ := regionCommand_fields cmd 2 (by norm_num)
  simp only [regPerform, hop, hpart, hport]
  generalize p.regions.obj.getD view 0 = object at h ⊢
  simp [h]

theorem regPerform_orphan : regPerform view (withOp 3 3 cmd) p = orphan view (p.regions.obj.getD view 0) p := by
  obtain ⟨hop, -⟩ := regionCommand_fields cmd 3 (by norm_num)
  simp only [regPerform, hop]
  generalize p.regions.obj.getD view 0 = object at h ⊢
  simp [h]

end Owned

section Edition

variable (view : Nat) (cmd : Word64) (p : Part) (h : regionRefusal (p.regions.obj.getD view 0) .edition p = 0)
include h

theorem regPerform_openDraft :
    regPerform view (withOp 3 4 cmd) p =
      openDraft view (p.regions.obj.getD view 0) (field cmd.toNat 7 4) (field cmd.toNat 19 8) (field cmd.toNat 28 20)
        (field cmd.toNat 63 32) p := by
  obtain ⟨hop, hslot, hpart, hport, harg⟩ := regionCommand_fields cmd 4 (by norm_num)
  simp only [regPerform, hop, hslot, hpart, hport, harg]
  generalize p.regions.obj.getD view 0 = object at h ⊢
  simp [h]

theorem regPerform_openRead (hissuer : isIssuer (p.regions.obj.getD view 0) p = true) :
    regPerform view (withOp 3 7 cmd) p = openRead view (p.regions.obj.getD view 0) (field cmd.toNat 19 8) (field cmd.toNat 28 20) p := by
  obtain ⟨hop, -, hpart, hport, -⟩ := regionCommand_fields cmd 7 (by norm_num)
  simp only [regPerform, hop, hpart, hport]
  generalize p.regions.obj.getD view 0 = object at h hissuer ⊢
  simp [h, hissuer]

theorem regPerform_addSpare :
    regPerform view (withOp 3 11 cmd) p = addSpare view (p.regions.obj.getD view 0) (field (field cmd.toNat 63 32) 17 0) p := by
  obtain ⟨hop, -, -, -, harg⟩ := regionCommand_fields cmd 11 (by norm_num)
  simp only [regPerform, hop, harg]
  generalize p.regions.obj.getD view 0 = object at h ⊢
  simp [h]

variable (r : EditionRegion) (hr : editionOf (p.regions.obj.getD view 0) p = some r)
include hr

theorem regPerform_publish :
    regPerform view (withOp 3 5 cmd) p = publish view (p.regions.obj.getD view 0) (field cmd.toNat 7 4) r p := by
  obtain ⟨hop, hslot, -⟩ := regionCommand_fields cmd 5 (by norm_num)
  simp only [regPerform, hop, hslot]
  generalize p.regions.obj.getD view 0 = object at h hr ⊢
  simp [h, hr]

theorem regPerform_abortDraft :
    regPerform view (withOp 3 6 cmd) p = abortDraft view (p.regions.obj.getD view 0) (field cmd.toNat 7 4) r p := by
  obtain ⟨hop, hslot, -⟩ := regionCommand_fields cmd 6 (by norm_num)
  simp only [regPerform, hop, hslot]
  generalize p.regions.obj.getD view 0 = object at h hr ⊢
  simp [h, hr]

theorem regPerform_closeRead (hissuer : isIssuer (p.regions.obj.getD view 0) p = true) :
    regPerform view (withOp 3 8 cmd) p =
      closeRead view (p.regions.obj.getD view 0) (field cmd.toNat 7 4) (field cmd.toNat 19 8) (field cmd.toNat 28 20) p := by
  obtain ⟨hop, hslot, hpart, hport, -⟩ := regionCommand_fields cmd 8 (by norm_num)
  simp only [regPerform, hop, hslot, hpart, hport]
  generalize p.regions.obj.getD view 0 = object at h hr hissuer ⊢
  simp [h, hr, hissuer]

theorem regPerform_reclaim :
    regPerform view (withOp 3 10 cmd) p = reclaim view (p.regions.obj.getD view 0) (field cmd.toNat 7 4) r p := by
  obtain ⟨hop, hslot, -⟩ := regionCommand_fields cmd 10 (by norm_num)
  simp only [regPerform, hop, hslot]
  generalize p.regions.obj.getD view 0 = object at h hr ⊢
  simp [h, hr]

theorem regPerform_drop :
    regPerform view (withOp 3 12 cmd) p = drop view (p.regions.obj.getD view 0) (field cmd.toNat 7 4) r p := by
  obtain ⟨hop, hslot, -⟩ := regionCommand_fields cmd 12 (by norm_num)
  simp only [regPerform, hop, hslot]
  generalize p.regions.obj.getD view 0 = object at h hr ⊢
  simp [h, hr]

end Edition

/-! ### Ownership (R85) -/

/-- Settles O20. -/
theorem ownershipCommandsAct : Obligations.OwnershipCommandsAct := by
  intro s view cmd hc t object part port waits hregion
  have hrun (op : Nat) := writeRegionCmd_runs view (withOp 3 op cmd) s.part hc
  have hwaits (p : Part) : ownerWaits view object 0 p = waits p := by simp only [ownerWaits, Nat.zero_mul]; rfl
  refine ⟨fun hnone hroom => ?acquire, fun o ho howned => ⟨fun hpart hport => ?release, ?orphan⟩⟩
  case acquire =>
    refine command_settles hc ((hrun 1).trans ((regPerform_acquire view cmd t hregion).trans ?_))
    rw [acquire, hnone]
    exact (if_neg (by omega)).trans (hwaits _)
  case release =>
    refine command_settles hc ((hrun 2).trans ((regPerform_release view cmd t hregion).trans ?_))
    rw [release, ho]
    exact (if_neg (by simp [hpart, hport, part, port])).trans (hwaits _)
  case orphan =>
    refine command_settles hc ((hrun 3).trans ((regPerform_orphan view cmd t hregion).trans ?_))
    rw [orphan, ho]
    exact (if_neg (by simp [howned])).trans (hwaits _)

/-! ### Editions -/

/-- RENEW on a part that has issued objects (R100). -/
theorem renew_issued (view part port : Nat) (p : Part) (h : p.pool.objects ≠ []) :
    renew view part port p = regEnd view 0 0 0 (onRegions (fun r =>
      { r with leases := r.leases.map fun l => if l.part = part && l.port = port then { l with expiry := leaseExpiry p } else l }) p) := by
  rw [renew, if_neg (by simpa using h)]

theorem renew_unissued (view part port : Nat) (p : Part) (h : p.pool.objects = []) : renew view part port p = regEnd view 5 0 0 p := by
  rw [renew, if_pos (by simp [h])]

/-- ADD_SPARE of a FREE extent that nothing uses (R95). -/
theorem addSpare_free (view : Nat) (object : BitVec 64) (e : Nat) (p : Part) (hhome : isDramHome e p = true)
    (hreserved : isReserved e p = false) (hfree : (extentAt e p).state = .free) (huse : inUse e p = false) :
    addSpare view object e p =
      regEnd view 0 0 0 (addPages object ((List.range 4096).map fun i => e * 4096 + i) [e] p) := by
  simp [addSpare, hhome, hreserved, hfree, huse]

section Draft

variable (view : Nat) (object : BitVec 64) (slot part port arg : Nat) (p : Part) (r : EditionRegion)
  (hr : editionOf object p = some r)
  (hmoving : (p.flt.moves.any fun m => m.demote && (extentsOf object p).any fun q => q.1 = m.src) = false)
  (hplace : ((extentsOf object p).any fun q => q.2.place = .flash || q.2.place = .loan) = false)
  (hdraft : slotIn r .draft = none)
include hr hmoving hplace hdraft

/-- OPEN_DRAFT on the issuing part takes the first FREE slot (R97). -/
theorem openDraft_issuer (f : Nat) (hissuer : isIssuer object p = true) (hfree : slotIn r .free = some f)
    (hroom : p.regions.leases.length < 65536) :
    openDraft view object slot part port arg p = draftOpens view object f (nextSerial object p) part port r p := by
  simp only [openDraft, hr, hmoving, hplace, hdraft, hissuer, hfree, Option.getD_some, Option.isNone_some, Option.isSome_none,
    Bool.or_self, Bool.false_and, Bool.false_eq_true, if_false, if_true]
  rw [if_neg (by omega)]

/-- OPEN_DRAFT on another home part takes the slot and the serial that it names (R97). -/
theorem openDraft_other (hissuer : isIssuer object p = false) (hfree : (slotAt r slot).state = .free) (harg : arg ≠ 0) :
    openDraft view object slot part port arg p = draftOpens view object slot arg part port r p := by
  simp only [openDraft, hr, hmoving, hplace, hdraft, hissuer, hfree, harg, Option.getD_some, Option.isNone_some, Option.isSome_none,
    Bool.or_self, Bool.false_and, Bool.false_eq_true, if_false, ne_eq, not_true_eq_false, decide_false]

end Draft

section Slots

variable (view : Nat) (object : BitVec 64) (k : Nat) (r : EditionRegion) (p : Part)

/-- PUBLISH of a region's first edition (R97). -/
theorem publish_first (hk : (slotAt r k).state = .draft) (hcurrent : slotIn r .current = none) :
    publish view object k r p =
      regEnd view 0 0 0 (syncRegion object (onSlot object k (fun q => { q with state := .current }) (dropLeases object k p))) := by
  simp [publish, hk, hcurrent]

/-- PUBLISH over a CURRENT slot retires it (R97, R101). -/
theorem publish_next (o : Nat) (hk : (slotAt r k).state = .draft) (hcurrent : slotIn r .current = some o) :
    publish view object k r p =
      regEnd view 0 0 0 (syncRegion object (onSlot object k (fun q => { q with state := .current })
        (let q := onSlot object o (fun q => { q with state := .retired }) (dropLeases object k p)
         if isIssuer object p ∧ (slotAt r o).readers = 0 then regionEvent 1 o object.toNat q else q))) := by
  have hissuer : isIssuer object (onSlot object o (fun q => { q with state := .retired }) (dropLeases object k p)) = isIssuer object p := rfl
  simp [publish, hk, hcurrent, hissuer]

theorem abortDraft_draft (hk : (slotAt r k).state = .draft) :
    abortDraft view object k r p =
      regEnd view 0 0 0 (syncRegion object (onSlot object k (fun _ => SlotRec.blank)
        (dropSlotMaps object k (dropLeases object k (addPages object (privatePages r k (dramExtents object p)) [] p))))) := by
  simp [abortDraft, hk]

/-- RECLAIM of a RETIRED slot without readers that no move carries (R101). -/
theorem reclaim_idle (hk : (slotAt r k).state = .retired) (hreaders : (slotAt r k).readers = 0)
    (hmoving : slotMoving object k p = false) :
    reclaim view object k r p = reclaimNow view object k r p := by
  simp [reclaim, hk, hreaders, hmoving]

/-- DROP of a region with one edition, CURRENT and unread (R102). -/
theorem drop_last (hk : (slotAt r k).state = .current) (hreaders : (slotAt r k).readers = 0)
    (hrest : ((List.range r.slots.length).any fun j => j ≠ k && (slotAt r j).state ≠ .free) = false)
    (howner : ownerOf object p = none) (hleases : (p.regions.leases.any fun l => l.object = object) = false) :
    drop view object k r p =
      regEnd view 0 0 0 (onRegions (fun b =>
        { b with
          editions := b.editions.filter fun e => e.object ≠ object
          spares := b.spares.filter fun q => q.object ≠ object })
        (syncRegion object (onEdition object (fun _ => { r with slots := List.replicate editionSlots SlotRec.blank }) p))) := by
  simp only [drop, hk, hreaders, hrest, howner, hleases]
  rfl

end Slots

/-- OPEN_READ leases the CURRENT slot (R100). -/
theorem openRead_current (view : Nat) (object : BitVec 64) (part port c : Nat) (r : EditionRegion) (p : Part)
    (hr : editionOf object p = some r) (hcurrent : slotIn r .current = some c) (hroom : p.regions.leases.length < 65536) :
    openRead view object part port p =
      regEnd view 0 c (slotAt r c).serial.toNat (syncRegion object (takeLease part port object c p)) := by
  simp only [openRead, hr, hcurrent, Option.bind_some, Option.map_some]
  rw [if_neg (by omega)]

theorem closeRead_lease (view : Nat) (object : BitVec 64) (k part port : Nat) (l : Lease) (p : Part)
    (hl : (p.regions.leases.find? fun l => l.object = object && l.slot = k && l.part = part && l.port = port) = some l) :
    closeRead view object k part port p = regEnd view 0 0 0 (endLease l p) := by
  rw [closeRead, hl]

/-- Settles O21. -/
theorem editionCommandsAct : Obligations.EditionCommandsAct := by
  intro s view cmd hc t object k part port arg
  have hperform (op : Nat) {q : Part} (h : regPerform view (withOp 3 op cmd) t = q) :
      onPart (fun u => atView view (writeRegionCmd view (withOp 3 op cmd)) u) s = .next (settled s q) :=
    command_settles hc ((writeRegionCmd_runs view (withOp 3 op cmd) s.part hc).trans h)
  refine ⟨fun hissued => ?renew, fun hnone => ?refuse, fun hregion => ⟨fun hhome hres hfree huse => ?spare, fun r hr => ?_⟩⟩
  case renew => exact hperform 9 ((regPerform_renew view cmd t).trans (renew_issued view part port t hissued))
  case refuse => exact hperform 9 ((regPerform_renew view cmd t).trans (renew_unissued view part port t hnone))
  case spare =>
    exact hperform 11 ((regPerform_addSpare view cmd t hregion).trans (addSpare_free view object _ t hhome hres hfree huse))
  refine ⟨fun hmoving hplace hdraft => ⟨fun f hissuer hfree hroom => ?draft, fun hissuer hfree harg => ?draftNamed⟩,
    fun hk hcurrent => ?first, fun o hk hcurrent => ?next, fun hk => ?abort, fun c hissuer hcurrent hroom => ?openRead,
    fun l hissuer hl => ?close, fun hk hreaders hmoving => ?reclaim, fun hk hreaders hrest howner hleases => ?drop⟩
  case draft =>
    exact hperform 4 ((regPerform_openDraft view cmd t hregion).trans
      (openDraft_issuer view object k part port arg t r hr hmoving hplace hdraft f hissuer hfree hroom))
  case draftNamed =>
    exact hperform 4 ((regPerform_openDraft view cmd t hregion).trans
      (openDraft_other view object k part port arg t r hr hmoving hplace hdraft hissuer hfree harg))
  case first => exact hperform 5 ((regPerform_publish view cmd t hregion r hr).trans (publish_first view object k r t hk hcurrent))
  case next => exact hperform 5 ((regPerform_publish view cmd t hregion r hr).trans (publish_next view object k r t o hk hcurrent))
  case abort => exact hperform 6 ((regPerform_abortDraft view cmd t hregion r hr).trans (abortDraft_draft view object k r t hk))
  case openRead =>
    exact hperform 7 ((regPerform_openRead view cmd t hregion hissuer).trans
      (openRead_current view object part port c r t hr hcurrent hroom))
  case close =>
    exact hperform 8 ((regPerform_closeRead view cmd t hregion r hr hissuer).trans (closeRead_lease view object k part port l t hl))
  case reclaim =>
    exact hperform 10 ((regPerform_reclaim view cmd t hregion r hr).trans (reclaim_idle view object k r t hk hreaders hmoving))
  case drop =>
    exact hperform 12 ((regPerform_drop view cmd t hregion r hr).trans (drop_last view object k r t hk hreaders hrest howner hleases))

end Sys2Proof.Machine

/-!
PROOFS. The commands of CAT_CMD, and the obligation O22.
-/

namespace Sys2Proof.Machine

/-- The command that a row writes to CAT_CMD: its operation, with the row's GROUP and MEMBER. -/
theorem catCommand_fields (cmd : Word64) (op : Nat) (hop : op < 16) :
    field (withOp 3 op cmd) 3 0 = op ∧ field (withOp 3 op cmd) 16 8 = field cmd.toNat 16 8 ∧
    field (withOp 3 op cmd) 24 17 = field cmd.toNat 24 17 :=
  ⟨withOp_op_of_lt cmd hop, withOp_above 3 op cmd 16 8 (by norm_num), withOp_above 3 op cmd 24 17 (by norm_num)⟩

/-- Only SET_MEMBER waits for the walks of its member. -/
theorem memberWalks_of_ne (cmd : Word64) (op : Nat) (p : Part) (hop : op < 16) (h : op ≠ 3) : memberWalks (withOp 3 op cmd) p = false := by
  simp [memberWalks, (catCommand_fields cmd op hop).1, h]

section Performing

variable (view : Nat) (cmd : Word64) (p : Part) (h : isTray p = true)
include h

theorem catPerform_setRegion :
    catPerform view (withOp 3 1 cmd) p = setRegion view (withOp 3 1 cmd) (p.cat.obj.getD view 0) p := by
  simp [catPerform, h, (catCommand_fields cmd 1 (by norm_num)).1]

theorem catPerform_clearRegion : catPerform view (withOp 3 2 cmd) p = clearRegion view (p.cat.obj.getD view 0) p := by
  simp [catPerform, h, (catCommand_fields cmd 2 (by norm_num)).1]

theorem catPerform_setMember : catPerform view (withOp 3 3 cmd) p = setMember view (withOp 3 3 cmd) p := by
  simp [catPerform, h, (catCommand_fields cmd 3 (by norm_num)).1]

theorem catPerform_removeMember :
    catPerform view (withOp 3 4 cmd) p = removeMember view (field cmd.toNat 16 8) (field cmd.toNat 24 17) p := by
  obtain ⟨hop, hgroup, hmember⟩ := catCommand_fields cmd 4 (by norm_num)
  simp [catPerform, h, hop, hgroup, hmember]

theorem catPerform_hostLost :
    catPerform view (withOp 3 5 cmd) p = hostLost view (field cmd.toNat 16 8) (field cmd.toNat 24 17) p := by
  obtain ⟨hop, hgroup, hmember⟩ := catCommand_fields cmd 5 (by norm_num)
  simp [catPerform, h, hop, hgroup, hmember]

theorem catPerform_purgeExtent :
    catPerform view (withOp 3 6 cmd) p = purgeExtent view (p.cat.cmdExt.getD view 0 % 2 ^ 18) p := by
  simp [catPerform, h, (catCommand_fields cmd 6 (by norm_num)).1]

end Performing

/-- SET_REGION of an object that has none, where the table has room (R112): `mode` is what PRED_MODE spells. -/
theorem setRegion_new (view : Nat) (cmd : Word64) (object : BitVec 64) (mode : PredMode) (p : Part)
    (hmode : mode = .adaptive ∧ field cmd.toNat 48 47 = 0 ∨ mode = .home ∧ field cmd.toNat 48 47 = 1 ∨
      mode = .near ∧ field cmd.toNat 48 47 = 2)
    (hnone : catRegionOf object p = none) (hroom : p.cat.regions.length < 512) :
    setRegion view (withOp 3 1 cmd) object p =
      catEnd view 0 0 (onCatalogue (fun c =>
        { c with regions := c.regions ++
                   [{ object := object, group := field cmd.toNat 16 8, revert := bitAt cmd.toNat 51, predMode := mode,
                      predInit := field cmd.toNat 50 49, nearest := bitAt cmd.toNat 52 }] }) p) := by
  have hfull : ¬ 512 ≤ p.cat.regions.length := by omega
  rcases hmode with ⟨rfl, h⟩ | ⟨rfl, h⟩ | ⟨rfl, h⟩ <;> simp [setRegion, withOp_above, withOp_bitAt, h, hnone, hfull]

theorem clearRegion_idle (view : Nat) (object : BitVec 64) (p : Part) (hsome : (catRegionOf object p).isSome = true)
    (hlive : catRegionLive object p = false) :
    clearRegion view object p =
      catEnd view 0 0 (onCatalogue (fun c => { c with regions := c.regions.filter fun r => r.object ≠ object }) p) := by
  rw [clearRegion, if_neg (by simpa using Option.isSome_iff_ne_none.mp hsome), hlive, if_neg Bool.false_ne_true]

/-- SET_MEMBER of a number that is free in its group (R113). -/
theorem setMember_new (view : Nat) (cmd : Word64) (p : Part) (hsize : field cmd.toNat 24 17 < p.cat.groupSize)
    (hnone : catMember (field cmd.toNat 16 8) (field cmd.toNat 24 17) p = none) :
    setMember view (withOp 3 3 cmd) p =
      catEnd view 0 0 (onCatalogue (fun c =>
        { c with members := tset c.members (field cmd.toNat 16 8 * 256 + field cmd.toNat 24 17)
                   { part := field cmd.toNat 36 25, port := field cmd.toNat 45 37, nearAt := bitAt cmd.toNat 46, state := .active } }) p) := by
  have hsize' : ¬ p.cat.groupSize ≤ field cmd.toNat 24 17 := by omega
  simp [setMember, withOp_above, withOp_bitAt, hnone, hsize']

/-- REMOVE_MEMBER of an ACTIVE member marks it and begins its walk (R137). -/
theorem removeMember_active (view group n : Nat) (m : CatMember) (p : Part) (hm : catMember group n p = some m) (hstate : m.state = .active) :
    removeMember view group n p =
      (let q := onCatalogue (fun c => { c with members := tset c.members (group * 256 + n) { m with state := .removing } }) p
       let named := ((groupLines group q).filter fun l => removeTouches n l.2).map (·.1)
       beginWalk { kind := .remove, group := group, member := n, ext := 0, view := view } (.drop (some n))
        (named ++ (grantLines group n q).filter fun l => l ∉ named) q) := by
  simp only [removeMember, hm, hstate, reduceCtorEq, if_false]

/-- HOST_LOST of an ACTIVE member marks it, ends what waits for it, and begins its walk (R135). -/
theorem hostLost_active (view group n : Nat) (m : CatMember) (p : Part) (hm : catMember group n p = some m) (hstate : m.state = .active) :
    hostLost view group n p =
      (let q := onCatalogue (fun c => { c with members := tset c.members (group * 256 + n) { m with state := .lost } }) p
       let q := (memberSnoops group n q).foldl (fun q l => loseSnoop l.1 l.2 q) q
       let q := (q.cat.txns.filter fun l => l.2.group = group && l.2.member = some n && l.2.awaitAck).foldl
        (fun q l => closeTxn l.1 q) q
       beginWalk { kind := .hostLost, group := group, member := n, ext := 0, view := view } .fix
        (((groupLines group q).filter fun l => n ∈ ptrsOf l.2).map (·.1)) q) := by
  simp only [hostLost, hm, hstate, reduceCtorEq, if_false]

/-- PURGE_EXTENT of a catalogue extent in use walks its lines with holders (R141). -/
theorem purgeExtent_used (view e : Nat) (p : Part) (hcls : (extentAt e p).cls = .catalogue) (hfree : (extentAt e p).state ≠ .free)
    (hlost : (extentAt e p).state ≠ .lost) :
    purgeExtent view e p =
      beginWalk { kind := .purge, group := 0, member := 0, ext := e, view := view } (.drop none)
        (((dirList p).filter fun l => l.1 / linesPerExtent = e && dirHolds l.2).map (·.1)) p := by
  simp [purgeExtent, hcls, hfree, hlost]

/-- Settles O22. -/
theorem catalogueCommandsAct : Obligations.CatalogueCommandsAct := by
  intro s view cmd hc htray hwalks t object group n e
  have ht : isTray t = true := (isTray_took .cat view s.part).trans htray
  have hperform (op : Nat) {q : Part} (hw : memberWalks (withOp 3 op cmd) s.part = false) (h : catPerform view (withOp 3 op cmd) t = q) :
      onPart (fun u => atView view (writeCatCmd view (withOp 3 op cmd)) u) s = .next (settled s q) :=
    command_settles hc ((writeCatCmd_runs view (withOp 3 op cmd) s.part hc hw).trans h)
  have hfree (op : Nat) (hop : op < 16) (h3 : op ≠ 3) := memberWalks_of_ne cmd op s.part hop h3
  refine ⟨fun mode hmode hnone hroom => ?setRegion, fun hsome hlive => ?clearRegion, fun hsize hnone => ?setMember,
    fun m hm hstate => ⟨?removeMember, ?hostLost⟩, fun hcls hnotFree hnotLost => ?purge⟩
  case setRegion =>
    exact hperform 1 (hfree 1 (by norm_num) (by norm_num)) ((catPerform_setRegion view cmd t ht).trans
      (setRegion_new view cmd object mode t hmode hnone hroom))
  case clearRegion =>
    exact hperform 2 (hfree 2 (by norm_num) (by norm_num)) ((catPerform_clearRegion view cmd t ht).trans
      (clearRegion_idle view object t hsome hlive))
  case setMember => exact hperform 3 hwalks ((catPerform_setMember view cmd t ht).trans (setMember_new view cmd t hsize hnone))
  case removeMember =>
    exact hperform 4 (hfree 4 (by norm_num) (by norm_num)) ((catPerform_removeMember view cmd t ht).trans
      (removeMember_active view group n m t hm hstate))
  case hostLost =>
    exact hperform 5 (hfree 5 (by norm_num) (by norm_num)) ((catPerform_hostLost view cmd t ht).trans
      (hostLost_active view group n m t hm hstate))
  case purge =>
    exact hperform 6 (hfree 6 (by norm_num) (by norm_num)) ((catPerform_purgeExtent view cmd t ht).trans
      (purgeExtent_used view e t hcls hnotFree hnotLost))

end Sys2Proof.Machine

/-!
PROOFS. The commands of reduction contexts and of weight streams, and the obligations O23 and O24.
-/

namespace Sys2Proof.Machine

/-! ### Reduction contexts -/

/-- The command that a row writes to CLV_CMD: its operation, with the row's CTX. -/
theorem clvCommand_fields (cmd : Word64) (op : Nat) (hop : op < 16) :
    field (withOp 3 op cmd) 3 0 = op ∧ field (withOp 3 op cmd) 15 4 = field cmd.toNat 15 4 :=
  ⟨withOp_op_of_lt cmd hop, withOp_above 3 op cmd 15 4 (by norm_num)⟩

/-- OPEN of a FREE context whose descriptor passes every check (R155). -/
theorem clvPerform_open (view : Nat) (cmd : Word64) (p : Part) (d : List Nat) (hd : p.clv.descs.getD view [] = d)
    (hnone : ctxAt (field cmd.toNat 15 4) p = none) (hvalid : ctxValid d = true) (hgallery : galleryActive (ctxGallery d) p = true)
    (hgroup : ctxGroupOk d p = true) (halloc : allocOk (ctxAlloc d p) p = true) :
    clvPerform view (withOp 3 1 cmd) p =
      clvEnd view (field cmd.toNat 15 4) 0 (putCtx (field cmd.toNat 15 4) (freshContext d (ctxGen d) (ctxAlloc d p)) p) := by
  obtain ⟨hop, hctx⟩ := clvCommand_fields cmd 1 (by norm_num)
  simp only [clvPerform, hop, hctx, hd, openCtx, hnone, hvalid, hgallery, hgroup, halloc]
  rfl

section Existing

variable (view : Nat) (cmd : Word64) (p : Part) (x : Context) (hx : ctxAt (field cmd.toNat 15 4) p = some x)
include hx

/-- CLOSE of a context that is not closing yet (R174). -/
theorem clvPerform_close (h : x.state ≠ .closing) :
    clvPerform view (withOp 3 2 cmd) p = clvEnd view (field cmd.toNat 15 4) 0 (closeCtx (field cmd.toNat 15 4) x p) := by
  obtain ⟨hop, hctx⟩ := clvCommand_fields cmd 2 (by norm_num)
  simp [clvPerform, hop, hctx, hx, h]

theorem clvPerform_abort :
    clvPerform view (withOp 3 3 cmd) p = clvEnd view (field cmd.toNat 15 4) 0 (abortCtx (field cmd.toNat 15 4) p) := by
  obtain ⟨hop, hctx⟩ := clvCommand_fields cmd 3 (by norm_num)
  simp [clvPerform, hop, hctx, hx]

end Existing

/-- QUERY changes nothing but its view's report (R179). -/
theorem clvPerform_query (view : Nat) (cmd : Word64) (p : Part) :
    clvPerform view (withOp 3 4 cmd) p = clvEnd view (field cmd.toNat 15 4) 0 p := by
  obtain ⟨hop, hctx⟩ := clvCommand_fields cmd 4 (by norm_num)
  cases hx : ctxAt (field cmd.toNat 15 4) p <;> simp [clvPerform, hop, hctx, hx]

theorem closeCtx_running (c : Nat) (x : Context) (p : Part) (h : x.state = .running) :
    closeCtx c x p = putCtx c { x with state := .closing } p := by rw [closeCtx, if_pos h]

theorem closeCtx_idle (c : Nat) (x : Context) (p : Part) (h : x.state ≠ .running) : closeCtx c x p = freeCtx c p := by
  rw [closeCtx, if_neg h]

/-- ABORT of a context whose results are not all sent (R174). -/
theorem abortCtx_unfinished (c : Nat) (x : Context) (p : Part) (hx : ctxAt c p = some x) (hdone : x.state ≠ .done) (hfailed : x.state ≠ .failed) :
    abortCtx c p = freeCtx c (lateQueued c x ((unsentResults x).foldl (fun q k => timeoutResult x k q) p)) := by
  simp [abortCtx, hx, hdone, hfailed]

/-- Settles O23. -/
theorem contextCommandsAct : Obligations.ContextCommandsAct := by
  intro s view cmd hc t c d
  have hperform (op : Nat) {q : Part} (h : clvPerform view (withOp 3 op cmd) t = q) :
      onPart (fun u => atView view (writeClvCmd view (withOp 3 op cmd)) u) s = .next (settled s q) :=
    command_settles hc ((writeClvCmd_runs view (withOp 3 op cmd) s.part hc).trans h)
  refine ⟨fun hnone hvalid hgallery hgroup halloc => ?opened, fun x hx => ⟨fun hstate => ?running, fun hstate => ?idle, fun hstate => ?abort⟩,
    hperform 4 (clvPerform_query view cmd t)⟩
  case opened => exact hperform 1 (clvPerform_open view cmd t d rfl hnone hvalid hgallery hgroup halloc)
  case running =>
    refine hperform 2 ((clvPerform_close view cmd t x hx (by simp [hstate])).trans ?_)
    rw [closeCtx_running _ _ _ hstate]
  case idle =>
    have hclosing : x.state ≠ .closing ∧ x.state ≠ .running := by rcases hstate with h | h | h <;> simp [h]
    refine hperform 2 ((clvPerform_close view cmd t x hx hclosing.1).trans ?_)
    rw [closeCtx_idle _ _ _ hclosing.2]
  case abort =>
    have hunfinished : x.state ≠ .done ∧ x.state ≠ .failed := by rcases hstate with h | h | h <;> simp [h]
    refine hperform 3 ((clvPerform_abort view cmd t x hx).trans ?_)
    rw [abortCtx_unfinished _ x t hx hunfinished.1 hunfinished.2]

/-! ### Weight streams -/

/-- The command that a row writes to STR_CMD: its operation, with the row's STREAM. -/
theorem strCommand_fields (cmd : Word64) (op : Nat) (hop : op < 16) :
    field (withOp 3 op cmd) 3 0 = op ∧ field (withOp 3 op cmd) 11 4 = field cmd.toNat 11 4 :=
  ⟨withOp_op_of_lt cmd hop, withOp_above 3 op cmd 11 4 (by norm_num)⟩

/-- LOAD of a free stream at an aligned address begins to read (R221). -/
theorem strPerform_load (view : Nat) (cmd : Word64) (p : Part) (base arg : Nat) (hbase : p.str.progAddr.getD view 0 % 2 ^ 58 = base)
    (harg : p.str.progArg.getD view 0 = arg) (hnone : strAt (field cmd.toNat 11 4) p = none) (haligned : base % 128 = 0) :
    strPerform view (withOp 3 1 cmd) p =
      goLoad 64 (onStreaming (fun b =>
        { b with load := some { view := view, tried := 0, stream := field cmd.toNat 11 4, base := base, epoch := field arg 15 0,
                                handle := field arg 31 16, reads := [], bytes := [] } }) p) := by
  obtain ⟨hop, hstream⟩ := strCommand_fields cmd 1 (by norm_num)
  simp only [strPerform, hop, hstream, hnone, hbase, harg, haligned]
  rfl

section Existing

variable (view : Nat) (cmd : Word64) (p : Part) (x : Stream) (hx : strAt (field cmd.toNat 11 4) p = some x)
include hx

/-- START of a stream with members in an ACTIVE gallery (R233, R384). -/
theorem strPerform_start (hstate : x.state = .loaded ∨ x.state = .failed) (hmembers : x.members ≠ [])
    (hgallery : galleryActive x.gallery p = true) :
    strPerform view (withOp 3 2 cmd) p = strEnd view (field cmd.toNat 11 4) 0 (startStream (field cmd.toNat 11 4) x p) := by
  obtain ⟨hop, hstream⟩ := strCommand_fields cmd 2 (by norm_num)
  simp [strPerform, hop, hstream, hx, hstate, hmembers, hgallery]

/-- STOP lets the stream drain while the sequence goes on (R233, R527). -/
theorem strPerform_stop (hstate : x.state = .running) :
    strPerform view (withOp 3 3 cmd) p =
      settleStream (field cmd.toNat 11 4) { x with state := .stopping, starting := false, view := some view }
        (onStreaming (fun b => { b with seq := seqLeave b.seq }) p) := by
  obtain ⟨hop, hstream⟩ := strCommand_fields cmd 3 (by norm_num)
  have hstays : strAt (field cmd.toNat 11 4) (strGoesOn p) = some x := hx
  simp only [strPerform, hop, hstream, hx, hstate, drainStream, hstays, if_true]
  rfl

theorem strPerform_abort (hstate : x.state = .running ∨ x.state = .stopping) :
    strPerform view (withOp 3 4 cmd) p =
      strEnd view (field cmd.toNat 11 4) 0 (leaveStream (field cmd.toNat 11 4) .loaded x p) := by
  obtain ⟨hop, hstream⟩ := strCommand_fields cmd 4 (by norm_num)
  simp [strPerform, hop, hstream, hx, hstate, abortStream]

theorem strPerform_unload (hstate : x.state = .loaded ∨ x.state = .failed) :
    strPerform view (withOp 3 5 cmd) p =
      strEnd view (field cmd.toNat 11 4) 0 (onStreaming (fun b => { b with streams := tdel b.streams (field cmd.toNat 11 4) }) p) := by
  obtain ⟨hop, hstream⟩ := strCommand_fields cmd 5 (by norm_num)
  simp [strPerform, hop, hstream, hx, hstate]

theorem strPerform_query :
    strPerform view (withOp 3 6 cmd) p =
      strEnd view (field cmd.toNat 11 4) 0 (onStreaming (fun b => { b with query := x.latePass + x.handed % 2 ^ 32 * 2 ^ 32 }) p) := by
  obtain ⟨hop, hstream⟩ := strCommand_fields cmd 6 (by norm_num)
  simp only [strPerform, hop, hstream, hx]

end Existing

/-- Settles O24. -/
theorem streamCommandsAct : Obligations.StreamCommandsAct := by
  intro s view cmd hc t i base arg
  have hperform (op : Nat) {q : Part} (h : strPerform view (withOp 3 op cmd) t = q) :
      onPart (fun u => atView view (writeStrCmd view (withOp 3 op cmd)) u) s = .next (settled s q) :=
    command_settles hc ((writeStrCmd_runs view (withOp 3 op cmd) s.part hc).trans h)
  refine ⟨fun hnone haligned => ?load, fun x hx => ⟨fun hstate => ⟨fun hmembers hgallery => ?start, ?unload⟩, fun hstate => ?stop,
    fun hstate => ?abort, ?query⟩⟩
  case load => exact hperform 1 (strPerform_load view cmd t base arg rfl rfl hnone haligned)
  case start => exact hperform 2 (strPerform_start view cmd t x hx hstate hmembers hgallery)
  case unload => exact hperform 5 (strPerform_unload view cmd t x hx hstate)
  case stop => exact hperform 3 (strPerform_stop view cmd t x hx hstate)
  case abort => exact hperform 4 (strPerform_abort view cmd t x hx hstate)
  case query => exact hperform 6 (strPerform_query view cmd t x hx)

end Sys2Proof.Machine

/-!
PROOFS. The commands of fold tables and of fold jobs, and the obligations O25 and O26.
-/

namespace Sys2Proof.Machine

/-! ### Fold tables -/

/-- The command that a row writes to CMP_FOLD_SLOT_CMD: its operation, with the row's SLOT and GEN. -/
theorem slotCommand_fields (cmd : Word64) (op : Nat) (hop : op < 4) :
    field (withOp 1 op cmd) 1 0 = op ∧ field (withOp 1 op cmd) 5 2 = field cmd.toNat 5 2 ∧
      field (withOp 1 op cmd) 13 6 = field cmd.toNat 13 6 :=
  ⟨withOp_op_of_lt cmd hop, withOp_above 1 op cmd 5 2 (by norm_num), withOp_above 1 op cmd 13 6 (by norm_num)⟩

/-- The run of a LOAD or DROP, with the arguments as they stand at the write (R268). -/
def slotRunOf (view : Nat) (cmd : Word64) (load : Bool) (p : Part) : SlotRun :=
  { view := view, addr := p.cmp.tblAddr.getD view 0 % 2 ^ 58, arg := p.cmp.tblArg.getD view 0, load := load,
    slot := field cmd.toNat 5 2, gen := field cmd.toNat 13 6, waiting := true, read := none }

section Slots

variable (view : Nat) (cmd : Word64) (p : Part)

/-- LOAD into a slot without an old table goes on at once (R253). -/
theorem slotPerform_load_free (hgen : holdsGen (field cmd.toNat 13 6) (foldSlot (field cmd.toNat 5 2) p) = false)
    (hgallery : galleryActive (foldSlot (field cmd.toNat 5 2) p).gallery p = true)
    (hold : (foldSlot (field cmd.toNat 5 2) p).old = none) :
    slotPerform view (withOp 1 1 cmd) p = slotProceed (slotRunOf view cmd true p) p := by
  obtain ⟨hop, hslot, hg⟩ := slotCommand_fields cmd 1 (by norm_num)
  simp [slotPerform, hop, hslot, hg, hgen, hgallery, awaitedGen, hold, slotRunOf]

/-- LOAD into a slot whose old table is still referred to waits (R253). -/
theorem slotPerform_load_waits (old : FoldTable) (hgen : holdsGen (field cmd.toNat 13 6) (foldSlot (field cmd.toNat 5 2) p) = false)
    (hgallery : galleryActive (foldSlot (field cmd.toNat 5 2) p).gallery p = true)
    (hold : (foldSlot (field cmd.toNat 5 2) p).old = some old) (hrefs : tableRefs (field cmd.toNat 5 2) old.gen p ≠ 0) :
    slotPerform view (withOp 1 1 cmd) p = onCompression (fun b => { b with slotRun := some (slotRunOf view cmd true p) }) p := by
  obtain ⟨hop, hslot, hg⟩ := slotCommand_fields cmd 1 (by norm_num)
  simp [slotPerform, hop, hslot, hg, hgen, hgallery, awaitedGen, hold, hrefs, slotRunOf]

/-- DROP of a table without references ends at once with the table gone (R253). -/
theorem slotPerform_drop_free (hgen : holdsGen (field cmd.toNat 13 6) (foldSlot (field cmd.toNat 5 2) p) = true)
    (hrefs : tableRefs (field cmd.toNat 5 2) (field cmd.toNat 13 6) p = 0) :
    slotPerform view (withOp 1 2 cmd) p =
      slotEnd view 0 (putFoldSlot (field cmd.toNat 5 2) (dropTable (field cmd.toNat 13 6) (foldSlot (field cmd.toNat 5 2) p)) p) := by
  obtain ⟨hop, hslot, hg⟩ := slotCommand_fields cmd 2 (by norm_num)
  simp [slotPerform, hop, hslot, hg, hgen, awaitedGen, hrefs, slotProceed]

/-- DROP of a table with references waits for them (R253). -/
theorem slotPerform_drop_waits (hgen : holdsGen (field cmd.toNat 13 6) (foldSlot (field cmd.toNat 5 2) p) = true)
    (hrefs : tableRefs (field cmd.toNat 5 2) (field cmd.toNat 13 6) p ≠ 0) :
    slotPerform view (withOp 1 2 cmd) p = onCompression (fun b => { b with slotRun := some (slotRunOf view cmd false p) }) p := by
  obtain ⟨hop, hslot, hg⟩ := slotCommand_fields cmd 2 (by norm_num)
  simp [slotPerform, hop, hslot, hg, hgen, awaitedGen, hrefs, slotRunOf]

end Slots

/-- Settles O25. -/
theorem foldTableCommandsAct : Obligations.FoldTableCommandsAct := by
  intro s view cmd hc t n gen x run
  have hperform (op : Nat) {q : Part} (h : slotPerform view (withOp 1 op cmd) t = q) :
      onPart (fun u => atView view (writeSlotCmd view (withOp 1 op cmd)) u) s = .next (settled s q) :=
    command_settles hc ((writeSlotCmd_runs view (withOp 1 op cmd) s.part hc).trans h)
  refine ⟨fun hgen hgallery => ⟨fun hold => ?loads, fun old hold hrefs => ?loadWaits⟩,
    fun hgen => ⟨fun hrefs => ?drops, fun hrefs => ?dropWaits⟩⟩
  case loads => exact hperform 1 (slotPerform_load_free view cmd t hgen hgallery hold)
  case loadWaits => exact hperform 1 (slotPerform_load_waits view cmd t old hgen hgallery hold hrefs)
  case drops => exact hperform 2 (slotPerform_drop_free view cmd t hgen hrefs)
  case dropWaits => exact hperform 2 (slotPerform_drop_waits view cmd t hgen hrefs)

/-! ### Fold jobs -/

/-- The command that a row writes to CMP_JOB_CMD: its operation, with the row's JOB. -/
theorem jobCommand_fields (cmd : Word64) (op : Nat) (hop : op < 16) :
    field (withOp 3 op cmd) 3 0 = op ∧ field (withOp 3 op cmd) 9 4 = field cmd.toNat 9 4 :=
  ⟨withOp_op_of_lt cmd hop, withOp_above 3 op cmd 9 4 (by norm_num)⟩

theorem jobPerform_start (view : Nat) (cmd : Word64) (p : Part) :
    jobPerform view (withOp 3 1 cmd) p = jobStart view (field cmd.toNat 9 4) p := by
  obtain ⟨hop, hjob⟩ := jobCommand_fields cmd 1 (by norm_num)
  simp only [jobPerform, hop, hjob]

theorem jobPerform_abort (view : Nat) (cmd : Word64) (p : Part) :
    jobPerform view (withOp 3 2 cmd) p = jobCommand (field cmd.toNat 9 4) true view p := by
  obtain ⟨hop, hjob⟩ := jobCommand_fields cmd 2 (by norm_num)
  simp only [jobPerform, hop, hjob]

theorem jobPerform_query (view : Nat) (cmd : Word64) (p : Part) :
    jobPerform view (withOp 3 3 cmd) p = jobCommand (field cmd.toNat 9 4) false view p := by
  obtain ⟨hop, hjob⟩ := jobCommand_fields cmd 3 (by norm_num)
  simp only [jobPerform, hop, hjob]

/-- A job as START makes it, before its unit is chosen (R257). -/
def newJob (d : List Nat) : FoldJob :=
  { unit := 0, turn := .idle, desc := d, state := .running, status := 0, written := 0, phase := .values, go := false, budget := 0, ask := none,
    reads := [], bytes := [], taken := 0, blocks := 0, out := [], at_ := 0, first := [], hist := List.replicate 256 0,
    writes := [], reader := none }

section Starts

variable (view i : Nat) (p : Part) (d : List Nat) (hd : p.cmp.jobDescs.getD view [] = d)
  (hidle : (jobAt i p).map (·.state) ≠ some .running) (hdesc : jobDescOk d = true) (hgallery : galleryActive (jdGallery d) p = true)
include hd hidle hdesc hgallery

/-- A FOLD runs on the folder with the fewest jobs (R257). -/
theorem jobStart_fold (hfold : jdFold d = true) (htable : ∃ f : FoldTable, slotTable (jdSlot d) (jdGen d) p = some f ∧ f.kind = jdKind d)
    (hslot : slotGallery (jdSlot d) p = jdGallery d) :
    jobStart view i p = jobEnd view i 0 (putJob i { newJob d with unit := freeFolder p, at_ := 128 } p) := by
  obtain ⟨f, hf, hkind⟩ := htable
  simp only [jobStart, hd, hidle, hdesc, hgallery, hfold, hf, hslot, newJob, Option.any_some, hkind]
  simp [-List.reduceReplicate]

/-- An UNFOLD first reads its source's header (R257). -/
theorem jobStart_unfold (hfold : jdFold d = false) :
    jobStart view i p =
      goCheck 8 (onCompression (fun b =>
        { b with check := some { view := view, job := i, run := { newJob d with
            reader := some (FoldReader.start (freeUnfolder p) (jdSrc d) (jdGallery d) (jdSrcEpoch d) (jdSrcHandle d)) } } }) p) := by
  simp only [jobStart, hd, hidle, hdesc, hgallery, hfold, newJob]
  simp [-List.reduceReplicate]

end Starts

/-- ABORT or QUERY of a running job that has not been told to end finds it at a line that is a free value (R258). -/
theorem jobCommand_running (i view : Nat) (abort : Bool) (p : Part) (x : FoldJob) (hx : jobAt i p = some x) (hstate : x.state = .running)
    (hgo : x.go = false) :
    jobCommand i abort view p =
      goJob jobSteps i (putJob i { x with ask := some (abort, view), budget := (Config.freeWord p.freeCtr).toNat }
        { p with freeCtr := p.freeCtr + 1 }) := by
  simp only [jobCommand, hx, hstate, hgo, drawFree]
  rfl

/-- ABORT of a running job that runs to its end stops it where it stands (R258). -/
theorem jobCommand_ending (i view : Nat) (p : Part) (x : FoldJob) (hx : jobAt i p = some x) (hstate : x.state = .running) (hgo : x.go = true) :
    jobCommand i true view p = jobEnd view i 0 (jobStops i .aborted 0 { x with ask := none, budget := 0 } p) := by
  simp [jobCommand, jobCommandEnds, hx, hstate, hgo, jobStops]

/-- Settles O26. -/
theorem jobCommandsAct : Obligations.JobCommandsAct := by
  intro s view cmd hc t i d new
  have hperform (op : Nat) {q r : Part} (hop : jobPerform view (withOp 3 op cmd) t = q) (h : q = r) :
      onPart (fun u => atView view (writeJobCmd view (withOp 3 op cmd)) u) s = .next (settled s r) :=
    command_settles hc ((writeJobCmd_runs view (withOp 3 op cmd) s.part hc).trans (hop.trans h))
  refine ⟨fun hidle hdesc hgallery => ⟨fun hfold htable hslot => ?folds, fun hfold => ?unfolds⟩,
    fun x hx hstate => ⟨fun hgo => ⟨?aborts, ?queries⟩, fun hgo => ?ending⟩⟩
  case folds => exact hperform 1 (jobPerform_start view cmd t) (jobStart_fold view i t d rfl hidle hdesc hgallery hfold htable hslot)
  case unfolds => exact hperform 1 (jobPerform_start view cmd t) (jobStart_unfold view i t d rfl hidle hdesc hgallery hfold)
  case aborts => exact hperform 2 (jobPerform_abort view cmd t) (jobCommand_running i view true t x hx hstate hgo)
  case queries => exact hperform 3 (jobPerform_query view cmd t) (jobCommand_running i view false t x hx hstate hgo)
  case ending => exact hperform 2 (jobPerform_abort view cmd t) (jobCommand_ending i view t x hx hstate hgo)

end Sys2Proof.Machine

/-!
PROOFS. The commands of fills, surveys and channel units, and the obligations O27 to O29.
-/

namespace Sys2Proof.Machine

/-! ### Fills -/

/-- START of a fill whose lines pass the checks begins it (R308). -/
theorem fillPerform_start (view : Nat) (cmd : Word64) (p : Part) (htray : isTray p = true) (hnone : p.dram.fill = none)
    (hcheck : fillCheck (withOp 1 1 cmd) (p.dram.fillLines.getD view 0) p = 0) :
    fillPerform view (withOp 1 1 cmd) p =
      fillBegins view (withOp 1 1 cmd) (p.dram.fillLines.getD view 0) (p.dram.fillPattern.getD view 0) p := by
  have hop : field (withOp 1 1 cmd) 1 0 = 1 := withOp_op_of_lt cmd (by norm_num)
  simp only [fillPerform, htray, hop, hnone, hcheck]
  rfl

/-- ABORT acts on the running fill also from the view that is BUSY with it (R321). -/
theorem writeFillCmd_abort (view : Nat) (p : Part) (r : FillRun) (hfill : p.dram.fill = some r) (hready : blockReady 11 p = true)
    (hview : view < 4) (htray : isTray p = true) (hown : r.view = view) :
    writeFillCmd view 2 p = fillEndCmd view 5 (extentsDone r * 2 ^ 32) (onDram (fun d => { d with fill := none }) p) := by
  have hop : field 2 1 0 = 2 := by decide
  simp [writeFillCmd, hop, hfill, hready, hview, htray, hown, fillAborts]

/-- Settles O27. -/
theorem fillCommandsAct : Obligations.FillCommandsAct := by
  intro s view cmd
  refine ⟨fun hc htray => ?start, fun r hview hopen hready htray hfill hown => ?abort⟩
  case start =>
    intro t lines waits r begun hnone hcheck
    have hop : field (withOp 1 1 cmd) 1 0 ≠ 2 := by simp [withOp_op_of_lt cmd (show 1 < 2 ^ (1 + 1) by norm_num)]
    have hbackground : bitAt (withOp 1 1 cmd) 3 = bitAt cmd.toNat 3 := withOp_bitAt 1 1 cmd 3 (by norm_num)
    refine command_settles hc ((writeFillCmd_runs view _ s.part hc hop).trans
      ((fillPerform_start view cmd t ((isTray_took .fill view s.part).trans htray) hnone hcheck).trans ?_))
    simp only [fillBegins, drawFree, hbackground]
    rfl
  case abort => exact atView_settles hopen (writeFillCmd_abort view s.part r hfill hready hview htray hown)

/-! ### Surveys -/

/-- START of a survey of backed lines begins it under the next SURVEY_ID (R313). -/
theorem surveyPerform_start (view : Nat) (cmd : Word64) (p : Part) (base len : Nat) (htray : isTray p = true)
    (hbase : p.dram.surveyBase.getD view 0 % 2 ^ 46 = base) (hlen : p.dram.surveyLen.getD view 0 % 2 ^ 46 = len)
    (hnone : p.dram.survey = none) (haligned : base % 128 = 0) (hlines : len % 128 = 0) (hsome : len ≠ 0)
    (hbacked : isDramHome ((base + len - 1) / 2 ^ 28) p = true) :
    surveyPerform view (withOp 1 1 cmd) p =
      (let r : SurveyRun :=
        { view := view, base := base, len := len, repair := bitAt cmd.toNat 2, skipFree := bitAt cmd.toNat 3,
          early := if canSpend 8 (surveyCost len) p then some p.freeCtr else none, paid := 0 }
       let ident := p.dram.surveyId + 1
       surveyLines r (surveyEarly r.early) (onDram (fun d =>
          { d with
            survey := some r, surveyId := ident, summary := [0, 0, 0, 0, 0, ident.toNat * 2 ^ 32, 0, 0]
            surveySeq := seqLeave d.surveySeq })
          { p with freeCtr := p.freeCtr + 1 })) := by
  have hop : field (withOp 1 1 cmd) 1 0 = 1 := withOp_op_of_lt cmd (by norm_num)
  have hrepair : bitAt (withOp 1 1 cmd) 2 = bitAt cmd.toNat 2 := withOp_bitAt 1 1 cmd 2 (by norm_num)
  have hskip : bitAt (withOp 1 1 cmd) 3 = bitAt cmd.toNat 3 := withOp_bitAt 1 1 cmd 3 (by norm_num)
  simp only [surveyPerform, htray, hop, hnone, hbase, hlen, haligned, hlines, hsome, hbacked, hrepair, hskip]
  rfl

/-- ABORT acts on the running survey also from the view that is BUSY with it (R315). -/
theorem writeSurveyCmd_abort (view : Nat) (p : Part) (r : SurveyRun) (hsurvey : p.dram.survey = some r) (hready : blockReady 11 p = true)
    (hview : view < 4) (htray : isTray p = true) (hown : r.view = view) :
    writeSurveyCmd view 2 p =
      surveyOver r (onDram (fun d => { d with summary := lset d.summary 5 (d.summary.getD 5 0 ||| 2 ^ 48) }) p) := by
  have hop : field 2 1 0 = 2 := by decide
  simp [writeSurveyCmd, hop, hsurvey, hready, hview, htray, hown, surveyAborts]

/-- Settles O28. -/
theorem surveyCommandsAct : Obligations.SurveyCommandsAct := by
  intro s view cmd
  refine ⟨fun hc htray => ?start, fun r hview hopen hready htray hsurvey hown => ?abort⟩
  case start =>
    intro t base len ident r hnone haligned hlines hsome hbacked
    have hop : field (withOp 1 1 cmd) 1 0 ≠ 2 := by simp [withOp_op_of_lt cmd (show 1 < 2 ^ (1 + 1) by norm_num)]
    exact command_settles hc ((writeSurveyCmd_runs view _ s.part hc hop).trans
      (surveyPerform_start view cmd t base len ((isTray_took .survey view s.part).trans htray) rfl rfl hnone haligned hlines hsome hbacked))
  case abort => exact atView_settles hopen (writeSurveyCmd_abort view s.part r hsurvey hready hview htray hown)

/-! ### Channel units -/

/-- The command that a row writes to CHU_CMD: its operation, with the row's UNIT and TICKET. -/
theorem chuCommand_fields (cmd : Word64) (op : Nat) (hop : op < 16) :
    field (withOp 3 op cmd) 3 0 = op ∧ field (withOp 3 op cmd) 8 4 = field cmd.toNat 8 4 ∧
      field (withOp 3 op cmd) 31 16 = field cmd.toNat 31 16 :=
  ⟨withOp_op_of_lt cmd hop, withOp_above 3 op cmd 8 4 (by norm_num), withOp_above 3 op cmd 31 16 (by norm_num)⟩

/-- SUBMIT of a descriptor that passes every check queues its command under the unit's next ticket (R280). -/
theorem chuPerform_submit (view : Nat) (cmd : Word64) (p : Part) (d : List Nat) (hd : p.chu.descs.getD view [] = d)
    (hresult : submitResult d p = 0) :
    chuPerform view (withOp 3 1 cmd) p =
      (let next := (p.chu.tickets.getD (chuUnit d) 0 + 1) % 65536
       chuEndCmd view 0 (chuFields (chuUnit d) next false 0) (onChannelUnits (fun b =>
          { b with
            cmds := b.cmds ++ [{ unit := chuUnit d, ticket := next, desc := d, done := 0, poisoned := 0, firstBad := 0,
                                 status := stOK, running := false, ended := false, cancelled := false, paid := 0 }]
            tickets := lset b.tickets (chuUnit d) next }) p)) := by
  obtain ⟨hop, -, -⟩ := chuCommand_fields cmd 1 (by norm_num)
  simp only [chuPerform, hop, chuSubmit, hd, hresult]
  rfl

section Waiting

variable (view : Nat) (cmd : Word64) (p : Part) (c : ChuCmd)
  (hfound : (p.chu.cmds.find? fun c => c.unit = field cmd.toNat 8 4 && c.ticket = field cmd.toNat 31 16) = some c)
  (hwaits : c.running = false)
include hfound hwaits

/-- CANCEL of a command that waits takes it away with a CANCELLED event (R282). -/
theorem chuPerform_cancel :
    chuPerform view (withOp 3 2 cmd) p =
      chuEndCmd view 0 (chuFields (field cmd.toNat 8 4) (field cmd.toNat 31 16) false 0) (chuEvent 3 stOK c (onChannelUnits (fun b =>
          { b with cmds := b.cmds.filter fun k => !(k.unit = c.unit && k.ticket = c.ticket) }) p)) := by
  obtain ⟨hop, hunit, hticket⟩ := chuCommand_fields cmd 2 (by norm_num)
  simp only [chuPerform, hop, hunit, hticket, chuCancel, hfound, hwaits, chuLeaves]
  rfl

/-- QUERY of a command that waits reports it and changes nothing else (R293). -/
theorem chuPerform_query :
    chuPerform view (withOp 3 3 cmd) p = chuEndCmd view 0 (chuFields (field cmd.toNat 8 4) (field cmd.toNat 31 16) false 0) p := by
  obtain ⟨hop, hunit, hticket⟩ := chuCommand_fields cmd 3 (by norm_num)
  simp only [chuPerform, hop, hunit, hticket, chuQuery, hfound, hwaits]
  rfl

end Waiting

/-- Settles O29. -/
theorem channelUnitCommandsAct : Obligations.ChannelUnitCommandsAct := by
  intro s view cmd hc t d next unit ticket
  have hperform (op : Nat) {q : Part} (h : chuPerform view (withOp 3 op cmd) t = q) :
      onPart (fun u => atView view (writeChuCmd view (withOp 3 op cmd)) u) s = .next (settled s q) :=
    command_settles hc ((writeChuCmd_runs view (withOp 3 op cmd) s.part hc).trans h)
  refine ⟨fun hresult => ?submit, fun c hfound hwaits => ⟨?cancel, ?query⟩⟩
  case submit => exact hperform 1 (chuPerform_submit view cmd t d rfl hresult)
  case cancel => exact hperform 2 (chuPerform_cancel view cmd t c hfound hwaits)
  case query => exact hperform 3 (chuPerform_query view cmd t c hfound hwaits)

end Sys2Proof.Machine

/-!
PROOFS. The commands of the flash tier and of the galleries, and the obligations O30 and O31.
-/

namespace Sys2Proof.Machine

/-! ### The flash tier -/

/-- The command that a row writes to FLT_CMD: its operation, with the row's other fields. -/
theorem fltCommand_fields (cmd : Word64) (op : Nat) (hop : op < 16) :
    field (withOp 3 op cmd) 3 0 = op ∧ field (withOp 3 op cmd) 25 8 = field cmd.toNat 25 8 ∧
      field (withOp 3 op cmd) 43 26 = field cmd.toNat 43 26 ∧ field (withOp 3 op cmd) 59 44 = field cmd.toNat 59 44 ∧
      bitAt (withOp 3 op cmd) 4 = bitAt cmd.toNat 4 :=
  ⟨withOp_op_of_lt cmd hop, withOp_above 3 op cmd 25 8 (by norm_num), withOp_above 3 op cmd 43 26 (by norm_num),
    withOp_above 3 op cmd 59 44 (by norm_num), withOp_bitAt 3 op cmd 4 (by norm_num)⟩

section FlashTier

variable (view : Nat) (cmd : Word64) (p : Part) (htray : isTray p = true)
include htray

/-- DEMOTE that nothing refuses begins a move (R338). -/
theorem fltPerform_demote (h : demoteResult (field cmd.toNat 25 8) (field cmd.toNat 43 26) (field cmd.toNat 59 44) p = 0) :
    fltPerform view (withOp 3 1 cmd) p =
      startMove view true (bitAt cmd.toNat 4) (field cmd.toNat 25 8) (field cmd.toNat 43 26) (field cmd.toNat 59 44) p := by
  obtain ⟨hop, he, hdest, hzone, hbit⟩ := fltCommand_fields cmd 1 (by norm_num)
  simp only [fltPerform, htray, hop, he, hdest, hzone, hbit, h]
  rfl

/-- PROMOTE that nothing refuses begins a move (R339). -/
theorem fltPerform_promote (h : promoteResult (field cmd.toNat 25 8) (field cmd.toNat 43 26) p = 0) :
    fltPerform view (withOp 3 2 cmd) p =
      startMove view false (bitAt cmd.toNat 4) (field cmd.toNat 25 8) (field cmd.toNat 43 26) 0 p := by
  obtain ⟨hop, he, hdest, -, hbit⟩ := fltCommand_fields cmd 2 (by norm_num)
  simp only [fltPerform, htray, hop, he, hdest, hbit, h]
  rfl

theorem fltPerform_abort : fltPerform view (withOp 3 3 cmd) p = moveAbort view (field (p.flt.cmdArg.getD view 0) 21 16) p := by
  obtain ⟨hop, -⟩ := fltCommand_fields cmd 3 (by norm_num)
  simp only [fltPerform, htray, hop]
  rfl

theorem fltPerform_addRoom : fltPerform view (withOp 3 4 cmd) p = addRoom view (field cmd.toNat 25 8) p := by
  obtain ⟨hop, he, -⟩ := fltCommand_fields cmd 4 (by norm_num)
  simp only [fltPerform, htray, hop, he]
  rfl

theorem fltPerform_removeRoom : fltPerform view (withOp 3 5 cmd) p = removeRoom view (field cmd.toNat 25 8) p := by
  obtain ⟨hop, he, -⟩ := fltCommand_fields cmd 5 (by norm_num)
  simp only [fltPerform, htray, hop, he]
  rfl

theorem fltPerform_adopt :
    fltPerform view (withOp 3 6 cmd) p = adopt view (field cmd.toNat 25 8) (field (p.flt.cmdArg.getD view 0) 15 0) p := by
  obtain ⟨hop, he, -⟩ := fltCommand_fields cmd 6 (by norm_num)
  simp only [fltPerform, htray, hop, he]
  rfl

theorem fltPerform_discard : fltPerform view (withOp 3 7 cmd) p = discard view (field cmd.toNat 25 8) p := by
  obtain ⟨hop, he, -⟩ := fltCommand_fields cmd 7 (by norm_num)
  simp only [fltPerform, htray, hop, he]
  rfl

theorem fltPerform_enroll : fltPerform view (withOp 3 8 cmd) p = enroll view (field cmd.toNat 59 44 % 8) p := by
  obtain ⟨hop, -, -, hzone, -⟩ := fltCommand_fields cmd 8 (by norm_num)
  simp only [fltPerform, htray, hop, hzone]
  rfl

end FlashTier

/-- ABORT of a move that runs stops it (R341). -/
theorem moveAbort_running (view n : Nat) (p : Part) (h : (moveNum n p).isSome = true) :
    moveAbort view n p = fltEnd view 0 (stopMove n (some stOK) p) := by
  obtain ⟨m, hm⟩ := Option.isSome_iff_exists.mp h
  simp only [moveAbort, hm]

/-- ADD_ROOM of a free interleaved extent, while the anteroom has room for one more (R335). -/
theorem addRoom_free (view e : Nat) (p : Part) (hinside : e < interleavedExtents p) (hreserved : isReserved e p = false)
    (hfree : (extentAt e p).state = .free) (hunused : inUse e p = false) (hroom : p.flt.room.length < 1024) :
    addRoom view e p = stageWaiting (fltEnd view 0 (onFlash (fun b => { b with room := b.room ++ [e] }) p)) := by
  simp [addRoom, Nat.not_le.mpr hinside, hreserved, hfree, hunused, Nat.not_le.mpr hroom]

/-- REMOVE_ROOM of an extent of the anteroom begins to empty it (R335). -/
theorem removeRoom_held (view e : Nat) (p : Part) (h : e ∈ p.flt.room) :
    removeRoom view e p =
      evictRoom e (onFlash (fun b => { b with removing := b.removing ++ [e], run := some (.removeRoom view e) }) p) := by
  simp [removeRoom, inRoom, h]

/-- ADOPT of a bound extent that holds no edition and is FREE (R345). -/
theorem adopt_free (view e epoch : Nat) (p : Part) (b : JRec) (hbound : tget? p.flt.bound e = some b)
    (hclass : extClassOf b.cls ≠ .edition) (hfree : (extentAt e p).state = .free) (hdest : isMoveDest e p = false) :
    adopt view e epoch p =
      fltEnd view 0 (onFlash (fun f => { f with staged := f.staged.filter fun p => !(p.1 / 4096 = e && p.2.kept) })
        (changeExtent e (fun _ =>
          { object := b.object, epoch := BitVec.ofNat 16 epoch, twinPart := b.twinPart, twinValid := b.twinValid,
            gallery := b.gallery, state := .live, cls := extClassOf b.cls, opset := b.opset, place := .flash, detail := 0,
            ordinal := b.ordinal }) p)) := by
  simp [adopt, hbound, hclass, hfree, hdest]

/-- DISCARD of a LIVE extent of the flash window makes it LOST (R345). -/
theorem discard_live (view e : Nat) (p : Part) (hwindow : inFlashWindow e = true) (hlive : (extentAt e p).state = .live)
    (hdest : isMoveDest e p = false) :
    discard view e p =
      checkRoom (fltEnd view 0 (dropStaged e (dropWaiting e stLost (changeExtent e (fun x => { x with state := .lost }) (unbindExtent e p))))) := by
  simp [discard, hwindow, hlive, hdest]

/-- ENROLL of a drive that may be enrolled begins to reset its zones, once demotions to it have stopped (R332). -/
theorem enroll_allowed (view d : Nat) (p : Part)
    (h : (drive d p).state = .unenrolled ∨ (drive d p).state = .foreign ∨
      (drive d p).state = .ready ∧ (p.flt.bound.any fun q => driveOf q.1 = d) = false) :
    enroll view d p =
      nvme d .resetAll false (onFlash (fun b => { b with run := some (.enroll view d) })
        ((p.flt.moves.filter fun m => m.demote && m.drive = d).foldl (fun p m => stopMove m.num (some stOK) p) p)) := by
  rcases h with h | h | ⟨h, hbound⟩
  · simp [enroll, h]
  · simp [enroll, h]
  · simp only [enroll, h, hbound]
    rfl

/-- Settles O30. -/
theorem flashCommandsAct : Obligations.FlashCommandsAct := by
  intro s view cmd hc hsTray t e dest zone arg
  have htray : isTray t = true := (isTray_took .flt view s.part).trans hsTray
  have hperform (op : Nat) {q : Part} (h : fltPerform view (withOp 3 op cmd) t = q) :
      onPart (fun u => atView view (writeFltCmd view (withOp 3 op cmd)) u) s = .next (settled s q) :=
    command_settles hc ((writeFltCmd_runs view (withOp 3 op cmd) s.part hc).trans h)
  refine ⟨fun h => ?demotes, fun h => ?promotes, fun h => ?aborts, fun hinside hreserved hfree hunused hroom => ?adds, fun h => ?removes,
    fun hwindow => ⟨fun b hbound hclass hfree hdest => ?adopts, fun hlive hdest => ?discards⟩, fun h => ?enrolls⟩
  case demotes => exact hperform 1 (fltPerform_demote view cmd t htray h)
  case promotes => exact hperform 2 (fltPerform_promote view cmd t htray h)
  case aborts => exact hperform 3 ((fltPerform_abort view cmd t htray).trans (moveAbort_running view _ t h))
  case adds =>
    exact hperform 4 ((fltPerform_addRoom view cmd t htray).trans (addRoom_free view e t hinside hreserved hfree hunused hroom))
  case removes => exact hperform 5 ((fltPerform_removeRoom view cmd t htray).trans (removeRoom_held view e t h))
  case adopts => exact hperform 6 ((fltPerform_adopt view cmd t htray).trans (adopt_free view e _ t b hbound hclass hfree hdest))
  case discards => exact hperform 7 ((fltPerform_discard view cmd t htray).trans (discard_live view e t hwindow hlive hdest))
  case enrolls => exact hperform 8 ((fltPerform_enroll view cmd t htray).trans (enroll_allowed view (zone % 8) t h))

/-! ### Galleries -/

/-- The command that a row writes to GAL_CMD: its operation, with the row's GALLERY and BIND entry. -/
theorem galCommand_fields (cmd : Word64) (op : Nat) (hop : op < 16) :
    field (withOp 3 op cmd) 3 0 = op ∧ field (withOp 3 op cmd) 6 4 = field cmd.toNat 6 4 ∧
      field (withOp 3 op cmd) 13 8 = field cmd.toNat 13 8 :=
  ⟨withOp_op_of_lt cmd hop, withOp_above 3 op cmd 6 4 (by norm_num), withOp_above 3 op cmd 13 8 (by norm_num)⟩

section Galleries

variable (view : Nat) (cmd : Word64) (p : Part)

/-- DISABLE of an ACTIVE gallery (R385). -/
theorem galPerform_disable (h : (gallery (field cmd.toNat 6 4) p).state = .active) :
    galPerform view (withOp 3 1 cmd) p =
      drainGallery (field cmd.toNat 6 4) (onGalleries (fun b => { b with waitViews := b.waitViews ++ [(view, field cmd.toNat 6 4)] })
        (onGallery (field cmd.toNat 6 4) (fun x => { x with state := .draining }) p)) := by
  obtain ⟨hop, hg, -⟩ := galCommand_fields cmd 1 (by norm_num)
  simp [galPerform, hop, hg, disableGal, h]

/-- ENABLE of a DISABLED gallery (R385). -/
theorem galPerform_enable (h : (gallery (field cmd.toNat 6 4) p).state = .disabled) :
    galPerform view (withOp 3 2 cmd) p = galEnd view 0 (onGallery (field cmd.toNat 6 4) (fun x => { x with state := .active }) p) := by
  obtain ⟨hop, hg, -⟩ := galCommand_fields cmd 2 (by norm_num)
  simp [galPerform, hop, hg, enableGal, h]

/-- RINSE of a DISABLED gallery (R386). -/
theorem galPerform_rinse (h : (gallery (field cmd.toNat 6 4) p).state = .disabled) :
    galPerform view (withOp 3 3 cmd) p = rinse view [field cmd.toNat 6 4] false p := by
  obtain ⟨hop, hg, -⟩ := galCommand_fields cmd 3 (by norm_num)
  simp [galPerform, hop, hg, h]

/-- RINSE_ALL, where no gallery is ACTIVE, DRAINING or RINSING, is for the DISABLED ones (R386). -/
theorem galPerform_rinseAll (h : (p.gals.gals.all fun x => x.state = .disabled || x.state = .vacant) = true) :
    galPerform view (withOp 3 4 cmd) p = rinse view ((List.range 8).filter fun g => (gallery g p).state = .disabled) true p := by
  obtain ⟨hop, -⟩ := galCommand_fields cmd 4 (by norm_num)
  simp only [galPerform, hop, h, if_true]

theorem galPerform_enterVitrine : galPerform view (withOp 3 5 cmd) p = galEnd view 0 (enterVitrine false p) := by
  obtain ⟨hop, -⟩ := galCommand_fields cmd 5 (by norm_num)
  simp only [galPerform, hop]

/-- SEAL of an IMPORTING binding (R401). -/
theorem galPerform_seal (h : (bindEntry (field cmd.toNat 13 8) p).state = .importing) :
    galPerform view (withOp 3 6 cmd) p =
      galEnd view 0 (onGalleries (fun b =>
        { b with bindings := tset b.bindings (field cmd.toNat 13 8) { bindEntry (field cmd.toNat 13 8) p with state := .sealed } }) p) := by
  obtain ⟨hop, -, hn⟩ := galCommand_fields cmd 6 (by norm_num)
  simp only [galPerform, hop, hn, h, if_true]

/-- UNBIND of an entry in use (R401). -/
theorem galPerform_unbind (h : (bindEntry (field cmd.toNat 13 8) p).state ≠ .free) :
    galPerform view (withOp 3 7 cmd) p =
      galEnd view 0 (onGalleries (fun b => { b with bindings := tdel b.bindings (field cmd.toNat 13 8) }) p) := by
  obtain ⟨hop, -, hn⟩ := galCommand_fields cmd 7 (by norm_num)
  simp only [galPerform, hop, hn, h, if_false]

end Galleries

/-- The views that wait for a rinse of galleries, entered. -/
def rinseAwaited (view : Nat) (gs : List Nat) (p : Part) : Part :=
  onGalleries (fun b => { b with waitViews := b.waitViews ++ gs.map fun g => (view, g) }) p

/-- A rinse starts at once where no census runs (R387). -/
theorem rinse_starts (view : Nat) (gs : List Nat) (all : Bool) (p : Part) (h : p.tel.census ≠ .running) :
    rinse view gs all p = rinseIdle view gs (rinseStarts gs all (rinseAwaited view gs p)) := by
  have hcensus : (rinseAwaited view gs p).tel.census ≠ .running := h
  rw [rinse]
  exact if_neg hcensus

/-- A running census puts a rinse off (R387). -/
theorem rinse_deferred (view : Nat) (gs : List Nat) (all : Bool) (p : Part) (h : p.tel.census = .running) :
    rinse view gs all p =
      onGalleries (fun b => { b with rinseWait := gs, rinseAll := all, rinseView := some view }) (rinseAwaited view gs p) := by
  have hcensus : (rinseAwaited view gs p).tel.census = .running := h
  rw [rinse]
  exact if_pos hcensus

/-- The command of a rinse of one gallery waits for it. -/
theorem rinseIdle_one (view g : Nat) (p : Part) : rinseIdle view [g] p = p := by simp [rinseIdle]

/-- Settles O31. -/
theorem galleryCommandsAct : Obligations.GalleryCommandsAct := by
  intro s view cmd hc t g n off waits
  have hperform (op : Nat) {q : Part} (h : galPerform view (withOp 3 op cmd) t = q) :
      onPart (fun u => atView view (writeGalCmd view (withOp 3 op cmd)) u) s = .next (settled s q) :=
    command_settles hc ((writeGalCmd_runs view (withOp 3 op cmd) s.part hc).trans h)
  refine ⟨fun h => ?disables, fun h => ⟨?enables, fun hcensus => ?rinses, fun hcensus => ?defers⟩, fun h hcensus => ?rinsesAll,
    fun _ => ?enters, fun h => ?seals, fun h => ?unbinds⟩
  case disables => exact hperform 1 (galPerform_disable view cmd t h)
  case enables => exact hperform 2 (galPerform_enable view cmd t h)
  case rinses =>
    exact hperform 3 ((galPerform_rinse view cmd t h).trans ((rinse_starts view [g] false t hcensus).trans (rinseIdle_one view g _)))
  case defers => exact hperform 3 ((galPerform_rinse view cmd t h).trans (rinse_deferred view [g] false t hcensus))
  case rinsesAll => exact hperform 4 ((galPerform_rinseAll view cmd t h).trans (rinse_starts view off true t hcensus))
  case enters => exact hperform 5 (galPerform_enterVitrine view cmd t)
  case seals => exact hperform 6 (galPerform_seal view cmd t h)
  case unbinds => exact hperform 7 (galPerform_unbind view cmd t h)

end Sys2Proof.Machine

/-!
PROOFS. The commands of failure and recovery, and the obligation O32.
-/

namespace Sys2Proof.Machine

/-- The command that a row writes to FLR_CMD: its operation, with the row's other fields. -/
theorem flrCommand_fields (cmd : Word64) (op : Nat) (hop : op < 16) :
    field (withOp 3 op cmd) 3 0 = op ∧ field (withOp 3 op cmd) 25 8 = field cmd.toNat 25 8 ∧
      field (withOp 3 op cmd) 37 26 = field cmd.toNat 37 26 ∧ field (withOp 3 op cmd) 49 38 = field cmd.toNat 49 38 ∧
      bitAt (withOp 3 op cmd) 4 = bitAt cmd.toNat 4 :=
  ⟨withOp_op_of_lt cmd hop, withOp_above 3 op cmd 25 8 (by norm_num), withOp_above 3 op cmd 37 26 (by norm_num),
    withOp_above 3 op cmd 49 38 (by norm_num), withOp_bitAt 3 op cmd 4 (by norm_num)⟩

/-! ### What each operation runs (R442) -/

section Operations

variable (view : Nat) (cmd : Word64) (p : Part)

theorem flrPerform_reset : flrPerform view (withOp 3 1 cmd) p = fastReset 2 p := by
  obtain ⟨hop, -⟩ := flrCommand_fields cmd 1 (by norm_num)
  simp only [flrPerform, hop]

theorem flrPerform_hold :
    flrPerform view (withOp 3 2 cmd) p =
      holdExt view (field cmd.toNat 25 8) (field cmd.toNat 37 26) (field (p.flr.cmdArg.getD view 0) 17 0) p := by
  obtain ⟨hop, he, hpart, -⟩ := flrCommand_fields cmd 2 (by norm_num)
  simp only [flrPerform, hop, he, hpart]

theorem flrPerform_release : flrPerform view (withOp 3 3 cmd) p = releaseHold view (field cmd.toNat 25 8) p := by
  obtain ⟨hop, he, -⟩ := flrCommand_fields cmd 3 (by norm_num)
  simp only [flrPerform, hop, he]

theorem flrPerform_mirror : flrPerform view (withOp 3 4 cmd) p = mirrorCopy view (field cmd.toNat 25 8) p := by
  obtain ⟨hop, he, -⟩ := flrCommand_fields cmd 4 (by norm_num)
  simp only [flrPerform, hop, he]

theorem flrPerform_resume :
    flrPerform view (withOp 3 5 cmd) p =
      flrEnd view 0 (onRecovery (fun b => { b with twinDown := b.twinDown.filter fun x => x ≠ field cmd.toNat 37 26 }) p) := by
  obtain ⟨hop, -, hpart, -⟩ := flrCommand_fields cmd 5 (by norm_num)
  simp only [flrPerform, hop, hpart]

theorem flrPerform_begin : flrPerform view (withOp 3 6 cmd) p = beginStand view (field cmd.toNat 37 26) p := by
  obtain ⟨hop, -, hpart, -⟩ := flrCommand_fields cmd 6 (by norm_num)
  simp only [flrPerform, hop, hpart]

theorem flrPerform_send :
    flrPerform view (withOp 3 7 cmd) p = sendCopies view (field cmd.toNat 37 26) (field cmd.toNat 49 38) p := by
  obtain ⟨hop, -, hpart, htarget, -⟩ := flrCommand_fields cmd 7 (by norm_num)
  simp only [flrPerform, hop, hpart, htarget]

theorem flrPerform_abandon : flrPerform view (withOp 3 8 cmd) p = abandonTwin view (field cmd.toNat 37 26) p := by
  obtain ⟨hop, -, hpart, -⟩ := flrCommand_fields cmd 8 (by norm_num)
  simp only [flrPerform, hop, hpart]

theorem flrPerform_take : flrPerform view (withOp 3 9 cmd) p = takeIdentity view (bitAt cmd.toNat 4) p := by
  obtain ⟨hop, -, -, -, hforce⟩ := flrCommand_fields cmd 9 (by norm_num)
  simp only [flrPerform, hop, hforce]

theorem flrPerform_abort : flrPerform view (withOp 3 10 cmd) p = abortStand view p := by
  obtain ⟨hop, -⟩ := flrCommand_fields cmd 10 (by norm_num)
  simp only [flrPerform, hop]

theorem flrPerform_unquarantine :
    flrPerform view (withOp 3 11 cmd) p = unquarantine view (field (p.flr.cmdArg.getD view 0) 24 18) p := by
  obtain ⟨hop, -⟩ := flrCommand_fields cmd 11 (by norm_num)
  simp only [flrPerform, hop]

theorem flrPerform_selftest :
    flrPerform view (withOp 3 12 cmd) p = selftest view (field (p.flr.cmdArg.getD view 0) 24 18) p := by
  obtain ⟨hop, -⟩ := flrCommand_fields cmd 12 (by norm_num)
  simp only [flrPerform, hop]

end Operations

/-! ### What each command does where the spec lets it act -/

section Commands

variable (view : Nat) (p : Part)

/-- A fast reset that may begin: the blocks are reset, and the twins are told of the entries that this changed (R415, R425). -/
theorem fastReset_allowed (cause : Nat) (h : mayReset p = true) :
    fastReset cause p =
      (let q := onCurator (fun c => { c with fastPending := true }) p
       trainPorts (tellTwins q (note 255 2 none .fastReset [cause] (onTelemetry (fun b => { b with later := [] }) (resetBlocks cause q))))) := by
  rw [fastReset, if_neg (by simp [h])]

/-- HOLD of a FREE extent enters a hold without an object (R420). -/
theorem holdExt_free (e part src : Nat) (hhome : isDramHome e p = true) (hreserved : isReserved e p = false)
    (hdest : isCopyDest e p = false) (hfree : (extentAt e p).state = .free) (hunused : inUse e p = false) (hnone : holdOf part src p = none) :
    holdExt view e part src p =
      flrEnd view 0 (onRecovery (fun b =>
        { b with holds := tset b.holds e
                   { object := 0, srcPart := part, srcExt := src, epoch := 0, gallery := 0, state := .free, cls := .owned,
                     opset := 0, synced := false, next := 0 } }) p) := by
  simp [holdExt, hhome, hreserved, hdest, hfree, hunused, hnone]

theorem releaseHold_held (e : Nat) (hhome : isDramHome e p = true) (hheld : isHeld e p = true) :
    releaseHold view e p = flrEnd view 0 (onRecovery (fun b => { b with holds := tdel b.holds e }) p) := by
  simp [releaseHold, hhome, hheld]

/-- MIRROR_COPY of a mirrored extent that is not being copied starts to copy (R427). -/
theorem mirrorCopy_starts (e : Nat) (hbacked : isBacked e p = true) (hvalid : (extentAt e p).twinValid = true)
    (hup : isTwinDown (extentAt e p).twinPart p = false) (hidle : (p.flr.mirrors.any fun r => r.ext = e) = false) :
    mirrorCopy view e p = flrEnd view 0 (startMirror e (extentAt e p).twinPart false p) := by
  simp only [mirrorCopy, hbacked, hvalid, hup, hidle]
  rfl

/-- A spare part is no stand-in yet. -/
theorem standIn_of_isSpare (h : isSpare p = true) : p.flr.standIn = .none ∨ p.flr.standIn = .spare := by
  simp only [isSpare, Bool.and_eq_true, Bool.or_eq_true, decide_eq_true_eq] at h
  exact h.1.1.2

/-- BEGIN makes a spare part the shadow of another (R430). -/
theorem beginStand_spare (h : Nat) (hspare : isSpare p = true) (hother : h ≠ myPart p) :
    beginStand view h p =
      flrEnd view 0 (onRecovery (fun b =>
        { b with standIn := .shadow, forPart := h, standExts := [], tablesIn := false, senders := [] })
        (onLinks (fun l => { l with resync := true }) p)) := by
  rcases standIn_of_isSpare p hspare with hstand | hstand <;> simp [beginStand, hstand, hother, hspare]

/-- SEND to a stand-in that nothing is being sent to yet (R430). -/
theorem sendCopies_starts (h target : Nat) (hidle : (p.flr.sends.any fun r => r.standIn = target) = false) :
    sendCopies view h target p =
      (let r := sendGo 1024 { failed := h, standIn := target, exts := heldFor h p, next := none, out := 0, view := some view }
        (onRecovery (fun b => { b with standIns := tset b.standIns h target }) p)
       sendPut r.1 r.2) := by
  rw [sendCopies, if_neg (by simp only [hidle, Bool.false_eq_true, not_false_eq_true])]

/-- ABANDON_TWIN where no copy is awaited ends the twin's part in the sending (R434). -/
theorem abandonTwin_noCopies (twin : Nat) (hstand : p.flr.standIn = .shadow ∨ p.flr.standIn = .compare) (hnone : p.flr.standExts = []) :
    abandonTwin view twin p =
      (let q := onRecovery (fun b => { b with senders := b.senders.filter fun x => x ≠ twin }) p
       flrEnd view 0 (if p.flr.standIn = .compare then goCompare q else checkShadow q)) := by
  have hallowed : ¬ ((decide (p.flr.standIn ≠ .shadow) && decide (p.flr.standIn ≠ .compare)) = true) := by
    rcases hstand with h | h <;> simp [h]
  simp only [abandonTwin, hallowed, hnone]
  rfl

/-- TAKE once the comparison is over (R430 step 7). -/
theorem takeIdentity_compared (hstand : p.flr.standIn = .compare) (hover : compareOver p = true) :
    takeIdentity view false p =
      flrEnd view 0 (flrEvent 6 0 p.flr.forPart 0 (scanDirectory (onRecovery (fun b => { b with standIn := .taken, forPart := 0 })
        (adoptStreams (onPool (fun b => { b with partNumber := p.flr.forPart }) p))))) := by
  simp only [takeIdentity, hstand, hover]
  rfl

/-- ABORT_STANDIN makes the part a spare one again (R442). -/
theorem abortStand_standing (hstand : p.flr.standIn = .shadow ∨ p.flr.standIn = .compare) :
    abortStand view p =
      flrEnd view 0 (onRecovery (fun b =>
        { b with standIn := .spare, forPart := 0, standExts := [], tablesIn := false, senders := [] })
        (onLinks (fun l => { l with reseq := l.reseq.filter fun q => decide (q.1 < 2 ^ 21) })
        (onFlash (fun f => { f with staged := f.staged.filter fun q => !q.2.kept })
        (onCatalogue (fun c =>
          { c with regions := [], members := [], dir := [], dirCache := [], dirInit := [], txns := [], waiting := [] })
        (onRegions (fun r => { r with owners := [], editions := [], spares := [], leases := [] })
        (onPool (fun b => { b with extents := [], objects := [], loans := [] }) p)))))) := by
  have hallowed : ¬ ((decide (p.flr.standIn ≠ .shadow) && decide (p.flr.standIn ≠ .compare)) = true) := by
    rcases hstand with h | h <;> simp [h]
  rw [abortStand, if_neg hallowed]

theorem unquarantine_engine (e : Nat) (h : e < 80) :
    unquarantine view e p =
      flrEnd view 0 (onRecovery (fun b => { b with quarantined := b.quarantined.filter fun x => x ≠ e }) p) := by
  rw [unquarantine, if_neg (Nat.not_le.mpr h)]

theorem selftest_engine (e : Nat) (h : e < 80) :
    selftest view e p =
      flrEnd view 0 (onRecovery (fun b => { b with selftests := if e ∈ b.selftests then b.selftests else b.selftests ++ [e] }) p) := by
  rw [selftest, if_neg (Nat.not_le.mpr h)]

end Commands

/-- Settles O32. -/
theorem recoveryCommandsAct : Obligations.RecoveryCommandsAct := by
  intro s view cmd hc t e p arg target engine
  have hperform (op : Nat) {q r : Part} (hop : flrPerform view (withOp 3 op cmd) t = q) (h : q = r) :
      onPart (fun u => atView view (writeFlrCmd view (withOp 3 op cmd)) u) s = .next (settled s r) :=
    command_settles hc ((writeFlrCmd_runs view (withOp 3 op cmd) s.part hc).trans (hop.trans h))
  refine ⟨fun h => ?resets, fun hhome => ⟨fun hreserved hdest hfree hunused hnone => ?holds, fun hheld => ?releases⟩,
    fun hbacked hvalid hup hidle => ?mirrors, ?resumes, fun hspare hother => ?begins, fun hidle => ?sends,
    fun hstand hnone => ?abandons, fun hstand hover hforce => ?takes, fun hstand => ?aborts,
    fun hengine => ⟨?unquarantines, ?selftests⟩⟩
  case resets => exact hperform 1 (flrPerform_reset view cmd t) (fastReset_allowed t 2 h)
  case holds =>
    exact hperform 2 (flrPerform_hold view cmd t) (holdExt_free view t e p (field arg 17 0) hhome hreserved hdest hfree hunused hnone)
  case releases => exact hperform 3 (flrPerform_release view cmd t) (releaseHold_held view t e hhome hheld)
  case mirrors => exact hperform 4 (flrPerform_mirror view cmd t) (mirrorCopy_starts view t e hbacked hvalid hup hidle)
  case resumes => exact hperform 5 (flrPerform_resume view cmd t) rfl
  case begins => exact hperform 6 (flrPerform_begin view cmd t) (beginStand_spare view t p hspare hother)
  case sends => exact hperform 7 (flrPerform_send view cmd t) (sendCopies_starts view t p target hidle)
  case abandons => exact hperform 8 (flrPerform_abandon view cmd t) (abandonTwin_noCopies view t p hstand hnone)
  case takes =>
    refine hperform 9 (flrPerform_take view cmd t) ?_
    rw [hforce]
    exact takeIdentity_compared view t hstand hover
  case aborts => exact hperform 10 (flrPerform_abort view cmd t) (abortStand_standing view t hstand)
  case unquarantines => exact hperform 11 (flrPerform_unquarantine view cmd t) (unquarantine_engine view t engine hengine)
  case selftests => exact hperform 12 (flrPerform_selftest view cmd t) (selftest_engine view t engine hengine)

end Sys2Proof.Machine

/-!
PROOFS. Reads that pop, latch or clear, and the obligations O33 to O36.
-/

namespace Sys2Proof.Machine

/-! ### Event registers -/

/-- The row of an event register pops its queue for the view. -/
theorem exec_popRow {q : QueueName} {view : Nat} {c : Instr} (h : popRow q view c) (s : State) :
    exec c s = onPart (fun t => atView view (popEvent q view) t) s := by
  cases q <;> obtain rfl := h <;> rfl

/-- What a pop leaves, by what it takes out of the queue (R528). -/
theorem popEvent_of_popQueue (q : QueueName) (view : Nat) (p : Part) (e : Option Event) (entries : List Event)
    (h : popQueue ((p.views[view]?).bind fun w => tget? w.latched (queueBlock q)) (getQueue q p) =
      (e, { getQueue q p with entries := entries })) :
    popEvent q view p =
      returnRead view (eventWord (queueOvfBit q) e (getQueue q p).overflow)
        (onView view (fun w => { w with latched := tdel w.latched (queueBlock q) })
          (setQueue q { getQueue q p with entries := entries } p)) := by
  simp only [popEvent, h]

theorem popQueue_latched (e : Event) (q : EventQueue) (h : e ∈ q.entries) :
    popQueue (some e) q = (some e, { q with entries := q.entries.erase e }) := by simp [popQueue, h, dropEntry]

theorem popQueue_latched_gone (e : Event) (q : EventQueue) (h : e ∉ q.entries) :
    popQueue (some e) q = (none, { q with entries := q.entries }) := by simp [popQueue, h]

theorem popQueue_head (e : Event) (es : List Event) (q : EventQueue) (h : q.entries = e :: es) :
    popQueue none q = (some e, { q with entries := es }) := by simp [popQueue, h, dropEntry]

theorem popQueue_empty (q : EventQueue) (h : q.entries = []) : popQueue none q = (none, { q with entries := [] }) := by
  obtain ⟨entries, _⟩ := q
  obtain rfl : entries = [] := h
  rfl

/-- Settles O33. -/
theorem eventReadsPop : Obligations.EventReadsPop := by
  intro s q view c hrow hopen p old latched after
  have hpop (e : Option Event) (entries : List Event) (h : popQueue latched old = (e, { old with entries := entries })) :
      exec c s = .next (settled s (after e entries)) :=
    (exec_popRow hrow s).trans (atView_settles hopen (popEvent_of_popQueue q view p e entries h))
  refine ⟨fun e hlatched => ⟨fun hmem => ?queued, fun hgone => ?gone⟩, fun e es hnone hes => ?head, fun hnone hempty => ?empty⟩
  case queued => exact hpop _ _ (by rw [hlatched]; exact popQueue_latched e old hmem)
  case gone => exact hpop _ _ (by rw [hlatched]; exact popQueue_latched_gone e old hgone)
  case head => exact hpop _ _ (by rw [hnone]; exact popQueue_head e es old hes)
  case empty => exact hpop _ _ (by rw [hnone]; exact popQueue_empty old hempty)

/-! ### Fault queues -/

/-- Without a latched entry the head of a gallery's fault queue leaves it (R446). -/
theorem popFault_head (view g next : Nat) (es : List FaultEntry) (e : FaultEntry) (overflow : Bool) (p : Part)
    (hnone : ((p.views[view]?).bind fun w => tget? w.latched (faultLatch g)) = none)
    (hq : faultQueue g p = { entries := e :: es, overflow := overflow, next := next }) :
    popFault view g p =
      returnRead view (1 + bitOf overflow * 2 + es.length * 4)
        (onView view (fun w => { w with latched := tdel w.latched (faultLatch g) })
          (onRecovery (fun b => { b with faults := lset b.faults g { entries := es, overflow := overflow, next := next } }) p)) := by
  simp [popFault, hq, hnone, bitOf]

/-- Settles O34. -/
theorem faultQueueReadsPop : Obligations.FaultQueueReadsPop := by
  intro s view g next es e overflow hopen hg hnone hq
  exact atView_settles hopen ((forOne_in 8 g _ s.part hg).trans (popFault_head view g next es e overflow s.part hnone hq))

/-! ### Heads that are latched -/

theorem latchEvent_head (q : QueueName) (view : Nat) (p : Part) (e : Event) (es : List Event) (h : (getQueue q p).entries = e :: es) :
    latchEvent q view p = returnRead view e.info (onView view (fun w => { w with latched := tset w.latched (queueBlock q) e }) p) := by
  simp only [latchEvent, h, List.head?_cons, latchHead]

theorem latchEvent_empty (q : QueueName) (view : Nat) (p : Part) (h : (getQueue q p).entries = []) :
    latchEvent q view p = returnRead view 0 (onView view (fun w => { w with latched := tdel w.latched (queueBlock q) }) p) := by
  simp only [latchEvent, h, List.head?_nil]

theorem latchFault_head (view g : Nat) (p : Part) (e : FaultEntry) (es : List FaultEntry) (h : (faultQueue g p).entries = e :: es) :
    latchFault view g p =
      returnRead view e.addr (onView view (fun w => { w with latched := tset w.latched (faultLatch g) (faultEvent e) }) p) := by
  simp only [latchFault, h, List.head?_cons, latchHead]

/-- Rows 0 and 1 latch the heads of the queues of CAT and FLT. -/
theorem latchFor_event {which : Nat} {q : QueueName} (h : which = 0 ∧ q = .cat ∨ which = 1 ∧ q = .flt) (view : Nat) (p : Part) :
    latchFor which view p = latchEvent q view p := by
  rcases h with ⟨rfl, rfl⟩ | ⟨rfl, rfl⟩ <;> rfl

/-- The rows from 2 on latch the heads of the galleries' fault queues. -/
theorem latchFor_fault (view g : Nat) (p : Part) (h : g < 8) : latchFor (g + 2) view p = latchFault view g p := by
  simp only [latchFor, h, if_true]

/-- Settles O35. -/
theorem headReadsLatch : Obligations.HeadReadsLatch := by
  intro s view hopen
  refine ⟨fun which q hwhich => ⟨fun e es h => ?head, fun h => ?empty⟩, fun g e es hg h => ?fault⟩
  case head => exact atView_settles hopen ((latchFor_event hwhich view s.part).trans (latchEvent_head q view s.part e es h))
  case empty => exact atView_settles hopen ((latchFor_event hwhich view s.part).trans (latchEvent_empty q view s.part h))
  case fault => exact atView_settles hopen ((latchFor_fault view g s.part hg).trans (latchFault_head view g s.part e es h))

/-! ### Registers that a read clears -/

/-- Settles O36. -/
theorem clearingReadsClear : Obligations.ClearingReadsClear := by
  intro s view hopen
  refine ⟨fun htray => ?hwError, ?flipHit⟩
  case hwError => exact atView_settles hopen (if_pos htray)
  case flipHit => exact atView_settles hopen rfl

end Sys2Proof.Machine

/-!
PROOFS. Registers that rows write, the census, and accesses by offset: the obligations O37 to O41.
-/

namespace Sys2Proof.Machine

/-! ### ENABLE cleared -/

/-- A running unit is turned off by a write that clears ENABLE. -/
theorem onEdge_falls {old : Bool} (down up : Part → Part) (p : Part) (h : old = true) : onEdge old (bitAt 0 0) down up p = down p := by
  subst h
  rfl

/-- A channel unit without commands goes out of service at once (R436). -/
theorem chuDisable_idle (n : Nat) (p : Part) (h : (p.chu.cmds.any fun c => c.unit = n) = false) :
    chuDisable n p = onChannelUnits (fun b => { b with enable := lset b.enable n false }) p := by
  have hunit (c : ChuCmd) (hc : c ∈ p.chu.cmds) : c.unit ≠ n := by simpa using List.any_eq_false.mp h c hc
  have hqueued : (p.chu.cmds.filter fun c => !c.running && decide (c.unit = n)) = [] :=
    List.filter_eq_nil_iff.mpr fun c hc => by simp [hunit c hc]
  have hrunning : (p.chu.cmds.find? fun c => decide (c.unit = n) && c.running) = none :=
    List.find?_eq_none.mpr fun c hc => by simp [hunit c hc]
  simp only [chuDisable, chuTurnAway, chuRunning, onChannelUnits, hqueued, hrunning, List.foldl_nil]
  rfl

/-- Settles O37. -/
theorem unitsAreDisabled : Obligations.UnitsAreDisabled := by
  intro s view n hopen p
  refine ⟨fun hn hon => ?gather, fun hn hon => ?mending, fun hn hon hidle => ?channel, fun hn hon => ?reduce⟩
  case gather => exact atView_settles hopen ((forOne_in 32 n _ s.part hn).trans (onEdge_falls _ _ s.part hon))
  case mending => exact atView_settles hopen ((forOne_in 16 n _ s.part hn).trans (onEdge_falls _ _ s.part hon))
  case channel =>
    exact atView_settles hopen ((forOne_in 24 n _ s.part hn).trans
      ((onEdge_falls _ _ s.part hon).trans (chuDisable_idle n s.part hidle)))
  case reduce => exact atView_settles hopen ((forOne_in 64 n _ s.part hn).trans (onEdge_falls _ _ s.part hon))

/-! ### Registers with a value in range -/

/-- A shaper takes a rate and a burst that it may have (R364, R380). -/
theorem writeShaper_ok (n v : Nat) (p : Part) (hrate : field v 23 0 ≠ 0) (hburst : 1024 ≤ field v 47 24) :
    writeShaper n v p = onSwitch (fun b =>
      { b with shapers := tset b.shapers n
                 { rate := field v 23 0, burst := field v 47 24, resetFull := bitAt v 48,
                   tokens := if bitAt v 48 then (field v 47 24 : Int) * 1024 else 0,
                   opening := if bitAt v 48 then (field v 47 24 : Int) * 1024 else 0, used := [] } }) p := by
  simp only [writeShaper, hrate, Nat.not_lt.mpr hburst]
  rfl

/-- Word 0 of a policer's register: its mode and rates (R367, R381). -/
theorem writePolicer_rates (n v : Nat) (p : Part) (x : Policer)
    (hx : { tget p.sw.policers n Policer.reset with
            twoRate := bitAt v 0, refuse := bitAt v 1, cir := field v 31 8, pir := field v 55 32 } = x) (hok : policerOk x = true) :
    writePolicer n 0 v p = onSwitch (fun b =>
      { b with policers := tset b.policers n { x with tokC := x.cbs * 1024, tokE := x.ebs * 1024 } }) p := by
  subst hx
  exact if_pos hok

/-- Word 1 of a policer's register: its bursts (R367, R381). -/
theorem writePolicer_bursts (n v : Nat) (p : Part) (x : Policer)
    (hx : { tget p.sw.policers n Policer.reset with cbs := field v 23 0, ebs := field v 47 24 } = x) (hok : policerOk x = true) :
    writePolicer n 1 v p = onSwitch (fun b =>
      { b with policers := tset b.policers n { x with tokC := x.cbs * 1024, tokE := x.ebs * 1024 } }) p := by
  subst hx
  exact if_pos hok

/-- The row of a policer's word writes that word of that policer. -/
theorem policerRow_writes (view n word v : Nat) (p : Part) (hn : n < 1024) (hword : word < 2) :
    forOne 1024 n (forOne 2 word (regWrite (.policer (4 * n + word)) view v)) p = writePolicer n word v p := by
  have hpolicer : (4 * n + word) / 4 = n := by omega
  have hplace : (4 * n + word) % 4 = word := by omega
  simp only [forOne, hn, hword, if_true, regWrite, hpolicer, hplace]

/-- FLIP_CTRL outside Vitrine mode, with a channel that there is (R317, R323). -/
theorem writeFlipCtrl_ok (v : Nat) (p : Part) (hvitrine : p.gals.vitrine = false) (hchannel : field v 24 20 ≤ 23) :
    writeFlipCtrl v p = onDram (fun d => { d with flipCtrl := BitVec.ofNat 32 (v % 2 ^ 26) }) p := by
  simp only [writeFlipCtrl, hvitrine, Nat.not_lt.mpr hchannel]
  rfl

/-- FLR_SYS_TWIN with VALID clear ends the copying of the system region (R444). -/
theorem writeSysTwin_invalid (v : Nat) (p : Part) (h : bitAt v 12 = false) :
    writeSysTwin v p = onRecovery (fun b =>
      { b with sysTwin := field v 11 0, sysValid := false, sysLines := [], mirrors := b.mirrors.filter fun r => !r.system }) p := by
  simp [writeSysTwin, h]

/-- PWR_MODE written with its mode unchanged sets a new target (R450). -/
theorem writeMode_sameMode (v : Nat) (p : Part) (hok : pmOk v = true) (hmode : pmMode v = p.power.modeNow) :
    writeMode v p = newTarget false p.power.mode.toNat v (onPower (fun b => { b with mode := BitVec.ofNat 32 (pmMask v) }) p) := by
  simp [writeMode, hok, hmode]

/-- Settles O38. -/
theorem registerRowsWrite : Obligations.RegisterRowsWrite := by
  intro s view hopen p
  refine ⟨fun n v hn hrate hburst => ?shaper, fun n v hn hok => ?rates, fun n v hn hok => ?bursts,
    fun v hvitrine hchannel => ?flip, fun id => ?telCat, fun v hvalid => ?sysTwin, fun v hok hmode => ?mode⟩
  case shaper =>
    have heven : 2 * n % 2 = 0 := by omega
    have hhalf : 2 * n / 2 = n := by omega
    refine atView_settles hopen ((forOne_in 512 n _ s.part hn).trans ?_)
    rw [regWrite, if_pos heven, hhalf]
    exact writeShaper_ok n v.toNat s.part hrate hburst
  case rates =>
    exact atView_settles hopen ((policerRow_writes view n 0 v.toNat s.part hn (by norm_num)).trans
      (writePolicer_rates n v.toNat s.part _ rfl hok))
  case bursts =>
    exact atView_settles hopen ((policerRow_writes view n 1 v.toNat s.part hn (by norm_num)).trans
      (writePolicer_bursts n v.toNat s.part _ rfl hok))
  case flip => exact atView_settles hopen (writeFlipCtrl_ok v.toNat s.part hvitrine hchannel)
  case telCat => exact atView_settles hopen rfl
  case sysTwin => exact atView_settles hopen (writeSysTwin_invalid v.toNat s.part hvalid)
  case mode => exact atView_settles hopen (writeMode_sameMode v.toNat s.part hok hmode)

/-! ### GAL_PORT_n -/

/-- A fold in which one element of a list without repeats acts, from `a` to `b`, and every other leaves both as they are. -/
theorem foldl_actsOnce {α β : Type} (f : β → α → β) {a b : β} {k : α} (hk : f a k = b) :
    ∀ {l : List α}, l.Nodup → k ∈ l → (∀ j ∈ l, j ≠ k → f a j = a ∧ f b j = b) → l.foldl f a = b
  | x :: xs, hnodup, hmem, hother => by
    obtain ⟨hx, hnodup⟩ := List.nodup_cons.mp hnodup
    by_cases heq : x = k
    · subst heq
      rw [List.foldl_cons, hk]
      exact List.foldlRecOn (motive := fun c => c = b) xs f rfl fun c hc j hj => by
        subst hc
        exact (hother j (List.mem_cons_of_mem x hj) (ne_of_mem_of_not_mem hj hx)).2
    · rw [List.foldl_cons, (hother x List.mem_cons_self heq).1]
      exact foldl_actsOnce f hk hnodup ((List.mem_cons.mp hmem).resolve_left (Ne.symm heq)) fun j hj =>
        hother j (List.mem_cons_of_mem x hj)

/-- The gallery of another port is left by a port's new one. -/
theorem portGallery_set_ne (port q new : Nat) (p : Part) (h : q ≠ port) :
    portGallery q (onGalleries (fun b => { b with ports := tset b.ports port new }) p) = portGallery q p := by
  simp only [portGallery, onGalleries, tget, tget?_tset_ne _ _ h]

/-- Where one nibble differs, the write sets the gallery of its port alone (R383). -/
theorem writeGalPort_one (n k v : Nat) (p : Part) (hk : k < 8)
    (hsame : ∀ j, j < 8 → j ≠ k → field v (4 * j + 2) (4 * j) = portGallery (8 * n + j) p)
    (hnew : field v (4 * k + 2) (4 * k) ≠ portGallery (8 * n + k) p) (hoff : tget p.links.enable ((8 * n + k) / 2) false = false) :
    writeGalPort n v p =
      onGalleries (fun b => { b with ports := tset b.ports (8 * n + k) (field v (4 * k + 2) (4 * k)) }) p := by
  refine foldl_actsOnce _ (k := k) ?acts List.nodup_range (List.mem_range.mpr hk) fun j hj hne => ⟨?before, ?after⟩
  case acts =>
    rw [if_neg hnew, if_neg (by simp [hoff])]
  case before => exact if_pos (hsame j (List.mem_range.mp hj) hne)
  case after =>
    refine if_pos ((hsame j (List.mem_range.mp hj) hne).trans (portGallery_set_ne _ _ _ p ?_).symm)
    omega

/-- Settles O39. -/
theorem galleryPortIsWritten : Obligations.GalleryPortIsWritten := by
  intro s view n k v hopen hn hk hsame hnew hoff
  exact atView_settles hopen ((forOne_in 32 n _ s.part hn).trans (writeGalPort_one n k v.toNat s.part hk hsame hnew hoff))

/-! ### Counters and the census -/

/-- TEL_CLEAR of a SAT32 counter removes it from the live bank (R508). -/
theorem telPerform_clear (view id : Nat) (p : Part) (h : ctrClass (id % 2 ^ 28) = 2) :
    telPerform view (telClearCmd id) p =
      onTelemetry (fun b => { b with live := tdel b.live (id % 2 ^ 28), seq := seqEnd view 0 0 b.seq }) p := by
  have hclear : 2 ^ 32 ≤ telClearCmd id := by simp only [telClearCmd]; omega
  have hid : telClearCmd id % 2 ^ 28 = id % 2 ^ 28 := by simp only [telClearCmd]; omega
  simp only [telPerform, hclear, hid, if_true, clearCounter, h]
  rfl

/-- START of an idle census makes it PENDING under the next CENSUS_ID (R512). -/
theorem telPerform_start (view : Nat) (p : Part) (hpending : p.tel.census ≠ .pending) (hrunning : p.tel.census ≠ .running) :
    telPerform view 1 p =
      onTelemetry (fun b => { b with census := .pending, censusId := b.censusId + 1, seq := seqEnd view 0 0 b.seq }) p := by
  simp only [telPerform, hpending, hrunning]
  rfl

/-- The scheduler's grant of a PENDING census latches the counters (R512). -/
theorem censusGranted_pending (p : Part) (hpending : p.tel.census = .pending) (hrinsing : rinsing p = false)
    (henergy : canSpend 13 lineCost p = true) :
    censusGranted p =
      (let q := onTelemetry (fun b => { b with census := .running, time := p.cur.timer }) (spend 13 lineCost p)
       onTelemetry (fun b =>
        { b with
          shadowId := b.censusId
          shadow := tset (tset b.live idThrottle { value := throttleCounter q, ovf := false })
            idCensus { value := censusCounter q, ovf := false } }) q) := by
  simp [censusGranted, hpending, hrinsing, henergy]

theorem censusCloses_running (p : Part) (h : p.tel.census = .running) :
    censusCloses p = pushEvent .tel 6 (p.tel.censusId.toNat * 2 ^ 32) (onTelemetry (fun b => { b with census := .done }) p) := by
  simp [censusCloses, h]

/-- Settles O40. -/
theorem telemetryCommandsAct : Obligations.TelemetryCommandsAct := by
  intro s view
  refine ⟨fun hc => ⟨fun id hclass => ?clears, fun hpending hrunning => ?starts⟩, fun hpending hrinsing henergy => ?grants,
    fun hrunning => ?closes⟩
  case clears => exact command_settles hc ((writeTelClear_runs view id.toNat s.part hc).trans (telPerform_clear view id.toNat _ hclass))
  case starts =>
    exact command_settles hc ((writeCensusCmd_runs view 1 s.part hc (by decide)).trans (telPerform_start view _ hpending hrunning))
  case grants => exact onPart_of_eq (censusGranted_pending s.part hpending hrinsing henergy)
  case closes => exact onPart_of_eq (censusCloses_running s.part hrunning)

/-! ### Accesses by offset -/

section Accesses

variable (view off size value : Nat) (p : Part)

/-- An access of a width or alignment that the register does not take changes none (R524). -/
theorem writeReg_badAccess (h : widthOk off size (regAt off) = false) :
    writeReg view off size value p = note (blockOf off) 1 none .badAccess [off, size] p := by
  simp only [writeReg, h]
  rfl

/-- A write where no register is, is counted (R523). -/
theorem writeReg_unoccupied (h : widthOk off size (regAt off) = true) (hnone : regAt off = none) :
    writeReg view off size value p = count 1 0 3 1 p := by
  rw [hnone] at h
  simp only [writeReg, hnone, h]
  rfl

variable (r : RegPlace) (hwidth : widthOk off size (regAt off) = true) (hr : regAt off = some r)
  (hanswers : blockAnswers (blockOf off) view p = true)
include hwidth hr hanswers

theorem writeReg_narrow (h : r.wide = false) : writeReg view off size value p = regWrite r.reg view (value % 2 ^ (8 * size)) p := by
  rw [hr] at hwidth
  simp [writeReg, hr, hwidth, hanswers, h]

theorem writeReg_wide (h : r.wide = true) (hsize : size = 8) :
    writeReg view off size value p = regWrite r.reg view (value % 2 ^ (8 * size)) (dropHeld view (off - r.at_) p) := by
  subst hsize
  rw [hr] at hwidth
  simp [writeReg, hr, hwidth, hanswers, h]

/-- A low half is held for the view (R525). -/
theorem writeReg_lowHalf (h : r.wide = true) (hsize : size = 4) (hlow : r.at_ = 0) :
    writeReg view off size value p = onView view (fun w => { w with held := tset w.held off (value % 2 ^ (8 * size)) }) p := by
  subst hsize
  rw [hr] at hwidth
  simp [writeReg, hr, hwidth, hanswers, h, hlow]

/-- A high half takes effect together with the low half that the view holds (R525). -/
theorem writeReg_highHalf (low : Nat) (h : r.wide = true) (hsize : size = 4) (hhigh : r.at_ = 4)
    (hheld : ((p.views[view]?).bind fun w => tget? w.held (off - 4)) = some low) :
    writeReg view off size value p =
      regWrite r.reg view (low + value % 2 ^ (8 * size) * 2 ^ 32) (dropHeld view (off - 4) p) := by
  subst hsize
  rw [hr] at hwidth
  simp [writeReg, hr, hwidth, hanswers, h, hhigh, lowHalf, hheld]

end Accesses

/-- Settles O41. -/
theorem registerWritesReachTheRegister : Obligations.RegisterWritesReachTheRegister := by
  intro s view off size value hopen p v
  refine ⟨fun h => ?bad, fun h hnone => ?unoccupied, fun r hwidth hr hanswers => ⟨fun h => ?narrow, fun h hsize => ?wide,
    fun h hsize hlow => ?low, fun low h hsize hhigh hheld => ?high⟩⟩
  case bad => exact atView_settles hopen (writeReg_badAccess view off size value.toNat s.part h)
  case unoccupied => exact atView_settles hopen (writeReg_unoccupied view off size value.toNat s.part h hnone)
  case narrow => exact atView_settles hopen (writeReg_narrow view off size value.toNat s.part r hwidth hr hanswers h)
  case wide => exact atView_settles hopen (writeReg_wide view off size value.toNat s.part r hwidth hr hanswers h hsize)
  case low => exact atView_settles hopen (writeReg_lowHalf view off size value.toNat s.part r hwidth hr hanswers h hsize hlow)
  case high => exact atView_settles hopen (writeReg_highHalf view off size value.toNat s.part r hwidth hr hanswers low h hsize hhigh hheld)

end Sys2Proof.Machine

/-!
PROOFS. The arrival of messages, and the obligation O42.
-/

namespace Sys2Proof.Machine

/-! ### Rows and their opcodes -/

/-- Each message row delivers its message under its opcode (R60, R116, R426, R495, R516). -/
theorem exec_messageRow {op port : Nat} {m : Msg} {c : Instr} (h : messageRow op port m c) (s : State) :
    exec c s = onPart (messageArrives port op m) s := by
  unfold messageRow at h
  iterate 47
    rcases h with ⟨rfl, rfl⟩ | h
    · rfl
  obtain ⟨rfl, rfl⟩ := h
  rfl

/-! ### Well-formed messages -/

/-- The class of a message whose opcode is known is its opcode's. -/
theorem msgClass_of_opClass {m : Msg} {c : Cls} (h : opClass m.op.toNat = some c) : msgClass m = c := by
  simp only [msgClass, hdrClass, h, Option.getD_some]

/-- A LEN that suits its opcode is one that a message can have (R59). -/
theorem len_of_lenSuits {op len w : Nat} {c : Cls} (hc : opClass op = some c) (h : lenSuits op len w = true) :
    hdrUnits c ≤ len ∧ len ≤ 80 := by
  simp only [lenSuits, hc, Bool.and_eq_true, decide_eq_true_eq] at h
  exact h.1

/-- OPARG says something about LEN only in MGMT_REQ (R495). -/
theorem lenSuits_oparg {op : Nat} (h : op ≠ 0x70) (len w v : Nat) : lenSuits op len w = lenSuits op len v := by
  simp only [lenSuits, h, if_false]

/-- The bytes of a whole list, read from its start. -/
theorem sliceBytes_all (bs : List Byte) {n : Nat} (h : n = bs.length) : sliceBytes bs 0 n = bs := by
  subst h
  simp [sliceBytes]

/-- A message whose LEN is its length is not cut. -/
theorem withLen_of_onWire {m : Msg} (h : onWire m = true) : withLen m = m := by
  simp only [onWire, Bool.and_eq_true, decide_eq_true_eq] at h
  obtain ⟨hlen, -⟩ := h
  simp only [withLen, sliceBytes_all m.data (show 4 * m.len.toNat - 4 * hdrUnits (msgClass m) = m.data.length by omega)]

/-- What the form of a message depends on. -/
theorem badForm_eq_false {m : Msg} (hlen : lenSuits m.op.toNat m.len.toNat m.oparg.toNat = true)
    (hvc : opClass m.op.toNat = some (vcClass m.vc.toNat)) : badForm m = false := by
  simp [badForm, hlen, hvc]

/-! ### The header that the ingress part writes (R58) -/

theorem rewriteHeader_kept (port : Nat) (m : Msg) (p : Part) :
    (rewriteHeader port m p).op = m.op ∧ (rewriteHeader port m p).len = m.len ∧ (rewriteHeader port m p).vc = m.vc := by
  simp only [rewriteHeader, unmarked]
  split_ifs <;> exact ⟨rfl, rfl, rfl⟩

/-- OPARG is written in WR_LINE alone. -/
theorem rewriteHeader_oparg (port : Nat) (m : Msg) (p : Part) (h : m.op.toNat ≠ 0x03) : (rewriteHeader port m p).oparg = m.oparg := by
  simp only [rewriteHeader, unmarked, h, if_false]
  split_ifs <;> rfl

/-- The header that the ingress part writes keeps a message well formed. -/
theorem badForm_rewriteHeader (port : Nat) (m : Msg) (p : Part) (hlen : lenSuits m.op.toNat m.len.toNat m.oparg.toNat = true)
    (hvc : opClass m.op.toNat = some (vcClass m.vc.toNat)) : badForm (rewriteHeader port m p) = false := by
  obtain ⟨hop, hunits, hchannel⟩ := rewriteHeader_kept port m p
  refine badForm_eq_false ?length ?channel
  case length =>
    rw [hop, hunits]
    by_cases hwrite : m.op.toNat = 0x03
    · exact (lenSuits_oparg (by simp [hwrite]) _ _ _).trans hlen
    · rwa [rewriteHeader_oparg port m p hwrite]
  case channel => rwa [hop, hchannel]

/-! ### Arrival -/

/-- A well-formed message that arrives whole on an ACTIVE port is taken in (R53, R54, R58, R59, R384). -/
theorem ingress_wellFormed (port : Nat) (m : Msg) (p : Part) (hactive : portActive port p = true)
    (hlen : lenSuits m.op.toNat m.len.toNat m.oparg.toNat = true) (hwire : onWire m = true)
    (hvc : opClass m.op.toNat = some (vcClass m.vc.toNat)) : ingress port m p = takeIn port m p := by
  obtain ⟨hshort, hlong⟩ := len_of_lenSuits hvc hlen
  have hframed : ¬ ((decide (m.len.toNat < hdrUnits (msgClass m)) || decide (80 < m.len.toNat)) = true) := by
    rw [msgClass_of_opClass hvc]
    simp only [Bool.or_eq_true, decide_eq_true_eq]
    omega
  rw [ingress, if_neg (by simp [hactive]), if_neg hframed, withLen_of_onWire hwire]
  cases hpeer : (lport port (received port m p)).peerYp with
  | true =>
    rw [received] at hpeer
    simp [takeIn, received, hpeer, badForm_eq_false hlen hvc]
  | false =>
    rw [received] at hpeer
    simp only [takeIn, received, hpeer, badForm_rewriteHeader port m _ hlen hvc, Bool.not_false, if_true, Bool.true_and,
      Bool.false_eq_true, if_false]
    rfl

/-- Settles O42. -/
theorem messagesAreTakenIn : Obligations.MessagesAreTakenIn := by
  intro s op port m c hrow hactive hfits
  simp only [msgFits, Bool.and_eq_true, decide_eq_true_eq] at hfits
  obtain ⟨⟨⟨hop, hlen⟩, hwire⟩, hvc⟩ := hfits
  subst hop
  have hsame : { m with op := BitVec.ofNat 8 m.op.toNat } = m := by rw [BitVec.ofNat_toNat, BitVec.setWidth_eq]
  refine (exec_messageRow hrow s).trans (onPart_of_eq ?_)
  rw [messageArrives, hsame]
  exact ingress_wellFormed port m s.part hactive hlen hwire hvc

end Sys2Proof.Machine

/-!
PROOFS. Link bring-up, flits, and the switch core: the obligations O43 to O45.
-/

namespace Sys2Proof.Machine

/-! ### Bring-up (R47) -/

/-- ENABLE begins TRAIN on a port's logical ports where links run and Eco has not taken it down (R47, R451). -/
theorem linkEnable_runs (fp : Nat) (p : Part) (hrun : linksRun p = true) (heco : fp ∉ p.power.ecoDown) :
    linkEnable fp p =
      (portsOf fp p).foldl (fun s q => beginTrain q s) (onLinks (fun l => { l with enable := tset l.enable fp true }) p) := by
  have hstill : linksRun (onLinks (fun l => { l with enable := tset l.enable fp true }) p) = true := hrun
  have hnot : fp ∉ (onLinks (fun l => { l with enable := tset l.enable fp true }) p).power.ecoDown := heco
  simp only [linkEnable, hstill, hnot]
  rfl

/-- A command on a physical port while the core die runs. -/
theorem onFp_runs (fp : Nat) (f : Part → Part) (p : Part) (hfp : fp < 128) (hon : p.cur.power = .coreOn) (hfast : p.cur.fastPending = false) :
    onFp fp f p = f p := by simp [onFp, hfp, hon, hfast]

theorem onEdge_rises {old : Bool} (down up : Part → Part) (p : Part) (h : old = false) : onEdge old true down up p = up p := by
  subst h
  rfl

theorem onEdge_clears {old : Bool} (down up : Part → Part) (p : Part) (h : old = true) : onEdge old false down up p = down p := by
  subst h
  rfl

/-- A bring-up that fails from DOWN is tried again after a while, with a note of what failed (R47). -/
theorem bringUpFails_fresh (port : Nat) (why : BringUpFailure) (code : Note) (p : Part) (hcode : (if why = .train then .trainFailed else .paramMismatch) = code)
    (h : (lport port p).retraining = false) :
    bringUpFails port why p =
      note 3 1 none code [port, why.detail] (onPort port (fun y => { y with link := .down, retryWait := true, startSeen := false }) p) := by
  subst hcode
  simp [bringUpFails, h]

/-- What does not suit in an INIT flit is no failure of TRAIN. -/
theorem initMismatch_ne_train (f : List Byte) : initMismatch f ≠ .train := by
  unfold initMismatch
  split_ifs <;> simp

section BringUp

variable (port : Nat) (p : Part)

theorem linkMoves_lock (h : (lport port p).link = .train) :
    linkMoves port .train .lock p = onPort port (fun y => { y with link := .lock, startSeen := false }) p := if_pos h

/-- After PCS lock the start ordered set goes out, and a NULL flit after it (R43). -/
theorem linkMoves_align (h : (lport port p).link = .lock) :
    linkMoves port .lock .align p =
      onPort port (fun y => { y with link := .align, startSeen := false, out := [startOrderedSet, idleFlit y] }) p := if_pos h

theorem linkMoves_train {src : LinkState} (h : (lport port p).link = src) :
    linkMoves port src .train p = onPort port (fun y => { y with link := .train, startSeen := false }) p := if_pos h

theorem trainTimeout_fresh (h : (lport port p).link = .train) (hfresh : (lport port p).retraining = false) :
    trainTimeout port p =
      note 3 1 none .trainFailed [port, BringUpFailure.train.detail]
        (onPort port (fun y => { y with link := .down, retryWait := true, startSeen := false }) p) :=
  (if_pos h).trans (bringUpFails_fresh port .train _ p rfl hfresh)

theorem paramTimeout_fresh (h : (lport port p).link = .param) (hfresh : (lport port p).retraining = false) :
    paramTimeout port p =
      note 3 1 none .paramMismatch [port, BringUpFailure.noInit.detail]
        (onPort port (fun y => { y with link := .down, retryWait := true, startSeen := false }) p) :=
  (if_pos h).trans (bringUpFails_fresh port .noInit _ p rfl hfresh)

theorem startSet_align (h : (lport port p).link = .align) :
    startSet port p = onPort port (fun y => { y with link := .param, startSeen := true, out := [initFlit port p] }) p := if_pos h

/-- A port that may train begins to (R47). -/
theorem trainRetry_begins (hon : portEnabled port p = true) (hrun : linksRun p = true)
    (hport : port % 2 = 0 ∨ brokenOut (port / 2) p = true) : trainRetry port p = beginTrain port p := by
  simp [trainRetry, hon, hrun, hport]

variable (f : List Byte) (hgood : flitGood f = true) (htype : flitType f = 2)
include hgood htype

/-- The peer's INIT flit makes a port ACTIVE that it suits (R48). -/
theorem takeInit_suits (h : (lport port p).link = .param) (hfresh : (lport port p).retraining = false)
    (hsuits : initSuits (lport port p) f = true) :
    takeInit port f p = takeLinkHeader port f (zeroTimes port (onPort port (freshActive f) p)) := by
  simp [takeInit, hgood, htype, h, hfresh, hsuits]

/-- An INIT flit that does not suit takes the port DOWN (R49). -/
theorem takeInit_mismatch (h : (lport port p).link = .param) (hfresh : (lport port p).retraining = false)
    (hsuits : initSuits (lport port p) f = false) :
    takeInit port f p =
      note 3 1 none .paramMismatch [port, (initMismatch f).detail]
        (onPort port (fun y => { y with link := .down, retryWait := true, startSeen := false }) p) := by
  rw [← bringUpFails_fresh port (initMismatch f) _ p (if_neg (initMismatch_ne_train f)) hfresh]
  simp [takeInit, hgood, htype, h, hsuits]

/-- An INIT flit on an ACTIVE port counts for its link header alone (R54). -/
theorem takeInit_active (h : (lport port p).link = .active) : takeInit port f p = takeLinkHeader port f (countPort port 4 1 p) := by
  simp [takeInit, hgood, htype, h]

end BringUp

/-- Settles O43. -/
theorem linksComeUp : Obligations.LinksComeUp := by
  intro s port p x
  refine ⟨fun fp hfp hon hfast => ⟨fun hoff hrun heco => ?enables, fun hup => ?disables⟩, fun h => ?trained, fun h hfresh => ?trainFails,
    fun hon hrun hport _ _ => ?retries, fun h => ⟨?locked, ?lockFails⟩, fun h => ⟨?aligned, ?alignFails⟩,
    fun h hfresh => ⟨fun f hgood htype => ⟨fun hsuits => ?suits, fun hsuits => ?mismatch⟩, ?paramFails⟩⟩
  case enables =>
    exact onPart_of_eq ((onFp_runs fp _ s.part hfp hon hfast).trans
      ((onEdge_rises _ _ s.part hoff).trans (linkEnable_runs fp s.part hrun heco)))
  case disables => exact onPart_of_eq ((onFp_runs fp _ s.part hfp hon hfast).trans (onEdge_clears _ _ s.part hup))
  case trained => exact onPart_of_eq (linkMoves_lock port s.part h)
  case trainFails => exact onPart_of_eq (trainTimeout_fresh port s.part h hfresh)
  case retries => exact onPart_of_eq (trainRetry_begins port s.part hon hrun hport)
  case locked => exact onPart_of_eq (linkMoves_align port s.part h)
  case lockFails => exact onPart_of_eq (linkMoves_train port s.part h)
  case aligned => exact onPart_of_eq (startSet_align port s.part h)
  case alignFails => exact onPart_of_eq (linkMoves_train port s.part h)
  case suits => exact onPart_of_eq (takeInit_suits port s.part f hgood htype h hfresh hsuits)
  case mismatch => exact onPart_of_eq (takeInit_mismatch port s.part f hgood htype h hfresh hsuits)
  case paramFails => exact onPart_of_eq (paramTimeout_fresh port s.part h hfresh)

/-! ### Flits on an ACTIVE port (R50, R51) -/

section Flits

variable (port : Nat) (p : Part)

theorem retrainTimeout_retraining (h : (lport port p).retraining = true) :
    retrainTimeout port p = portGoesDown port .portDown true p := if_pos h

variable (hactive : portActive port p = true)
include hactive

theorem link_of_portActive : (lport port p).link = .active := of_decide_eq_true hactive

/-- A DATA flit with the next SEQ is accepted: acknowledged once sixteen are due, and its payload taken (R50). -/
theorem takeData_next (f : List Byte) (hgood : flitGood f = true) (htype : flitType f = 1) (hseq : flitSeq f = (lport port p).rxExp.toNat) :
    takeData port f p =
      (let q := onPort port (fun y => { y with rxExp := y.rxExp + 1, rxAny := true, nakSent := false, unacked := y.unacked + 1 })
        (takeLinkHeader port f (countPort port 4 1 p))
       takePayload port (flitFirst f) (flitPayload f) (if 16 ≤ (lport port q).unacked then sendNull port false q else q)) := by
  simp [takeData, link_of_portActive port p hactive, hgood, htype, hseq]

theorem takeNull_active (f : List Byte) (hgood : flitGood f = true) (htype : flitType f = 0) :
    takeNull port f p = takeLinkHeader port f (countPort port 4 1 p) := by
  simp [takeNull, link_of_portActive port p hactive, hactive, hgood, htype]

/-- An acknowledgement or credits that are due go out (R50). -/
theorem ackDue_owing (h : 0 < (lport port p).unacked ∨ creditsNow port p ≠ []) : ackDue port p = sendNull port false p := by
  have howing : (decide (0 < (lport port p).unacked) || !(creditsNow port p).isEmpty) = true := by
    rcases h with h | h <;> simp [h]
  simp only [ackDue, hactive, howing, Bool.and_self, if_true]

/-- Every unacknowledged flit is sent again, up to the limit (R51). -/
theorem ackTimeout_replays (hsome : (lport port p).replay ≠ [])
    (hlimit : (lport port p).replays < tget p.links.replayLimit (port / 2) 8) :
    ackTimeout port p = countPort port 64 1 (onPort port (fun y => { y with replays := y.replays + 1, out := y.replay }) p) := by
  simp [ackTimeout, hactive, replayPort, hsome, Nat.not_le.mpr hlimit]

theorem retrainPort_active :
    retrainPort port p =
      countPort port 65 1 (onPort port (fun y => { y with link := .train, retraining := true, startSeen := false }) p) := if_pos hactive

theorem lockLost_active : lockLost port p = retrainPort port p := by simp only [lockLost, link_of_portActive port p hactive]

end Flits

/-- Settles O44. -/
theorem linksCarryFlits : Obligations.LinksCarryFlits := by
  intro s port p x
  refine ⟨fun h => ?retrainFails, fun hactive => ⟨fun f hgood htype hseq => ?data, fun f hgood htype => ?null, fun f hgood htype => ?init,
    fun h => ?owing, fun hsome hlimit => ?replays, ?retrains, ?lost⟩⟩
  case retrainFails => exact onPart_of_eq (retrainTimeout_retraining port s.part h)
  case data => exact onPart_of_eq (takeData_next port s.part hactive f hgood htype hseq)
  case null => exact onPart_of_eq (takeNull_active port s.part hactive f hgood htype)
  case init => exact onPart_of_eq (takeInit_active port s.part f hgood htype (link_of_portActive port s.part hactive))
  case owing => exact onPart_of_eq (ackDue_owing port s.part hactive h)
  case replays => exact onPart_of_eq (ackTimeout_replays port s.part hactive hsome hlimit)
  case retrains => exact onPart_of_eq (retrainPort_active port s.part hactive)
  case lost => exact onPart_of_eq ((lockLost_active port s.part hactive).trans (retrainPort_active port s.part hactive))

/-! ### The switch core -/

section SwitchCore

variable (port vc : Nat) (p : Part)

/-- The transmitter starts the head that it chooses, where the replay buffer holds its flits (R361). -/
theorem messageStart_head (hactive : portActive port p = true) (q : Queued) (hq : chooseHead port p = some q)
    (hroom : (lport port p).replay.length + flitsOf q.msg ≤ 64) :
    messageStart port p = sendMessage port q.msg (headStarts q (mirrorOut q p)) := by
  simp [messageStart, hactive, hq, Nat.not_lt.mpr hroom]

/-- With nothing to send the transmitter sends a NULL flit (R46). -/
theorem messageStart_idle (hactive : portActive port p = true) (hnone : chooseHead port p = none) :
    messageStart port p = sendNull port false p := by
  simp [messageStart, hactive, hnone]

/-- A stalled message is truncated unless a replay is awaited (R373). -/
theorem stallExpires_stalled (hactive : portActive port p = true) (b : Partial) (hb : (lport port p).rxPartial = some b) (hvc : b.vc = vc)
    (hnak : (lport port p).nakSent = false) : stallExpires port vc p = truncatePort port p := by
  simp [stallExpires, hb, hactive, hnak, hvc]

variable (w : Waiting) (rest : List Waiting) (hwaits : tget p.sw.waiting (waitKey port vc) [] = w :: rest)
include hwaits

/-- A red message that waits and is red no more takes its new colour and is admitted if it can be (R368). -/
theorem recolour_clears (hred : w.colour = .red) (hclears : (colourMsg port w.policer w.msg p).1 ≠ .red) :
    recolour port vc p =
      (let r := colourMsg port w.policer w.msg p
       admitWaiting port vc (onSwitch (fun x =>
        { x with waiting := tset x.waiting (waitKey port vc) ({ w with colour := r.1 } :: rest) }) r.2)) := by
  simp [recolour, hwaits, hred, hclears]

/-- A message that waits for room is admitted once there is some (R357). -/
theorem admitWaiting_room (t : Part) (hcolour : w.colour ≠ .red) (hroom : passOn port w (dropFirstWaiting (waitKey port vc) p) = some t) :
    admitWaiting port vc p = t := by
  simp [admitWaiting, hwaits, hcolour, hroom]

end SwitchCore

/-- Settles O45. -/
theorem switchCoreMoves : Obligations.SwitchCoreMoves := by
  intro s port vc p
  refine ⟨onPart_of_eq rfl, fun hactive => ⟨fun q hq hroom => ?starts, fun hnone => ?idles, fun b hb hvc hnak => ?stalls⟩,
    fun w rest hwaits => ⟨fun hred hclears => ?recolours, fun t hcolour hroom => ?admits⟩⟩
  case starts => exact onPart_of_eq (messageStart_head port s.part hactive q hq hroom)
  case idles => exact onPart_of_eq (messageStart_idle port s.part hactive hnone)
  case stalls => exact onPart_of_eq (stallExpires_stalled port vc s.part hactive b hb hvc hnak)
  case recolours => exact onPart_of_eq (recolour_clears port vc s.part w rest hwaits hred hclears)
  case admits => exact onPart_of_eq (admitWaiting_room port vc s.part w rest hwaits t hcolour hroom)

end Sys2Proof.Machine

/-!
PROOFS. The timers of ordering and of the pool: the obligations O46 and O47.
-/

namespace Sys2Proof.Machine

/-! ### Ordering and tracking -/

section Ordering

variable (agent tag dst : Nat) (p : Part)

theorem retransmitDue_unacked (sseq : BitVec 24) (u : Unacked)
    (h : (stream agent dst p).unacked.find? (fun u => decide (u.msg.sseq = sseq)) = some u) :
    retransmitDue agent dst sseq p = retransmit agent dst u p := by
  simp only [retransmitDue, h]

/-- A fence whose messages are not all answered completes with TIMEOUT (R75). -/
theorem completionExpires_fence (part : Nat) (f : FenceRec) (hpart : part = myPart (discardHeld part agent tag p))
    (h : (discardHeld part agent tag p).links.fences.find? (fun f => decide (f.agent = agent) && decide (f.msg.tag.toNat = tag)) = some f) :
    completionExpires part agent tag p = fenceTimeout f (discardHeld part agent tag p) := by
  rw [completionExpires, if_neg (not_not.mpr hpart), h]

/-- A request that is not answered completes with TIMEOUT, unless it is a recall notice that its loan still holds (R33, R76). -/
theorem completionExpires_request (part : Nat) (t : Tracked) (hpart : part = myPart (discardHeld part agent tag p))
    (hnone : (discardHeld part agent tag p).links.fences.find? (fun f => decide (f.agent = agent) && decide (f.msg.tag.toNat = tag)) = none)
    (h : tget? (discardHeld part agent tag p).links.tracked (trackKey agent tag) = some t) :
    completionExpires part agent tag p =
      if recallPends t.msg (discardHeld part agent tag p) then discardHeld part agent tag p
      else timeoutRequest agent t (discardHeld part agent tag p) := by
  rw [completionExpires, if_neg (not_not.mpr hpart), hnone, h]

/-- A stream that has nothing but marks unacknowledged begins anew (R70, R74). -/
theorem streamIdle_acknowledged (h : ((stream agent dst p).unacked.all fun u => decide (u.msg.op = 0x11)) = true) :
    streamIdle agent dst p =
      onLinks (fun l =>
        { l with streams :=
          if (stream agent dst p).sinceMark then tset l.streams (streamKey agent dst) { SrcStream.start with sinceMark := true }
          else tdel l.streams (streamKey agent dst) }) p := if_pos h

/-- A write-through that its twin has not answered ends as one that the twin refused (R428). -/
theorem twinWriteExpires_unanswered (w : WriteThrough)
    (h : p.flr.throughs.find? (fun w => decide (w.agent = agent) && decide (w.tag.toNat = tag)) = some w) (hkind : w.kind ≠ .send) :
    twinWriteExpires agent tag p =
      throughAnswered agent tag stTimeout (if agent = agChu then chuThroughFails tag stTimeout p else p) := by
  rw [twinWriteExpires, h]
  exact if_neg hkind

/-- A SEND that stands still is reported (R434). -/
theorem sendStalls_shadow (twin : Nat) (hstand : p.flr.standIn = .shadow) (hsender : twin ∈ p.flr.senders) (hover : shadowOver p = false) :
    sendStalls twin p = flrEvent 3 0 twin 0 p := by
  simp [sendStalls, hstand, hsender, hover]

end Ordering

/-- Settles O46. -/
theorem orderingTimersAct : Obligations.OrderingTimersAct := by
  intro s part agent tag dst sseq p
  refine ⟨fun u h => ?retransmits, fun hpart => ⟨fun f h => ?fence, fun t hnone h => ?request⟩, fun h => ?idles, onPart_of_eq rfl,
    onPart_of_eq rfl, fun w h hkind => ?through, fun twin hstand hsender hover => ?stalls⟩
  case retransmits => exact onPart_of_eq (retransmitDue_unacked agent dst s.part sseq u h)
  case fence => exact onPart_of_eq (completionExpires_fence agent tag s.part part f hpart h)
  case request => exact onPart_of_eq (completionExpires_request agent tag s.part part t hpart hnone h)
  case idles => exact onPart_of_eq (streamIdle_acknowledged agent dst s.part h)
  case through => exact onPart_of_eq (twinWriteExpires_unanswered agent tag s.part w h hkind)
  case stalls => exact onPart_of_eq (sendStalls_shadow s.part twin hstand hsender hover)

/-! ### The pool -/

/-- A recalled extent that has been read from its lender, once it stands at the place kept for it (R34). -/
def copyLands (e : Nat) (c : CopyJob) (bytes : List (List Byte)) (p : Part) : Part :=
  let x := extentAt e p
  let q := (List.range pagesPerExtent).foldl (fun q n =>
    setTag (c.dest * pagesPerExtent + n) (pageTag (e * pagesPerExtent + n) q).epoch
      (pageTag (e * pagesPerExtent + n) q).split q) p
  let q := (List.range linesPerExtent).foldl (fun q n =>
    let b := lenderLine bytes n
    storeLine (c.dest * linesPerExtent + n) (if b.length ≠ 128 then errorValue 128 else b) (decide (b.length ≠ 128)) none q) q
  let place : Place := if c.dest < interleavedExtents q then .interleaved else .channelLocal
  let l := ((loanOf e q).map (·.1)).getD 4096
  let q := putExtent e { x with state := .free, object := 0 }
    (putExtent c.dest { x with state := .live, place := place, detail := 0 } q)
  loanEnds l (startCopies (loanEvent 7 (e + c.dest * 2 ^ 18)
    (onPool (fun b => { b with copies := b.copies.filter fun d => d.src ≠ e }) q)))

/-- The extent's copy that is running lands where its lender's port is up (R34). -/
theorem copyDone_running (e : Nat) (c : CopyJob) (bytes : List (List Byte)) (p : Part)
    (hcopy : p.pool.copies.find? (fun c => decide (c.src = e) && c.running) = some c) (hstalled : c.stalled = false)
    (hbytes : bytes.isEmpty = false) (hlender : portActive c.lender p = true) : copyDone e bytes p = copyLands e c bytes p := by
  rw [copyDone, hcopy]
  exact (if_neg (by simp only [hstalled, hbytes]; decide)).trans (if_neg (by simp only [hlender]; decide))

/-- The part once a revocation has ended: the lender's requests of the old epoch are abandoned and the extent is LIVE (R31). -/
def revocationEnded (e : Nat) (r : Revocation) (p : Part) : Part :=
  let q := (p.pool.lenderReqs.filter fun q => q.ext = e && q.epoch ≠ (extentAt e p).epoch).foldl (fun s q => abandonLender q s) p
  let q := onPool (fun b => { b with revokes := b.revokes.erase r }) q
  let q := if (extentAt e q).state = .revoking then changeExtent e (fun x => { x with state := .live }) q else q
  let q := onFlash (fun b => { b with moves := b.moves.map fun m => if m.src = e then { m with revoking := false } else m }) q
  runSeq (·.pool.extSeq) (fun k => onPool fun b => { b with extSeq := k }) extPerform 8 (extEnd r.view 0 e q)

theorem revokeCompletes_revoked (e : Nat) (r : Revocation) (p : Part) (h : p.pool.revokes.find? (fun r => decide (r.ext = e)) = some r) :
    revokeCompletes e p = revocationEnded e r p := by
  rw [revokeCompletes, h]
  rfl

/-- The command that waits for a region's requests ends with the last of them (R85). -/
theorem regionDrainEnd_drained (view : Nat) (object : Word64) (before : List Msg) (p : Part)
    (hwait : p.regions.wait = some (.drain view object before)) (hidle : regionBusy before p = false) :
    regionDrainEnd view p =
      runRegions (onRegions (fun b => { b with wait := none, seq := seqEnd view 0 (p.regions.seq.value.getD view 0) p.regions.seq }) p) := by
  rw [regionDrainEnd, hwait]
  exact if_neg (by simp [hidle])

/-- The walk of the directory that is first ends once it has no line left (R137). -/
theorem catWalkEnd_walked (w : Walk) (rest : List Walk) (p : Part) (hwalks : p.cat.walks = w :: rest) (hidle : walkBusy w p = false) :
    catWalkEnd p =
      (let walked := (walkExtents w p).length
       let q := onCatalogue (fun c =>
        { c with
          walks := rest
          members := if w.kind = .remove then tdel c.members (w.group * 256 + w.member) else c.members }) p
       let q := if w.kind = .hostLost then catEvent 3 w.group w.member 0 q else q
       runSeq (·.cat.seq) (fun k => onCatalogue fun c => { c with seq := k }) catPerform 8 (catEnd w.view 0 walked q)) := by
  rw [catWalkEnd, hwalks]
  exact if_neg (by simp [hidle])

/-- A member that has not answered a snoop is taken as having lost the line (R136). -/
theorem snoopTimeout_unanswered (line n : Nat) (t : CatTxn) (w : SnoopWait) (p : Part) (htxn : tget? p.cat.txns line = some t)
    (hwait : t.snoops.find? (fun w => decide (w.member = n)) = some w) :
    snoopTimeout line n p = snoopLost line t w (catEvent 1 t.group n (catAddr line p) p) := by
  simp only [snoopTimeout, htxn, Option.bind_some, hwait, Option.map_some]

/-- Settles O47. -/
theorem poolTimersAct : Obligations.PoolTimersAct := by
  intro s i e view p
  refine ⟨fun h => onPart_of_eq (if_pos h), fun h => onPart_of_eq (if_pos h), fun c bytes hcopy hstalled hbytes hlender => ?copied,
    onPart_of_eq rfl, fun r h => ?revoked, onPart_of_eq rfl, fun object before hwait hidle => ?drained, fun h => onPart_of_eq (if_pos h),
    fun w rest hwalks hidle => ?walked, fun line n t w htxn hwait => ?lost⟩
  case copied => exact onPart_of_eq (copyDone_running e c bytes s.part hcopy hstalled hbytes hlender)
  case revoked =>
    have hends : switchReady (revokeCompletes e s.part) = switchReady (revocationEnded e r s.part) := by
      rw [revokeCompletes_revoked e r s.part h]
    exact onPart_of_eq (f := fun t => switchReady (revokeCompletes e t)) hends
  case drained => exact onPart_of_eq (regionDrainEnd_drained view object before s.part hwait hidle)
  case walked => exact onPart_of_eq (catWalkEnd_walked w rest s.part hwalks hidle)
  case lost => exact onPart_of_eq (snoopTimeout_unanswered line n t w s.part htxn hwait)

end Sys2Proof.Machine

/-!
PROOFS. The events of the engines, and the obligation O48.
-/

namespace Sys2Proof.Machine

/-! ### Reductions and gathers -/

/-- A stalled reduction that is RUNNING and PARTIAL goes on without the absent shards (R171). -/
theorem expireCtx_partial (c : Nat) (x : Context) (p : Part) (hx : ctxAt c p = some x) (hstalled : ctxStalled x = true)
    (hstate : x.state = .running) (hpartial : ctxPartial x.desc = true) : expireCtx c p = partialCtx c x p := by
  simp [expireCtx, hx, hstalled, hstate, hpartial]

/-- A stalled reduction that may not go on fails (R171, R174). -/
theorem expireCtx_fails (c : Nat) (x : Context) (p : Part) (hx : ctxAt c p = some x) (hstalled : ctxStalled x = true)
    (h : x.state = .running ∧ ctxPartial x.desc = false ∨ x.state = .closing) : expireCtx c p = failCtx c x p := by
  rcases h with ⟨hstate, hpartial⟩ | hstate
  · simp [expireCtx, hx, hstalled, hstate, hpartial]
  · simp [expireCtx, hx, hstalled, hstate]

/-- A gather takes a line that has been read (R189). -/
theorem gfuTake_read (unit tag k : Nat) (q : GfuReq) (p : Part)
    (h : p.gfu.requests.find? (fun r => decide (r.2.unit = unit) && r.2.reads.any fun a => a.tag = tag && a.answer.isSome && !a.taken)
      = some (k, q)) :
    gfuTake unit tag p = gfuGo k { q with
      reads := q.reads.map fun a => if a.tag = tag && a.answer.isSome then { a with taken := true } else a } p := by
  rw [gfuTake, h]

/-- A gather is stopped at its run limit (R190). -/
theorem gfuRunLimit_reached (unit tag k : Nat) (q : GfuReq) (p : Part)
    (h : p.gfu.requests.find? (fun r => decide (r.2.unit = unit) && decide (r.2.req.tag.toNat = tag)) = some (k, q)) :
    gfuRunLimit unit tag p = gfuHalt k stTimeout p := by
  rw [gfuRunLimit, h]

/-! ### Weight streams -/

section Streams

variable (i n : Nat) (p : Part) (x : Stream) (hx : strAt i p = some x)

/-- A ready tile is handed to every member that takes it and leaves its stream (R231, R232). `bad` notes the first bad tile of a pass,
`mended` counts a tile that an engine has mended. -/
def tileGoes (bad mended : Part → Part) (t : TileRun) (rest : List TileRun) : Part :=
  let data := if t.filled then errorValue (tdBytes t.desc) else tileData t.desc t.values
  let members := (x.members.filter fun m => m.joined && m.first ≤ t.number).map (·.index)
  let ms := tilePieces x t data p
  let q := ms.foldl (fun q m => replicate m (prGroup x.header) 0 (some members) (tileBay i t) q) (putStr i { x with tiles := rest } p)
  let q := count 9 i 0 1 (count 9 i 1 ms.length (sampleTime 9 i 0 q))
  let q := if t.filled then q else count 9 i 68 (clampedCount t.desc t.values data) (count 9 i 69 (nanBlocks t.desc data) q)
  let q := if t.status = 0 then q else count 9 i 70 1 q
  let q := mended (bad q)
  settleStream i { x with tiles := rest, lastHand := some q.cur.timer, handed := x.handed + 1, badPass := x.badPass || t.status ≠ 0 } q

/-- What TILE_HANDED notes and counts: TILE_BAD once in a pass (R240), and a tile that an engine has mended. -/
theorem tileGoes_congr {bad bad' mended mended' : Part → Part} (hbad : ∀ q, bad q = bad' q) (hmended : ∀ q, mended q = mended' q)
    (t : TileRun) (rest : List TileRun) : tileGoes i p x bad mended t rest = tileGoes i p x bad' mended' t rest := by
  rw [funext hbad, funext hmended]

include hx

theorem startTile_running (h : x.state = .running) : startTile i p = goStream streamSteps i (putStr i { x with starting := true } p) := by
  rw [startTile, hx]
  exact if_pos h

/-- The first tile of a stream is handed over once it is ready (R231). -/
theorem handTile_ready (t : TileRun) (rest : List TileRun) (htiles : x.tiles = t :: rest) (hready : t.stage = .ready) :
    handTile i p =
      tileGoes i p x (fun q => if t.status = 0 ∨ x.badPass = true then q else strEvent 6 i 0 q)
        (fun q => if rcSource t.record = 2 ∧ t.filled = false then count 10 (64 + t.engine.getD 0) 1 1 q else q) t rest := by
  have hgoes : handTile i p =
      tileGoes i p x (fun q => if t.status ≠ 0 && !x.badPass then strEvent 6 i 0 q else q)
        (fun q => if rcSource t.record = 2 && !t.filled then count 10 (64 + t.engine.getD 0) 1 1 q else q) t rest := by
    rw [handTile, hx]
    simp only [htiles]
    exact if_neg (not_not.mpr hready)
  refine hgoes.trans (tileGoes_congr i p x (fun q => ?_) (fun q => ?_) t rest)
  · by_cases hstatus : t.status = 0 <;> cases hpass : x.badPass <;> simp [hstatus]
  · cases hfilled : t.filled <;> simp

section Deadlines

variable (hstate : x.state = .running ∨ x.state = .stopping)
include hstate

/-- A tile in work is counted late once, under the cause that holds it (R239). -/
theorem tileLate_begun (t : TileRun) (ht : x.tiles.find? (fun t => decide (t.number = n)) = some t) (hlate : t.late = false)
    (hdeadline : rcDeadline t.record ≠ 0) :
    tileLate i n p = putStr i
      { x with
        tiles := x.tiles.map fun u => if u.number = n then { u with late := true } else u
        latePass := min 0xFFFFFFFF (x.latePass + 1) } (count 9 i (64 + lateCause x n) 1 p) := by
  rcases hstate with h | h <;> simp [tileLate, hx, h, ht, hlate, hdeadline]

/-- A tile that is not begun yet is counted late once too (R239). -/
theorem tileLate_unbegun (hnone : x.tiles.find? (fun t => decide (t.number = n)) = none) (hnext : x.nextTile ≤ n) (hnew : n ∉ x.lateNew) :
    tileLate i n p = putStr i { x with lateNew := n :: x.lateNew, latePass := min 0xFFFFFFFF (x.latePass + 1) }
      (count 9 i (64 + lateCause x n) 1 p) := by
  have hcounts : ¬ ((decide (n < x.nextTile) || decide (n ∈ x.lateNew)) = true) := by simp [hnext, hnew]
  have hruns : ¬ ((decide (x.state ≠ .running) && decide (x.state ≠ .stopping)) = true) := by
    rcases hstate with h | h <;> simp [h]
  simp only [tileLate, hx, hruns, hnone, hcounts]
  rfl

end Deadlines

/-- A member that holds every slot is reported, and detached where the part is set to (R240). -/
theorem memberStalls_full (m : StreamMember) (hm : memberAt x n = some m) (hjoined : m.joined = true)
    (hslots : (sentTo x m - m.released).toNat = prSlots x.header) :
    memberStalls i n p =
      (let q := strEvent 4 i n p
       if bitAt q.str.ctrl 16 then detachMember i n q else q) := by
  simp [memberStalls, hx, hm, hjoined, hslots]

end Streams

/-! ### Fold tables and jobs -/

/-- The LOAD or DROP that waits goes on once its table has no reference left (R253). -/
theorem slotWaitEnds_unreferenced (r : SlotRun) (p : Part) (hr : p.cmp.slotRun = some r) (hwaits : r.waiting = true)
    (h : ∀ g : Nat, awaitedGen r.load r.gen (foldSlot r.slot p) = some g → tableRefs r.slot g p = 0) :
    slotWaitEnds p = runSlots (slotProceed r p) := by
  cases hg : awaitedGen r.load r.gen (foldSlot r.slot p) with
  | none => simp [slotWaitEnds, hr, hwaits, hg]
  | some g => simp [slotWaitEnds, hr, hwaits, hg, h g hg]

/-- Where its table keeps its references it is refused with SLOT_BUSY (R253). -/
theorem slotWaitExpires_waiting (r : SlotRun) (p : Part) (hr : p.cmp.slotRun = some r) (hwaits : r.waiting = true) :
    slotWaitExpires p = runSlots (slotEnd r.view 4 p) := by
  rw [slotWaitExpires, hr]
  exact if_pos hwaits

theorem jobEnds_running (i : Nat) (x : FoldJob) (p : Part) (hx : jobAt i p = some x) (h : x.state = .running) :
    jobEnds i p = goJob jobSteps i (putJob i { x with go := true } p) := by
  rw [jobEnds, hx]
  exact if_pos h

/-- Settles O48. -/
theorem engineEventsAct : Obligations.EngineEventsAct := by
  intro s i n p
  refine ⟨fun x hx hstalled => ⟨fun hstate hpartial => ?partials, fun h => ?fails⟩, fun k tag q => ⟨fun h => ?takes, fun h => ?limits⟩,
    fun x hx => ⟨fun h => ?starts, fun t rest htiles hready => ?hands, fun hstate => ⟨fun t ht hlate hdeadline => ?late,
      fun hnone hnext hnew => ?lateNew⟩, fun m hm hjoined hslots => ?stalls⟩,
    fun r hr hwaits => ⟨fun h => ?goesOn, ?refused⟩, fun x hx h => ?jobs⟩
  case partials => exact onPart_of_eq (expireCtx_partial i x s.part hx hstalled hstate hpartial)
  case fails => exact onPart_of_eq (expireCtx_fails i x s.part hx hstalled h)
  case takes => exact onPart_of_eq (gfuTake_read i tag k q s.part h)
  case limits => exact onPart_of_eq (gfuRunLimit_reached i tag k q s.part h)
  case starts => exact onPart_of_eq (startTile_running i s.part x hx h)
  case hands => exact onPart_of_eq (handTile_ready i s.part x hx t rest htiles hready)
  case late => exact onPart_of_eq (tileLate_begun i n s.part x hx hstate t ht hlate hdeadline)
  case lateNew => exact onPart_of_eq (tileLate_unbegun i n s.part x hx hstate hnone hnext hnew)
  case stalls => exact onPart_of_eq (memberStalls_full i n s.part x hx m hm hjoined hslots)
  case goesOn => exact onPart_of_eq (slotWaitEnds_unreferenced r s.part hr hwaits h)
  case refused => exact onPart_of_eq (slotWaitExpires_waiting r s.part hr hwaits)
  case jobs => exact onPart_of_eq (jobEnds_running i x s.part hx h)

end Sys2Proof.Machine

/-!
PROOFS. The events of pool DRAM and of the channel units, and the obligation O49.
-/

namespace Sys2Proof.Machine

/-! ### Channel units -/

section Units

variable (unit : Nat) (c : ChuCmd) (p : Part)

/-- The head of an idle unit's queue starts where its class holds the energy of a line, or fails its checks (R279, R280). -/
theorem chuStarts_head (hidle : (chuRunning unit p).isSome = false) (henergy : canSpend 4 lineCost p = true)
    (hc : p.chu.cmds.find? (fun c => decide (c.unit = unit)) = some c) :
    chuStarts unit p =
      if startStatus c.desc p ≠ stOK then chuFails (startStatus c.desc p) c p
      else onChannelUnits (fun b => { b with cmds := b.cmds.map fun k => if k = c then { k with running := true } else k }) p := by
  rw [chuStarts, if_neg (by simp [hidle, henergy]), hc]

/-- The running command writes the rest of D once it has its energy (R282). -/
theorem chuEnds_paid (hc : chuRunning unit p = some c) (hended : c.ended = false) (hwaits : chuWaits c p = false) (hpaid : chuCost c.desc ≤ c.paid) :
    chuEnds unit p =
      onChuCmd unit (fun _ => { (chuRun (chuTotal c.desc) c p).1 with ended := true }) (chuRun (chuTotal c.desc) c p).2 := by
  rw [chuEnds, hc]
  exact if_neg (by simp [hended, hwaits, Nat.not_lt.mpr hpaid])

end Units

/-! ### Channels -/

section Channels

variable (n : Nat) (p : Part) (htrained : channelTrained n p = true)
include htrained

/-- A refresh is counted, and the channel's unit yields (R287, R300). -/
theorem refreshDue_trained :
    refreshDue n p = chuYields n (count 11 n 2 1 (onChannel n (fun c => { c with refreshes := c.refreshes + 1 }) p)) :=
  if_neg (by simp [htrained])

/-- A retraining step takes its turn's energy and is counted (R300). -/
theorem retrainStep_paid (h : canSpend 9 retrainCost p = true) : retrainStep n p = count 11 n 3 1 (spend 9 retrainCost p) := by
  rw [retrainStep, if_neg (by simp [htrained]), if_pos h, retrainNow]

/-- Without the energy the step waits for its turn (R454). -/
theorem retrainStep_waits (h : canSpend 9 retrainCost p = false) :
    retrainStep n p = onPower (fun q => { q with due := q.due ++ [.retrain n] }) p := by
  rw [retrainStep, if_neg (by simp [htrained]), if_neg (by simp [h])]

/-- A sub-channel that is lost is lost for good (R299). -/
theorem subchannelLost_first (h : ((p.dram.channels[n]?).map (·.lost)).getD false = false) :
    subchannelLost n p = flrEvent 9 0 0 0 (note 11 2 none .subchannelLost [n] (onChannel n (fun c => { c with lost := true }) p)) :=
  if_neg (by simp only [htrained, h]; decide)

end Channels

/-! ### Fills and surveys -/

/-- A running fill that waits for nothing and has its energy writes the rest of its lines (R309). -/
theorem fillEnds_paid (r : FillRun) (p : Part) (hr : p.dram.fill = some r) (hwaits : fillWaits r.firstLine r.lines p = false)
    (hpaid : fillCost r.lines ≤ r.paid) :
    fillEnds p =
      (let q := onMemory (if r.early.isNone then fillLines (fillRange r) else fillRest (fillRange r)) p
       fillEndCmd r.view 0 (r.lines / linesPerExtent * 2 ^ 32) (onDram (fun d => { d with fill := none })
        (fillFollows r (fun line => !isEarly r line) q))) := by
  rw [fillEnds, hr]
  exact if_neg (by simp [hwaits, Nat.not_lt.mpr hpaid])

/-- A running survey that has its energy reads the rest of its lines (R314). -/
theorem surveyEnds_paid (r : SurveyRun) (p : Part) (hr : p.dram.survey = some r) (hpaid : surveyCost r.len ≤ r.paid) :
    surveyEnds p = surveyOver r (surveyLines r (fun k => !surveyEarly r.early k) p) := by
  rw [surveyEnds, hr]
  exact if_neg (Nat.not_lt.mpr hpaid)

/-- Settles O49. -/
theorem memoryEventsAct : Obligations.MemoryEventsAct := by
  intro s n p
  refine ⟨fun c hidle henergy hc => ?starts, fun c hc hended hwaits hpaid => ?ends, fun htrained => ⟨?refreshes, fun h => ?retrains,
    fun h => ?defers, fun h => ?lost⟩, fun r hr hwaits hpaid => ?fills, fun r hr hpaid => ?surveys⟩
  case starts => exact onPart_of_eq (chuStarts_head n c s.part hidle henergy hc)
  case ends => exact onPart_of_eq (chuEnds_paid n c s.part hc hended hwaits hpaid)
  case refreshes => exact onPart_of_eq (refreshDue_trained n s.part htrained)
  case retrains => exact onPart_of_eq (retrainStep_paid n s.part htrained h)
  case defers => exact onPart_of_eq (retrainStep_waits n s.part htrained h)
  case lost => exact onPart_of_eq (subchannelLost_first n s.part htrained h)
  case fills => exact onPart_of_eq (fillEnds_paid r s.part hr hwaits hpaid)
  case surveys => exact onPart_of_eq (surveyEnds_paid r s.part hr hpaid)

end Sys2Proof.Machine

/-!
PROOFS. The events of NVMe commands and of drives: the obligations O50 and O51.
-/

namespace Sys2Proof.Machine

/-! ### Moves, rooms and enrolments -/

/-- A copy whose class has given its energy is completed and switched (R340). -/
theorem moveCopyDone_paid (n : Nat) (m : Move) (p : Part) (hm : moveNum n p = some m) (hcopied : m.copied = false) (hpaid : moveCost ≤ m.paid)
    (hidle : (p.chu.cmds.any fun c => c.running && chuExt c.desc = m.src) = false)
    (hserves : driveServes m.drive p = true ∨ isKept m.src p = true) :
    moveCopyDone n p = switchReady (if m.demote then copyDemote m p else copyPromote m p) := by
  rw [moveCopyDone, hm]
  refine if_neg ?_
  simp only [hcopied, Nat.not_lt.mpr hpaid, hidle]
  rcases hserves with h | h <;> simp [h]

/-- A room extent that nothing holds returns (R335). -/
theorem removeRoomDone_empty (view e : Nat) (p : Part) (hrun : p.flt.run = some (.removeRoom view e))
    (hleft : ((takenRooms (evictRoom e p)).any fun r => r / 4096 = e) = false) :
    removeRoomDone p = checkRoom (fltEnd view 0 (onFlash (fun b =>
      { b with room := b.room.filter fun x => x ≠ e, removing := b.removing.filter fun x => x ≠ e, run := none }) (evictRoom e p))) := by
  rw [removeRoomDone, hrun]
  exact if_neg (by simp only [hleft]; decide)

/-- An enrolment ends with a new journal, whose HEADER goes to the drive (R332). -/
theorem enrollDone_enrolled (view d : Nat) (p : Part) (hrun : p.flt.run = some (.enroll view d)) :
    enrollDone p =
      (let q := onDrive d (fun y =>
        { voidUses (fun u => u ≠ .asyncEvent) y with
          state := .ready, zones := [], journal := [[headerBytes d (myPart p) 0], []], active := 0, jseq := 1 }) p
       let q := journalWrites d 0 1 (count 13 d 2 (drive d q).nzones (note 13 0 none .enrolled [d] q))
       fltEnd view 0 (onFlash (fun b => { b with run := none, bound := b.bound.filter fun p => driveOf p.1 ≠ d }) q)) := by
  rw [enrollDone, hrun]

/-- A page that was read goes to its room page, with the blocks that failed poisoned (R336). -/
theorem pageStaged_staging (page : Nat) (bad : List Nat) (room : Nat) (p : Part)
    (h : (drive (driveOf (page / 4096)) p).cmds.findSome? (stagingRoom page) = some room) :
    pageStaged page bad p =
      (let k := driveOf (page / 4096)
       let q := fillRoom page room bad (onDrive k (fun y => { y with cmds := y.cmds.filter fun c => (stagingRoom page c).isNone }) p)
       let q := count 13 k 3 1 (count 13 k 64 (bad.filter (· < 16)).length q)
       let pins := ((q.flt.wanted.filter fun w => w.1 = page).map (·.2)).eraseDups
       stageWaiting (serveStaged page (onFlash (fun b =>
        { b with staged := tset b.staged page { room := room, pins := pins, used := q.flt.clock, kept := false } }) q))) := by
  rw [pageStaged, h]

/-! ### Completions and timeouts of NVMe commands (R327) -/

section Commands

variable (d cid status : Nat) (p : Part) (c : NvmeCmd) (hc : (drive d p).cmds.find? (fun c => decide (c.cid = cid)) = some c)
include hc

theorem nvmeCompletes_stage (page room : Nat) (huse : c.use = .stage page room) (hstatus : status = 0) :
    nvmeCompletes d cid status p = pageStaged page [] (sampleTime 13 d 0 p) := by
  simp only [nvmeCompletes, hc, huse, hstatus, isRead, if_true]

theorem nvmeCompletes_direct (block : Nat) (huse : c.use = .direct block) :
    nvmeCompletes d cid status p = directDone block status (nvmeDone d cid (sampleTime 13 d 0 p)) := by
  simp only [nvmeCompletes, hc, huse, isRead, if_true]

theorem nvmeCompletes_moveRead (n k : Nat) (huse : c.use = .moveRead n k) (hstatus : status = 0) :
    nvmeCompletes d cid status p = onMove n (fun m => { m with next := k + 1 }) (nvmeDone d cid (sampleTime 13 d 0 p)) := by
  simp only [nvmeCompletes, hc, huse, hstatus, isRead, if_true]

theorem nvmeCompletes_moveWrite (n k : Nat) (huse : c.use = .moveWrite n k) (hstatus : status = 0) :
    nvmeCompletes d cid status p = onMove n (fun m => { m with next := k + 1 }) (nvmeDone d cid p) := by
  simp only [nvmeCompletes, hc, huse, hstatus, isRead, Bool.false_eq_true, if_false, if_true]

theorem nvmeCompletes_reset (z : Nat) (huse : c.use = .reset z) (hz : 2 ≤ z) :
    nvmeCompletes d cid status p = if status = 0 then zoneIsReset d z p else resetDeadZones d (nvmeDone d cid p) := by
  simp only [nvmeCompletes, hc, huse, isRead, Bool.false_eq_true, if_false, Nat.not_lt.mpr hz]

/-- A command that is late is aborted once; an Asynchronous Event Request is never late (R327). -/
theorem nvmeTimesOut_late (habort : ∀ old : Nat, c.use ≠ .abort old) (hevent : c.use ≠ .asyncEvent)
    (honce : NvmeUse.abort cid ∉ usesOf (drive d p)) : nvmeTimesOut d cid p = nvme d (.abort cid) false (count 13 d 65 1 p) := by
  simp only [nvmeTimesOut, hc, honce, decide_false, Bool.or_false]
  exact if_neg Bool.false_ne_true

/-- A drive that does not answer the Abort goes DOWN (R327). -/
theorem nvmeAbortTimesOut_unanswered (old : Nat) (huse : c.use = .abort old) : nvmeAbortTimesOut d cid p = driveDown d p := by
  have hcid : c.cid = cid := by simpa using List.find?_some hc
  refine if_pos (List.any_eq_true.mpr ⟨c, List.mem_of_find?_eq_some hc, ?_⟩)
  simp [huse, hcid]

end Commands

/-- A data zone that holds no extent is reset, once the journal is flushed (R329). -/
theorem zoneIsReset_dead (d z : Nat) (p : Part) (hz : 2 ≤ z) (hwritten : (zoneAt d z p).wp ≠ 0) (hlive : (zoneAt d z p).live.isEmpty = true)
    (hidle : zoneWriting d z p = false) (hserves : driveServes d p = true) (hflushed : ((usesOf (drive d p)).any isJournal) = false) :
    zoneIsReset d z p = count 13 d 2 1 (onDrive d (fun y =>
      { y with
        cmds := y.cmds.filter fun c => c.use ≠ .reset z
        held := y.held.filter fun h => h.use ≠ .reset z
        zones := tdel y.zones z }) p) := by
  have hdead : zoneDead d z p = true := by simp [zoneDead, hwritten, hlive, hidle, hserves, hflushed]
  rw [zoneIsReset, if_neg (Nat.not_lt.mpr hz), if_pos hdead]

/-- Settles O50. -/
theorem flashEventsAct : Obligations.FlashEventsAct := by
  intro s d cid p
  refine ⟨fun m hm hcopied hpaid hidle hserves => ?copies, fun view hrun hleft => ?rooms, fun view hrun => ?enrols,
    fun page bad room => ?pages, fun c status hc => ⟨fun page room huse hstatus => ?stage, fun block huse => ?direct,
      fun n k hstatus => ⟨fun huse => ?moveRead, fun huse => ?moveWrite⟩, fun z huse hz => ?reset,
      fun habort hevent honce => ?late, fun old huse => ?unanswered⟩,
    fun z hz hwritten hlive hidle hserves hflushed => ?zones⟩
  case copies => exact onPart_of_eq (moveCopyDone_paid d m s.part hm hcopied hpaid hidle hserves)
  case rooms => exact onPart_of_eq (removeRoomDone_empty view d s.part hrun hleft)
  case enrols => exact onPart_of_eq (enrollDone_enrolled view d s.part hrun)
  case pages => exact fun h => onPart_of_eq (pageStaged_staging page bad room s.part h)
  case stage => exact onPart_of_eq (nvmeCompletes_stage d cid status s.part c hc page room huse hstatus)
  case direct => exact onPart_of_eq (nvmeCompletes_direct d cid status s.part c hc block huse)
  case moveRead => exact onPart_of_eq (nvmeCompletes_moveRead d cid status s.part c hc n k huse hstatus)
  case moveWrite => exact onPart_of_eq (nvmeCompletes_moveWrite d cid status s.part c hc n k huse hstatus)
  case reset => exact onPart_of_eq (nvmeCompletes_reset d cid status s.part c hc z huse hz)
  case late => exact onPart_of_eq (nvmeTimesOut_late d cid s.part c hc habort hevent honce)
  case unanswered => exact onPart_of_eq (nvmeAbortTimesOut_unanswered d cid s.part c hc old huse)
  case zones => exact onPart_of_eq (zoneIsReset_dead d z s.part hz hwritten hlive hidle hserves hflushed)

/-! ### Drives -/

section Drives

variable (d critical : Nat) (p : Part)

/-- A poll records a drive's wear, and its warning (R343). -/
theorem smartPoll_paid (percent : Nat) (hserves : driveServes d p = true) (henergy : canSpend 13 lineCost p = true) :
    smartPoll d critical percent p =
      (let q := onDrive d (fun y => { y with percent := min percent 255 }) (spend 13 lineCost p)
       if critical ≠ 0 then driveWarns d q else q) := by
  rw [smartPoll, if_neg (by simp [hserves]), if_pos henergy, pollNow]

/-- Without the energy a poll waits for its turn (R454). -/
theorem smartPoll_waits (percent : Nat) (hserves : driveServes d p = true) (henergy : canSpend 13 lineCost p = false) :
    smartPoll d critical percent p = onPower (fun q => { q with due := q.due ++ [.poll d critical percent] }) p := by
  rw [smartPoll, if_neg (by simp [hserves]), if_neg (by simp [henergy])]

/-- An asynchronous event that completes no request is noted, and warns (R343). -/
theorem asyncEvent_unrequested (zones : List Nat) (hserves : driveServes d p = true) (hzones : zones.isEmpty = false)
    (hnone : ((drive d p).cmds.find? fun c => c.use = .asyncEvent) = none) :
    asyncEvent d critical zones p =
      (let q := note 13 0 none .journal (d :: zones) p
       if critical ≠ 0 then driveWarns d q else q) := by
  simp only [asyncEvent, hnone, hzones, hserves]
  rfl

/-- An asynchronous event completes a request for it, which is issued again, and its log page is read (R343). -/
theorem asyncEvent_requested (zones : List Nat) (c : NvmeCmd) (hc : ((drive d p).cmds.find? fun c => c.use = .asyncEvent) = some c) :
    asyncEvent d critical zones p =
      (let q := nvme d (.getLog (if zones = [] then 0x02 else 0xBF)) false (nvme d .asyncEvent false (nvmeDone d c.cid p))
       let q := if zones = [] ∨ driveServes d q = false then q else note 13 0 none .journal (d :: zones) q
       if critical ≠ 0 then driveWarns d q else q) := by
  simp only [asyncEvent, hc, List.isEmpty_iff, Bool.or_eq_true, Bool.not_eq_true']

/-- A link that is lost takes the drive DOWN (R344). -/
theorem driveDown_up (habsent : (drive d p).state ≠ .absent) (hdown : (drive d p).state ≠ .down) :
    driveDown d p =
      (let q := onDrive d (fun y => { y with state := .down, rate := 0, width := 0, cmds := [], held := [] }) p
       let q := (q.flt.moves.filter fun m => m.drive = d).foldl (fun s m => stopMove m.num (some stTimeout) s) q
       failWaiting d (enrollFails d (flashEvent 3 0 d 0 0 (note 13 2 none .driveDown [d] q)))) :=
  if_neg (by simp [habsent, hdown])

/-- PERST# of a drive that is present is released once the boot has come to the drives (R553). -/
theorem perstRelease_present (hport : rootPortOn d p = true) (hpresent : (drive d p).present = true) (hperst : (drive d p).perst = true)
    (hon : p.cur.power = .coreOn) (hphase : 6 ≤ p.cur.phase) :
    perstRelease d p = onDrive d (fun y => { startDrive y with perst := false, fresh := true }) p :=
  if_neg (by simp [hport, hpresent, hperst, hon, hphase])

section Ready

variable (info : DriveInfo) (hpresent : (drive d p).present = true) (hperst : (drive d p).perst = false)
  (hstate : (drive d p).state = .starting ∨ (drive d p).state = .down) (hrate : linkRate info ≠ 0) (hwidth : linkWidth info ≠ 0)
include hpresent hperst hstate hrate hwidth

/-- A drive that is waited for and has trained is judged by what it shows (R324, R345). -/
theorem driveReady_judged :
    driveReady d info p =
      match failedItem info with
      | some k =>
        note 13 1 none .driveRejected [d, k] (onDrive d (fun y =>
          { y with state := .rejected, rate := linkRate info, width := linkWidth info, cmds := [], held := deleteQueues }) p)
      | none =>
        if (info.journal.filterMap headerOf).isEmpty then onDrive d (driveShown info .unenrolled []) p
        else if (info.journal.filterMap headerOf).any fun h => h ≠ (myPart p, d) then onDrive d (driveShown info .foreign []) p
        else replayDrive d info p := by
  have hwaited : ¬ ((!(drive d p).present || (drive d p).perst ||
      (decide ((drive d p).state ≠ .starting) && decide ((drive d p).state ≠ .down))) = true) := by
    rcases hstate with h | h <;> simp [hpresent, hperst, h]
  rw [driveReady]
  exact (if_neg hwaited).trans (if_neg (by simp [hrate, hwidth]))

theorem driveReady_rejected (k : Nat) (hfailed : failedItem info = some k) :
    driveReady d info p = note 13 1 none .driveRejected [d, k] (onDrive d (fun y =>
      { y with state := .rejected, rate := linkRate info, width := linkWidth info, cmds := [], held := deleteQueues }) p) := by
  rw [driveReady_judged d p info hpresent hperst hstate hrate hwidth, hfailed]

variable (hmeets : failedItem info = none)
include hmeets

theorem driveReady_unenrolled (hheaders : info.journal.filterMap headerOf = []) :
    driveReady d info p = onDrive d (driveShown info .unenrolled []) p := by
  rw [driveReady_judged d p info hpresent hperst hstate hrate hwidth, hmeets]
  exact if_pos (by simp [hheaders])

theorem driveReady_foreign (hheaders : ((info.journal.filterMap headerOf).any fun h => h ≠ (myPart p, d)) = true) :
    driveReady d info p = onDrive d (driveShown info .foreign []) p := by
  rw [driveReady_judged d p info hpresent hperst hstate hrate hwidth, hmeets]
  refine (if_neg fun hempty => ?_).trans (if_pos hheaders)
  simp [List.isEmpty_iff.mp hempty] at hheaders

theorem driveReady_ours (hsome : info.journal.filterMap headerOf ≠ []) (hours : ∀ h ∈ info.journal.filterMap headerOf, h = (myPart p, d)) :
    driveReady d info p = replayDrive d info p := by
  rw [driveReady_judged d p info hpresent hperst hstate hrate hwidth, hmeets]
  refine (if_neg fun hempty => hsome (List.isEmpty_iff.mp hempty)).trans (if_neg fun hforeign => ?_)
  obtain ⟨h, hmem, hne⟩ := List.any_eq_true.mp hforeign
  exact of_decide_eq_true hne (hours h hmem)

end Ready

end Drives

/-- Settles O51. -/
theorem drivesComeAndGo : Obligations.DrivesComeAndGo := by
  intro s d critical percent p
  refine ⟨fun hserves => ⟨fun henergy => ?polls, fun henergy => ?pollWaits, fun zones hzones hnone => ?unrequested⟩,
    fun c zones hc => ?requested, fun habsent hdown => ?down,
    fun info hpresent hperst hstate hrate hwidth => ⟨fun k hfailed => ?rejected, fun hmeets hheaders => ?unenrolled,
      fun hmeets hheaders => ?foreign, fun hmeets hsome hours => ?ours⟩,
    fun hd => ⟨?inserted, ?removed, fun hport hpresent hperst hon hphase => ?released⟩⟩
  case polls => exact onPart_of_eq (smartPoll_paid d critical s.part percent hserves henergy)
  case pollWaits => exact onPart_of_eq (smartPoll_waits d critical s.part percent hserves henergy)
  case unrequested => exact onPart_of_eq (asyncEvent_unrequested d critical s.part zones hserves hzones hnone)
  case requested => exact onPart_of_eq (asyncEvent_requested d critical s.part zones c hc)
  case down => exact onPart_of_eq (driveDown_up d s.part habsent hdown)
  case rejected => exact onPart_of_eq (driveReady_rejected d s.part info hpresent hperst hstate hrate hwidth k hfailed)
  case unenrolled => exact onPart_of_eq (driveReady_unenrolled d s.part info hpresent hperst hstate hrate hwidth hmeets hheaders)
  case foreign => exact onPart_of_eq (driveReady_foreign d s.part info hpresent hperst hstate hrate hwidth hmeets hheaders)
  case ours => exact onPart_of_eq (driveReady_ours d s.part info hpresent hperst hstate hrate hwidth hmeets hsome hours)
  case inserted => exact onPart_of_eq (if_pos hd)
  case removed => exact onPart_of_eq (if_neg (Nat.not_le.mpr hd))
  case released => exact onPart_of_eq (perstRelease_present d s.part hport hpresent hperst hon hphase)

end Sys2Proof.Machine

/-!
PROOFS. The events of galleries and of recovery, and the obligation O52.
-/

namespace Sys2Proof.Machine

/-! ### Galleries -/

/-- A rinse that a census put off begins when the census has ended (R387). -/
theorem rinseDeferred_begins (v : Nat) (p : Part) (hview : p.gals.rinseView = some v) (hcensus : p.tel.census ≠ .running) :
    rinseDeferred p =
      (let gs := p.gals.rinseWait
       rinseIdle v gs (rinseStarts gs p.gals.rinseAll
        (onGalleries (fun b => { b with rinseWait := [], rinseAll := false, rinseView := none }) p))) := by
  rw [rinseDeferred, hview]
  exact if_neg hcensus

/-- A drain that has nothing left ends (R385). -/
theorem galDrainEnds_idle (g : Nat) (p : Part) (hstate : (gallery g p).state = .draining) (hidle : galIdle g p = true) :
    galDrainEnds g p = galReached g (galEvent 1 g (onGallery g (fun x => { x with state := .disabled }) p)) :=
  if_pos (by simp [hstate, hidle])

/-- A page tagged PREVIOUS of a gallery that rotates is re-encrypted, at its lender line by line (R399). -/
theorem reencryptsPage_previous (page : Nat) (p : Part) (hrotating : (gallery (pageUnit page p).1.gallery p).rotating = true)
    (hprevious : ((gallery (pageUnit page p).1.gallery p).previous.map (·.epoch)) = some (pageTag page p).epoch)
    (htagged : thas p.gals.tags page = true) (henergy : canSpend 11 pageCost p = true) :
    reencryptsPage page p =
      if (pageUnit page p).1.place = .loan then startLoanPage page (spend 11 pageCost p)
      else reencryptPage (pageUnit page p).1 page (pageUnit page p).2 (spend 11 pageCost p) := by
  unfold reencryptsPage
  generalize pageUnit page p = u at hrotating hprevious ⊢
  obtain ⟨x, i⟩ := u
  simp only [henergy, hrotating, hprevious, htagged]
  rfl

/-! ### Drain bounds (R436) -/

theorem drainBound_context (n : Nat) (x : Context) (p : Part) (hx : ctxAt n p = some x) (hstate : x.state = .closing) :
    drainBound (.context n) p = abortCtx n p :=
  if_pos (by simp [hx, hstate])

theorem drainBound_stream (n : Nat) (x : Stream) (p : Part) (hx : strAt n p = some x) (hstate : x.state = .stopping) :
    drainBound (.stream n) p = abortStream n p :=
  if_pos (by simp [hx, hstate])

/-! ### Self-tests and spot checks -/

/-- What a self-test of engine `e` leaves that found `wrong` patterns wrong (R441). -/
def selftestRan (e wrong : Nat) (p : Part) : Part :=
  (List.range wrong).foldl (fun s _ => charge none e s)
    (onRecovery (fun b => { b with selftests := b.selftests.filter fun x => x ≠ e }) p)

/-- A self-test that was asked for runs in a turn of its class (R441, R454). -/
theorem selftestRuns_asked (e wrong : Nat) (p : Part) (he : e < 80) (hasked : e ∈ p.flr.selftests) (henergy : canSpend 14 (testCost e) p = true) :
    selftestRuns e wrong p = selftestRan e wrong (spend 14 (testCost e) p) := by
  simp [selftestRuns, he, hasked, henergy, selftestRan]

/-- In Iron mode a self-test runs as ballast (R458). -/
theorem selftestRuns_ballast (e wrong : Nat) (p : Part) (he : e < 80) (hunasked : e ∉ p.flr.selftests) (hmode : p.power.modeNow = 1) :
    selftestRuns e wrong p = selftestRan e wrong p := by
  simp [selftestRuns, he, hunasked, hmode, selftestRan]

section Checks

variable (a b : Nat) (charged : List Nat) (c : SpotItem) (p : Part) (hdue : dueCheck a p = some c)
include hdue

/-- A check that is due charges the engines that disagree (R438). -/
theorem spotCheck_paid (hpair : checkPair a b = true) (hcharged : chargesOk a b charged = true) (henergy : canSpend 14 (testCost a) p = true) :
    spotCheck a b charged p = charged.foldl (fun s e => charge (some c) e s)
      (count 17 0 3 1 (onRecovery (fun r => { r with checks := r.checks.erase c }) (spend 14 (testCost a) p))) := by
  rw [spotCheck, hdue]
  exact if_neg (by simp [hpair, hcharged, henergy])

/-- Without the energy the check waits (R454). -/
theorem spotCheck_waits (henergy : canSpend 14 (testCost a) p = false) : spotCheck a b charged p = p := by
  rw [spotCheck, hdue]
  exact if_pos (by simp [henergy])

end Checks

/-! ### Host ports -/

/-- Counting leaves a function's outstanding requests. -/
theorem hostOut_count (hp block unit index n : Nat) (p : Part) : hostOut hp (count block unit index n p) = hostOut hp p := by
  simp [hostOut]

/-- A function's drain is abandoned: its requests are tracked no more and its windows are gone (R490). -/
theorem functionExpires_draining (hp : Nat) (p : Part) (h : (host hp p).draining = true) :
    functionExpires hp p =
      (let q := (hostOut hp p).foldl (fun s t => untrack (hostAgent hp) t s) (count 17 0 4 (hostOut hp p).length p)
       let q := onManagement (fun m => { m with windows := m.windows.filter fun r => r.agent ≠ hostAgent hp }) q
       onHost hp (fun h => { h with draining := false }) q) := by
  rw [functionExpires, if_neg (by simp [h])]
  simp only [hostOut_count]

section HostPorts

variable (hp : Nat) (p : Part) (hhp : hp < 2) (hon : p.cur.power = .coreOn)
include hhp hon

/-- A reset of a host port that there is, while the core die is on (R490). -/
theorem hostPortReset_on (kind : Nat) (hkind : kind ≤ 4) :
    hostPortReset hp kind p =
      if kind = 3 then function0Reset hp p
      else if kind = 4 then functionReset hp p
      else if kind = 0 then onHost hp (fun h => { h with perst := false, link := false, retry := true }) (function0Reset hp (functionReset hp p))
      else function0Reset hp (functionReset hp p) :=
  if_neg (by simp [Nat.not_le.mpr hhp, Nat.not_lt.mpr hkind, hon])

theorem hostPortReset_link (kind : Nat) (hkind : kind = 1 ∨ kind = 2) :
    hostPortReset hp kind p = function0Reset hp (functionReset hp p) := by
  rw [hostPortReset_on hp p hhp hon kind (by omega), if_neg (by omega), if_neg (by omega), if_neg (by omega)]

end HostPorts

/-- Settles O52. -/
theorem galleryAndRecoveryEventsAct : Obligations.GalleryAndRecoveryEventsAct := by
  intro s g n p
  refine ⟨fun v hview hcensus => ?deferred, fun h => ?rinsed, fun h => ⟨fun hidle => ?drained, ?gallery⟩, fun x hx h => ?context,
    fun x hx h => ?stream, fun h => ?gather, fun h => ?mending, fun h => ?channel, fun page hrotating hprevious htagged henergy => ?page,
    fun e wrong he => ⟨fun hasked henergy => ?asked, fun hunasked hmode => ?ballast⟩,
    fun a b charged c hpair hcharged hdue => ⟨fun henergy => ?checked, fun henergy => ?checkWaits⟩, fun h => ?abandoned,
    fun hn hon => ⟨?function0, ?function1, fun kind hkind => ?links, ?perst⟩⟩
  case deferred => exact onPart_of_eq (rinseDeferred_begins v s.part hview hcensus)
  case rinsed => exact onPart_of_eq (if_pos h)
  case drained => exact onPart_of_eq (galDrainEnds_idle g s.part h hidle)
  case gallery => exact onPart_of_eq (f := drainBound (.gallery g)) (if_pos h)
  case context => exact onPart_of_eq (drainBound_context n x s.part hx h)
  case stream => exact onPart_of_eq (drainBound_stream n x s.part hx h)
  case gather => exact onPart_of_eq (f := drainBound (.gfuUnit n)) (if_pos h)
  case mending => exact onPart_of_eq (f := drainBound (.mendEngine n)) (if_pos h)
  case channel => exact onPart_of_eq (f := drainBound (.channelUnit n)) (if_pos h)
  case page => exact onPart_of_eq (reencryptsPage_previous page s.part hrotating hprevious htagged henergy)
  case asked => exact onPart_of_eq (selftestRuns_asked e wrong s.part he hasked henergy)
  case ballast => exact onPart_of_eq (selftestRuns_ballast e wrong s.part he hunasked hmode)
  case checked => exact onPart_of_eq (spotCheck_paid a b charged c s.part hdue hpair hcharged henergy)
  case checkWaits => exact onPart_of_eq (spotCheck_waits a b charged c s.part hdue henergy)
  case abandoned => exact onPart_of_eq (functionExpires_draining n s.part h)
  case function0 => exact onPart_of_eq (hostPortReset_on n s.part hn hon 3 (by norm_num))
  case function1 => exact onPart_of_eq (hostPortReset_on n s.part hn hon 4 (by norm_num))
  case links => exact onPart_of_eq (hostPortReset_link n s.part hn hon kind hkind)
  case perst => exact onPart_of_eq (hostPortReset_on n s.part hn hon 0 (by norm_num))

end Sys2Proof.Machine

/-!
PROOFS. The commands of the mailbox, and the obligation O53.
-/

namespace Sys2Proof.Machine

/-! ### The checks of R566 -/

/-- Commands that every channel may send in any phase. -/
theorem opListed_all {op : Nat} (h : op ∈ [0x01, 0x30, 0x31, 0x40, 0x60]) (c : Nat) (p : Part) : opListed c op p = true := by
  simp only [List.mem_cons, List.not_mem_nil, or_false] at h
  rcases h with rfl | rfl | rfl | rfl | rfl <;> simp [opListed]

/-- Commands of an update, which the hosts may send in any phase. -/
theorem opListed_host {op : Nat} (h : op ∈ [0x20, 0x21, 0x22, 0x23, 0x24, 0x25, 0x26]) {c : Nat} (hc : c < 2) (p : Part) :
    opListed c op p = true := by
  simp only [List.mem_cons, List.not_mem_nil, or_false] at h
  rcases h with rfl | rfl | rfl | rfl | rfl | rfl | rfl <;> simp [opListed, hc]

theorem opListed_key (c : Nat) (p : Part) (h : inRecovery p = false) : opListed c 0x10 p = true := by simp [opListed, h]

theorem opListed_extend (p : Part) (h : inRecovery p = false) : opListed 2 0x50 p = true := by simp [opListed, h]

/-- A command that passes the checks is performed. -/
theorem mailCommand_checked {c op n : Nat} {pl : List Byte} {p : Part} (hlisted : opListed c op p = true)
    (hkind : op = 0x10 → kmKind pl ∈ [1, 2, 3, 4]) (hlength : lengthOk op n pl p = true) (hpayload : payloadOk op pl = true) :
    mailCommand c op n pl p = mailPerform c op pl p := by
  have hknown : ¬ ((!opListed c op p || (decide (op = 0x10) && !decide (kmKind pl ∈ [1, 2, 3, 4]))) = true) := by
    by_cases hop : op = 0x10
    · rw [hlisted, decide_eq_true (hkind hop), Bool.not_true, Bool.and_false]
      decide
    · simp [hlisted, hop]
  rw [mailCommand, if_neg hknown, if_neg (by simp [hlength]), if_neg (by simp [hpayload])]

/-- A request that passes the checks is answered with what it performs. -/
theorem mailSend_replies {c op : Nat} {pl : List Byte} {p q : Part} {r : Nat} {out : List Byte} (hready : mailReady c p) (hop : op < 2 ^ 16)
    (hfits : pl.length ≤ 4080) (hlisted : opListed c op (asked c op pl p) = true) (hkind : op = 0x10 → kmKind pl ∈ [1, 2, 3, 4])
    (hlength : lengthOk op pl.length pl (asked c op pl p) = true) (hpayload : payloadOk op pl = true)
    (h : mailPerform c op pl (asked c op pl p) = (r, out, q)) : mailSend c op pl p = replied c op r out q := by
  rw [mailSend_runs c op pl p hready hop hfits, mailCommand_checked hlisted hkind hlength hpayload, h]

/-! ### Key messages (R396 to R401) -/

/-- What a key message is answered with: BAD_KEY where the key does not unwrap, and else what it does with the key. -/
def keyAnswered (c : Nat) (m : List Byte) (q : Part) (installed : Nat → Part) : Part :=
  match kmKey m q with
  | none => replied c 0x10 5 [] (count 14 (kmGallery m) 64 1 q)
  | some k => replied c 0x10 0 [] (installed k)

theorem replied_eq_keyAnswered {c : Nat} {m : List Byte} {q : Part} {installed : Nat → Part} {a : Nat × Part}
    (hbad : kmKey m q = none → a = badKey m q) (hgood : ∀ k, kmKey m q = some k → a = (0, installed k)) :
    replied c 0x10 a.1 [] a.2 = keyAnswered c m q installed := by
  unfold keyAnswered
  cases hk : kmKey m q with
  | none => rw [hbad hk, badKey]
  | some k => rw [hgood k hk]

/-- A key message with the length and the fields of its kind is performed by its kind. -/
theorem mailSend_key {c kind : Nat} {m : List Byte} {p : Part} {a : Nat × Part} (hready : mailReady c p) (hlisted : inRecovery p = false)
    (hkind : kmKind m = kind) (hknown : kind ∈ [1, 2, 3, 4]) (hlength : m.length = kmLength kind) (hfields : kmFieldsOk m = true)
    (h : keyMessage m (asked c 0x10 m p) = (a.1, [], a.2)) : mailSend c 0x10 m p = replied c 0x10 a.1 [] a.2 := by
  have hfits : m.length ≤ 4080 := by
    rw [hlength]
    unfold kmLength
    split_ifs <;> omega
  exact mailSend_replies hready (by norm_num) hfits (opListed_key c _ ((asked_rcv c 0x10 m p).trans hlisted))
    (fun _ => hkind ▸ hknown) (by simp [lengthOk, hkind, hlength]) hfields h

section Keys

variable (m : List Byte) (q : Part)

theorem keyInstall_bad (h : kmKey m q = none) : keyInstall m q = badKey m q := by simp only [keyInstall, h]

theorem keyInstall_current (k : Nat) (hk : kmKey m q = some k) (hslot : kmPrevious m = false)
    (hfree : (gallery (kmGallery m) q).state = .vacant ∨ (gallery (kmGallery m) q).current = none) :
    keyInstall m q =
      (0, onGallery (kmGallery m) (fun x => { x with current := some { epoch := kmEpoch m, key := k }, previous := none }) q) := by
  simp [keyInstall, hk, hslot, hfree]

theorem keyInstall_previous (k : Nat) (hk : kmKey m q = some k) (now : KeySlot) (hslot : kmPrevious m = true)
    (hcurrent : (gallery (kmGallery m) q).current = some now) (hprevious : (gallery (kmGallery m) q).previous = none)
    (hepoch : nextEpoch (kmEpoch m) = now.epoch) :
    keyInstall m q = (0, onGallery (kmGallery m) (fun x => { x with previous := some { epoch := kmEpoch m, key := k } }) q) := by
  simp [keyInstall, hk, hslot, hcurrent, hprevious, hepoch]

theorem keyRotate_bad (h : kmKey m q = none) : keyRotate m q = badKey m q := by simp only [keyRotate, h]

theorem keyRotate_begins (k : Nat) (hk : kmKey m q = some k) (now : KeySlot) (hidle : (gallery (kmGallery m) q).rotating = false)
    (hactive : (gallery (kmGallery m) q).state = .active) (hcurrent : (gallery (kmGallery m) q).current = some now)
    (hprevious : (gallery (kmGallery m) q).previous = none) (hepoch : kmEpoch m = nextEpoch now.epoch) :
    keyRotate m q = (0, onGallery (kmGallery m) (fun x =>
      { x with previous := some now, current := some { epoch := kmEpoch m, key := k }, rotating := true }) q) := by
  simp [keyRotate, hk, hidle, hactive, hcurrent, hprevious, hepoch]

theorem collectionLoad_bad (h : kmKey m q = none) : collectionLoad m q = badKey m q := by simp only [collectionLoad, h]

theorem collectionLoad_new (k : Nat) (hk : kmKey m q = some k) (hfree : thas q.gals.colls (kmColl m) = false) :
    collectionLoad m q = (0, onGalleries (fun b => { b with colls := tset b.colls (kmColl m) k }) q) := by
  simp [collectionLoad, hk, hfree]

end Keys

section KeyRows

variable {c : Nat} {p : Part} (pl : List Byte) (hready : mailReady c p) (hphase : inRecovery p = false)
include hready hphase

theorem keyInstall_answered (installed : Nat → Part) (hlength : (ofKind 1 pl).length = 1664) (hfields : kmFieldsOk (ofKind 1 pl) = true)
    (hgood : ∀ k, kmKey (ofKind 1 pl) (asked c 0x10 (ofKind 1 pl) p) = some k →
      keyInstall (ofKind 1 pl) (asked c 0x10 (ofKind 1 pl) p) = (0, installed k)) :
    mailSend c 0x10 (ofKind 1 pl) p = keyAnswered c (ofKind 1 pl) (asked c 0x10 (ofKind 1 pl) p) installed := by
  have hkind : kmKind (ofKind 1 pl) = 1 := ofKind_kind 1 (by norm_num) pl
  rw [← replied_eq_keyAnswered (keyInstall_bad _ _) hgood]
  exact mailSend_key hready hphase hkind (by decide) hlength hfields (by simp only [keyMessage, hkind])

theorem keyRotate_answered (installed : Nat → Part) (hlength : (ofKind 2 pl).length = 1664) (hfields : kmFieldsOk (ofKind 2 pl) = true)
    (hgood : ∀ k, kmKey (ofKind 2 pl) (asked c 0x10 (ofKind 2 pl) p) = some k →
      keyRotate (ofKind 2 pl) (asked c 0x10 (ofKind 2 pl) p) = (0, installed k)) :
    mailSend c 0x10 (ofKind 2 pl) p = keyAnswered c (ofKind 2 pl) (asked c 0x10 (ofKind 2 pl) p) installed := by
  have hkind : kmKind (ofKind 2 pl) = 2 := ofKind_kind 2 (by norm_num) pl
  rw [← replied_eq_keyAnswered (keyRotate_bad _ _) hgood]
  exact mailSend_key hready hphase hkind (by decide) hlength hfields (by simp only [keyMessage, hkind])

theorem collectionLoad_answered (hlength : (ofKind 3 pl).length = 1632) (hfields : kmFieldsOk (ofKind 3 pl) = true)
    (hfree : thas (asked c 0x10 (ofKind 3 pl) p).gals.colls (kmColl (ofKind 3 pl)) = false) :
    mailSend c 0x10 (ofKind 3 pl) p = keyAnswered c (ofKind 3 pl) (asked c 0x10 (ofKind 3 pl) p) fun k =>
      onGalleries (fun b => { b with colls := tset b.colls (kmColl (ofKind 3 pl)) k }) (asked c 0x10 (ofKind 3 pl) p) := by
  have hkind : kmKind (ofKind 3 pl) = 3 := ofKind_kind 3 (by norm_num) pl
  rw [← replied_eq_keyAnswered (collectionLoad_bad _ _) fun k hk => collectionLoad_new _ _ k hk hfree]
  exact mailSend_key hready hphase hkind (by decide) hlength hfields (by simp only [keyMessage, hkind])

theorem bindMessage_answered (hlength : (ofKind 4 pl).length = 96) (hfields : kmFieldsOk (ofKind 4 pl) = true) :
    mailSend c 0x10 (ofKind 4 pl) p =
      replied c 0x10 (bindMessage (ofKind 4 pl) (asked c 0x10 (ofKind 4 pl) p)).1 []
        (bindMessage (ofKind 4 pl) (asked c 0x10 (ofKind 4 pl) p)).2 := by
  have hkind : kmKind (ofKind 4 pl) = 4 := ofKind_kind 4 (by norm_num) pl
  exact mailSend_key hready hphase hkind (by decide) hlength hfields (by simp only [keyMessage, hkind])

end KeyRows

/-! ### Updates (R485, R486) -/

/-- A step that writes the boot NOR begins: its place among those under way. -/
def stepBegun (op c offset : Nat) (bytes : List Byte) (m : Management) : Management :=
  { m with async := m.async ++ [{ op := op, chan := c, offset := offset, bytes := bytes }], asyncDone := false }

section Updates

variable (c : Nat) (pl : List Byte) (q : Part)

theorem updateBegin_idle (hidle : norSession q = false) (htrial : (directory q.mgmt).trial = 0)
    (hactive : (directory q.mgmt).active = q.cur.runSlot) (hnor : norUsable q = true) :
    updateBegin c pl q = (9, [], onManagement (fun m =>
      { m with
        session := some { len := leAt pl 0 4, next := 0, verified := false }
        async := m.async ++ [{ op := 0x20, chan := c, offset := 0, bytes := [] }]
        asyncDone := false }) q) := by
  rw [updateBegin]
  exact (if_neg (by simp [hidle])).trans ((if_neg (by simp [htrial, hactive])).trans (if_neg (by simp [hnor])))

theorem updateConfirm_trial (htrial : (directory q.mgmt).trial ≠ 0) (hnor : norUsable q = true) :
    updateConfirm c q = (9, [], onManagement (stepBegun 0x25 c 0 []) q) := by
  simp only [updateConfirm, htrial, hnor]
  rfl

theorem configRead_usable (hnor : norUsable q = true) : configRead pl q = (0, recordCopy (leAt pl 0 1) q, q) := by
  simp [configRead, hnor]

theorem configWrite_good (hidle : norSession q = false) (hcrc : recordCrcOk pl = true) (hrecord : recordOk (recordOfBytes pl) = true)
    (hnor : norUsable q = true) : configWrite c pl q = (9, [], onManagement (stepBegun 0x31 c 0 pl) q) := by
  simp only [configWrite, hidle, hcrc, hrecord, hnor]
  rfl

section Session

variable (u : UpdateSession) (hu : q.mgmt.session = some u) (hidle : updateRuns q = false) (hnor : norUsable q = true)
include hu hidle hnor

theorem updateWrite_next (hplace : leAt pl 0 4 = u.next) (hleft : u.next < u.len) (hbytes : pl.length - 4 = min 2048 (u.len - u.next)) :
    updateWrite c pl q = (9, [], onManagement (stepBegun 0x21 c u.next (pl.drop 4)) q) := by
  have hnext : ¬ ((updateRuns q || decide (leAt pl 0 4 ≠ u.next) || decide (u.len ≤ u.next) ||
      decide (pl.length - 4 ≠ min 2048 (u.len - u.next))) = true) := by
    simp [hidle, hplace, Nat.not_le.mpr hleft, hbytes]
  rw [updateWrite, hu]
  exact (if_neg hnext).trans (if_neg (by simp [hnor]))

theorem updateVerify_whole (hwhole : u.len ≤ u.next) : updateVerify c q = (9, [], onManagement (stepBegun 0x22 c 0 []) q) := by
  rw [updateVerify, hu]
  exact (if_neg (by simp [hidle, Nat.not_lt.mpr hwhole])).trans (if_neg (by simp [hnor]))

theorem updateActivate_verified (hverified : u.verified = true) :
    updateActivate c q = (9, [], onManagement (stepBegun 0x23 c 0 []) q) := by
  rw [updateActivate, hu]
  exact (if_neg (by simp [hidle, hverified])).trans (if_neg (by simp [hnor]))

end Session

end Updates

/-- The bytes of an UPDATE_WRITE that its session takes next have the length of one (R566). -/
theorem lengthOk_updateWrite (pl : List Byte) (q : Part) (u : UpdateSession) (hu : q.mgmt.session = some u) (hsome : 4 < pl.length)
    (hpiece : pl.length - 4 = 2048 ∨ pl.length - 4 = u.len % 2048) : lengthOk 0x21 pl.length pl q = true := by
  have hpos : 0 < pl.length - 4 := by omega
  simp only [lengthOk, writeBytesOk, hu, hsome]
  rcases hpiece with h | h
  · simp [h]
  · simp [← h, hpos]

/-- CONFIG_READ names a copy by its only byte. -/
theorem leAt_singleton (k : Nat) (hk : k < 256) : leAt [BitVec.ofNat 8 k] 0 1 = k := by
  simp [leAt, ofLe, Nat.mod_eq_of_lt hk]

/-! ### Requests without arguments that refuse nothing -/

section Plain

variable {c : Nat} {p : Part} (hready : mailReady c p)
include hready

theorem mailSend_plain {op r : Nat} {out : List Byte} {q : Part} (hop : op < 2 ^ 16) (hkey : op ≠ 0x10)
    (hlisted : opListed c op (asked c op [] p) = true)
    (hlength : lengthOk op 0 [] (asked c op [] p) = true) (hpayload : payloadOk op [] = true)
    (h : mailPerform c op [] (asked c op [] p) = (r, out, q)) : mailSend c op [] p = replied c op r out q :=
  mailSend_replies hready hop (by simp) hlisted (fun h => absurd h hkey) hlength hpayload h

theorem mailSend_host {op r : Nat} {out : List Byte} {q : Part} (hop : op ∈ [0x22, 0x23, 0x24, 0x25, 0x26]) (hc : c < 2)
    (h : mailPerform c op [] (asked c op [] p) = (r, out, q)) : mailSend c op [] p = replied c op r out q := by
  have hall : op ∈ [0x20, 0x21, 0x22, 0x23, 0x24, 0x25, 0x26] := List.mem_cons_of_mem _ (List.mem_cons_of_mem _ hop)
  have hlisted := opListed_host hall hc (asked c op [] p)
  simp only [List.mem_cons, List.not_mem_nil, or_false] at hop
  rcases hop with rfl | rfl | rfl | rfl | rfl <;>
    exact mailSend_plain hready (by norm_num) (by norm_num) hlisted rfl rfl h

end Plain

/-- Settles O53. -/
theorem mailboxCommandsAct : Obligations.MailboxCommandsAct := by
  intro s c pl hready p
  refine ⟨?info, fun hphase => ?keys, fun hc => ?updates, fun k hk hnor => ?configRead, fun hlen hidle hcrc hrecord hnor => ?configWrite,
    fun hlen hfirst hlast => ?daybook, ?cold⟩
  case info =>
    exact onPart_of_eq (mailSend_plain hready (by norm_num) (by norm_num) (opListed_all (by decide) c _) rfl rfl rfl)
  case keys =>
    have hserves : inRecovery s.part = false := by simpa [inRecovery] using hphase
    refine ⟨?install, ?rotate, ?collection, ?bind, fun hc hlen => ?extend⟩
    case install =>
      intro m q installs hlen hfields
      refine ⟨fun hslot hfree => ?current, fun now hslot hcurrent hprevious hepoch => ?previous⟩
      case current =>
        exact onPart_of_eq (keyInstall_answered pl hready hserves _ hlen hfields fun k hk => keyInstall_current m q k hk hslot hfree)
      case previous =>
        exact onPart_of_eq (keyInstall_answered pl hready hserves _ hlen hfields fun k hk =>
          keyInstall_previous m q k hk now hslot hcurrent hprevious hepoch)
    case rotate =>
      intro m q now hlen hfields hidle hactive hcurrent hprevious hepoch
      exact onPart_of_eq (keyRotate_answered pl hready hserves _ hlen hfields fun k hk =>
        keyRotate_begins m q k hk now hidle hactive hcurrent hprevious hepoch)
    case collection =>
      intro m q hlen hfields hfree
      exact onPart_of_eq (collectionLoad_answered pl hready hserves hlen hfields hfree)
    case bind =>
      intro m q hlen hfields _
      exact onPart_of_eq (bindMessage_answered pl hready hserves hlen hfields)
    case extend =>
      subst hc
      exact onPart_of_eq (mailSend_replies hready (by norm_num) (by omega)
        (opListed_extend _ ((asked_rcv 2 0x50 pl s.part).trans hserves)) (by norm_num) (by simp [lengthOk, hlen]) rfl rfl)
  case updates =>
    refine ⟨?begins, fun u hu hidle hnor => ⟨fun hsome hleft hbytes hpiece hplace => ?writes, fun hwhole => ?verifies,
      fun hverified => ?activates⟩, ?status, fun htrial hnor => ?confirms, ?abort⟩
    case begins =>
      intro d hlen hlow hhigh hidle htrial hactive hnor
      refine onPart_of_eq (mailSend_replies hready (by norm_num) (by omega) (opListed_host (by decide) hc _) (by norm_num)
        (by simp [lengthOk, hlen]) (by simp [payloadOk, hlow, hhigh]) ?_)
      exact updateBegin_idle c pl _ ((asked_norSession c 0x20 pl s.part).trans hidle)
        ((congrArg Directory.trial (asked_dir c 0x20 pl s.part)).trans htrial)
        (by rw [asked_dir, asked_cur]; exact hactive) ((asked_nor c 0x20 pl s.part).trans hnor)
    case writes =>
      have hsession := (asked_session c 0x21 pl s.part).trans hu
      refine onPart_of_eq (mailSend_replies hready (by norm_num) (by omega) (opListed_host (by decide) hc _) (by norm_num)
        (lengthOk_updateWrite pl _ u hsession hsome hpiece) rfl ?_)
      exact updateWrite_next c pl _ u hsession ((asked_updateRuns c 0x21 pl s.part).trans hidle)
        ((asked_nor c 0x21 pl s.part).trans hnor) hplace hleft hbytes
    case verifies =>
      exact onPart_of_eq (mailSend_host hready (by decide) hc (updateVerify_whole c _ u ((asked_session c 0x22 [] s.part).trans hu)
        ((asked_updateRuns c 0x22 [] s.part).trans hidle) ((asked_nor c 0x22 [] s.part).trans hnor) hwhole))
    case activates =>
      exact onPart_of_eq (mailSend_host hready (by decide) hc (updateActivate_verified c _ u ((asked_session c 0x23 [] s.part).trans hu)
        ((asked_updateRuns c 0x23 [] s.part).trans hidle) ((asked_nor c 0x23 [] s.part).trans hnor) hverified))
    case status =>
      refine onPart_of_eq (mailSend_host hready (by decide) hc ?_)
      simp only [mailPerform, updateStatus, asked_async, asked_done, asked_res]
      cases s.part.mgmt.async <;> rfl
    case confirms =>
      refine onPart_of_eq (mailSend_host hready (by decide) hc (updateConfirm_trial c _ ?_ ((asked_nor c 0x25 [] s.part).trans hnor)))
      rw [asked_dir]
      exact htrial
    case abort => exact onPart_of_eq (mailSend_host hready (by decide) hc rfl)
  case configRead =>
    have hbyte : leAt [BitVec.ofNat 8 k] 0 1 = k := leAt_singleton k (by omega)
    refine onPart_of_eq (mailSend_replies hready (by norm_num) (by simp) (opListed_all (by decide) c _) (by norm_num) rfl ?_ ?_)
    · simpa [payloadOk, hbyte] using hk
    · refine (configRead_usable _ _ ((asked_nor c 0x30 _ s.part).trans hnor)).trans ?_
      rw [hbyte, asked_rec]
  case configWrite =>
    refine onPart_of_eq (mailSend_replies hready (by norm_num) (by omega) (opListed_all (by decide) c _) (by norm_num)
      (by simp [lengthOk, hlen]) rfl ?_)
    exact configWrite_good c pl _ ((asked_norSession c 0x31 pl s.part).trans hidle) hcrc hrecord ((asked_nor c 0x31 pl s.part).trans hnor)
  case daybook =>
    exact onPart_of_eq (mailSend_replies hready (by norm_num) (by omega) (opListed_all (by decide) c _) (by norm_num)
      (by simp [lengthOk, hlen]) (by simp [payloadOk, hfirst, hlast]) rfl)
  case cold =>
    exact onPart_of_eq (mailSend_plain hready (by norm_num) (by norm_num) (opListed_all (by decide) c _) rfl rfl rfl)

end Sys2Proof.Machine

/-!
PROOFS. The steps that write the boot NOR, and the obligation O54.
-/

namespace Sys2Proof.Machine

/-- The part as the oldest step `a` leaves it, with the RESULT of the step and what the step made of the part (R485, R492). -/
def norStepOver (a : AsyncStep) (rest : List AsyncStep) (rp : Nat × Part) : Part :=
  raiseVector a.chan 1 (onMail a.chan (fun x => { x with norDone := true })
    (onManagement (fun m => { m with async := rest, asyncDone := true, asyncResult := rp.1 }) rp.2))

theorem norStepEnds_over {p : Part} {a : AsyncStep} {rest : List AsyncStep} (ha : p.mgmt.async = a :: rest)
    (hpow : p.cur.power ≠ .off) (hchan : a.chan < 3) :
    norStepEnds p = norStepOver a rest (if norUsable p then asyncEffect a p else (8, p)) := by
  rw [norStepEnds, ha]
  exact (if_neg hpow).trans (if_neg (Nat.not_le.mpr hchan))

theorem asyncEffect_erase {a : AsyncStep} {p : Part} {u : UpdateSession} (hop : a.op = 0x20) (hu : p.mgmt.session = some u) :
    asyncEffect a p = (0, count 1 0 2 (ceilDiv u.len 65536) (onManagement (eraseSlot (updateSlot p) u.len) p)) := by
  simp only [asyncEffect, hop, hu, Option.map_some, Option.getD_some]

theorem asyncEffect_program {a : AsyncStep} {p : Part} (hop : a.op = 0x21) :
    asyncEffect a p = (0, onManagement (fun m => { m with session := m.session.map fun u => { u with next := u.next + a.bytes.length } })
      (onManagement (programSlot (updateSlot p) a.offset a.bytes) p)) := by
  simp only [asyncEffect, hop]

theorem asyncEffect_verify {a : AsyncStep} {p : Part} (hop : a.op = 0x22) :
    asyncEffect a p = if imageOk p.cur (imageBytes (updateSlot p) p.mgmt) then
      (0, onManagement (fun m => { m with session := m.session.map fun u => { u with verified := true } }) p) else (6, p) := by
  simp only [asyncEffect, hop]

theorem asyncEffect_activate {a : AsyncStep} {p : Part} (hop : a.op = 0x23) :
    asyncEffect a p = (0, onManagement (fun m =>
      { writeDirectory (fun d => { d with active := updateSlot p, trial := 1 }) m with session := none }) p) := by
  simp only [asyncEffect, hop]

theorem asyncEffect_confirm {a : AsyncStep} {p : Part} (hop : a.op = 0x25) : asyncEffect a p = (0, confirmImage p) := by
  simp only [asyncEffect, hop]

theorem asyncEffect_record {a : AsyncStep} {p : Part} (hop : a.op = 0x31) :
    asyncEffect a p = (0, onManagement (writeDirectory fun d => { d with record := 1 - (directory p.mgmt).record % 2 })
      (onManagement (fun m => { m with records := lset m.records (1 - (directory p.mgmt).record % 2) a.bytes })
        (count 1 0 2 1 p))) := by
  simp only [asyncEffect, hop]

/-- Settles O54: the oldest step, by the kind of step that it is. -/
theorem norStepsEnd : Obligations.NorStepsEnd := by
  intro s a rest ha hpow hchan ended p
  have ends {rp : Nat × Part} (h : (if norUsable p then asyncEffect a p else (8, p)) = rp) :
      exec .norStepEnd s = .next (settled s (norStepOver a rest rp)) :=
    onPart_of_eq ((norStepEnds_over ha hpow hchan).trans (congrArg (norStepOver a rest) h))
  refine ⟨fun hn => (ends (if_neg (by simp [hn]) : (if norUsable p then asyncEffect a p else (8, p)) = (8, p)) :), fun hn => ?_⟩
  have ran {rp : Nat × Part} (h : asyncEffect a p = rp) : exec .norStepEnd s = .next (settled s (norStepOver a rest rp)) :=
    ends ((if_pos hn).trans h)
  refine ⟨fun u hop hu => (ran (asyncEffect_erase hop hu) :), fun hop => (ran (asyncEffect_program hop) :), fun hop => ?_,
    fun hop => (ran (asyncEffect_activate hop) :), fun hop => (ran (asyncEffect_confirm hop) :),
    fun hop => (ran (asyncEffect_record hop) :)⟩
  have h := ran (asyncEffect_verify hop)
  by_cases hok : imageOk p.cur (imageBytes (updateSlot p) p.mgmt)
  · rw [if_pos hok] at h ⊢
    exact h
  · rw [if_neg hok] at h ⊢
    exact h

end Sys2Proof.Machine

/-!
PROOFS. Attestation (R482 to R484), and the obligation O55.
-/

namespace Sys2Proof.Machine

/-- A request written with a code has that code. -/
theorem leAt_withCode (code : Nat) (req : List Byte) (h : code < 256) : leAt (withCode code req) 1 1 = code :=
  leAt_patchBytes _ 1 1 code (by simp; omega) h

section
variable {c : Nat} {req : List Byte} {p : Part}

/-- A request that arrives where the responder can be reached is counted; which part the rest leaves is the matter of its code. -/
theorem spdmRequest_open (h : spdmOpen c p = true) :
    spdmRequest c req p =
      let q := count 1 0 1 1 p
      let code := leAt req 1 1
      if code = spVersion then spdmVersion c req q
      else if code = spCaps then spdmCaps c req q
      else if code = spAlgorithms then spdmAlgorithms c req q
      else if code = spDigests then spdmDigests c req q
      else if code = spCertificate then spdmCertificate c req q
      else if code = spChallenge then spdmChallenge c req q
      else if code = spMeasurements then spdmMeasurements c req q
      else spAnswer c id (spUnsupported req) q :=
  if_neg (by simp [h])

theorem spdmRequest_version (h : spdmOpen c p = true) :
    spdmRequest c (withCode spVersion req) p = spdmVersion c (withCode spVersion req) (count 1 0 1 1 p) := by
  rw [spdmRequest_open h, leAt_withCode _ _ (by decide)]; rfl

theorem spdmRequest_caps (h : spdmOpen c p = true) :
    spdmRequest c (withCode spCaps req) p = spdmCaps c (withCode spCaps req) (count 1 0 1 1 p) := by
  rw [spdmRequest_open h, leAt_withCode _ _ (by decide)]; rfl

theorem spdmRequest_algorithms (h : spdmOpen c p = true) :
    spdmRequest c (withCode spAlgorithms req) p = spdmAlgorithms c (withCode spAlgorithms req) (count 1 0 1 1 p) := by
  rw [spdmRequest_open h, leAt_withCode _ _ (by decide)]; rfl

theorem spdmRequest_digests (h : spdmOpen c p = true) :
    spdmRequest c (withCode spDigests req) p = spdmDigests c (withCode spDigests req) (count 1 0 1 1 p) := by
  rw [spdmRequest_open h, leAt_withCode _ _ (by decide)]; rfl

theorem spdmRequest_certificate (h : spdmOpen c p = true) :
    spdmRequest c (withCode spCertificate req) p = spdmCertificate c (withCode spCertificate req) (count 1 0 1 1 p) := by
  rw [spdmRequest_open h, leAt_withCode _ _ (by decide)]; rfl

theorem spdmRequest_challenge (h : spdmOpen c p = true) :
    spdmRequest c (withCode spChallenge req) p = spdmChallenge c (withCode spChallenge req) (count 1 0 1 1 p) := by
  rw [spdmRequest_open h, leAt_withCode _ _ (by decide)]; rfl

theorem spdmRequest_measurements (h : spdmOpen c p = true) :
    spdmRequest c (withCode spMeasurements req) p = spdmMeasurements c (withCode spMeasurements req) (count 1 0 1 1 p) := by
  rw [spdmRequest_open h, leAt_withCode _ _ (by decide)]; rfl

/-- A request of any other code is answered ERROR UnsupportedRequest. -/
theorem spdmRequest_unsupported (h : spdmOpen c p = true)
    (hcode : ¬ leAt req 1 1 ∈ [spVersion, spCaps, spAlgorithms, spDigests, spCertificate, spChallenge, spMeasurements]) :
    spdmRequest c req p = spAnswer c id (spUnsupported req) (count 1 0 1 1 p) := by
  simp only [List.mem_cons, List.not_mem_nil, or_false, not_or] at hcode
  obtain ⟨hversion, hcaps, halg, hdigests, hcert, hchallenge, hmeas⟩ := hcode
  rw [spdmRequest_open h]
  simp only [if_neg, hversion, hcaps, halg, hdigests, hcert, hchallenge, hmeas, not_false_eq_true]

theorem spdmCaps_answers (h : (spdmAt c p).version = true) :
    spdmCaps c req p = spAnswer c (fun x => { x with caps := true, vca := x.vca ++ req ++ capsAnswer }) capsAnswer p :=
  if_neg (by simp [h])

theorem spdmAlgorithms_answers (h : (spdmAt c p).caps = true) (hoffer : offersBoth req = true) :
    spdmAlgorithms c req p =
      spAnswer c (fun x => { x with algorithms := true, vca := x.vca ++ req ++ algAnswer }) algAnswer p :=
  (if_neg (by simp [h])).trans (if_neg (by simp [hoffer]))

theorem spdmDigests_answers (h : (spdmAt c p).algorithms = true) :
    spdmDigests c req p = spAnswer c (fun x => { x with certs := x.certs ++ req ++ digestsAnswer p }) (digestsAnswer p) p :=
  if_neg (by simp [h])

theorem spdmCertificate_answers (h : (spdmAt c p).algorithms = true) :
    spdmCertificate c req p =
      spAnswer c (fun x => { x with certs := x.certs ++ req ++ certAnswer req p }) (certAnswer req p) p :=
  if_neg (by simp [h])

theorem spdmChallenge_answers (h : (spdmAt c p).algorithms = true) (hslot : leAt req 2 1 % 16 = 0) :
    spdmChallenge c req p =
      let x := spdmAt c p
      let body := challengeBody req (nonceBytes (drawFree p).1) (drawFree p).2
      spAnswer c (fun y => { y with certs := [] })
        (body ++ spSign "responder-challenge_auth signing" (x.vca ++ x.certs ++ req ++ body)) (drawFree p).2 :=
  (if_neg (by simp [h])).trans (if_neg (by simp [hslot]))

/-- The operations of GET_MEASUREMENTS: all, none but their number, or one that there is. -/
theorem spdmMeasurements_answers (h : (spdmAt c p).algorithms = true)
    (hop : leAt req 3 1 = 0 ∨ leAt req 3 1 = 0xFF ∨ leAt req 3 1 ∈ measureIndices p) :
    spdmMeasurements c req p =
      let x := spdmAt c p
      let body := measureBody req (nonceBytes (drawFree p).1) (drawFree p).2
      if bitAt (leAt req 2 1) 0 then
        spAnswer c (fun y => { y with meas := [] })
          (body ++ spSign "responder-measurements signing" (x.vca ++ x.meas ++ req ++ body)) (drawFree p).2
      else spAnswer c (fun y => { y with meas := y.meas ++ req ++ body }) body (drawFree p).2 :=
  (if_neg (by simp [h])).trans (if_neg (by simpa [Classical.or_iff_not_imp_left] using hop))

end

/-- Settles O55: one clause for each code. -/
theorem spdmRequestsAreAnswered : Obligations.SpdmRequestsAreAnswered := by
  intro s c req hopen p x
  refine ⟨onPart_of_eq (spdmRequest_version hopen), fun hv => onPart_of_eq ((spdmRequest_caps hopen).trans (spdmCaps_answers hv)),
    fun hc hoffer => onPart_of_eq ((spdmRequest_algorithms hopen).trans (spdmAlgorithms_answers hc hoffer)),
    fun ha => ⟨onPart_of_eq ((spdmRequest_digests hopen).trans (spdmDigests_answers ha)),
      onPart_of_eq ((spdmRequest_certificate hopen).trans (spdmCertificate_answers ha)), ?challenge, ?measurements⟩,
    fun hcode => onPart_of_eq (spdmRequest_unsupported hopen hcode)⟩
  case challenge =>
    intro r body hslot
    exact onPart_of_eq ((spdmRequest_challenge hopen).trans (spdmChallenge_answers ha hslot))
  case measurements =>
    intro r body hop
    have h := (spdmRequest_measurements hopen).trans (spdmMeasurements_answers ha hop)
    exact ⟨fun hsign => onPart_of_eq (h.trans (if_pos hsign)),
      fun hsign => onPart_of_eq (h.trans (if_neg (by rw [hsign]; exact Bool.false_ne_true)))⟩

end Sys2Proof.Machine

/-!
PROOFS. The host's and the cores' ways into the pool (R489, R498 to R500), and the obligation O56.
-/

namespace Sys2Proof.Machine

section
variable {hp offset : Nat} {p : Part}

theorem hostTurnsAway_not (hpool : poolOpen p = true) (hdrain : (host hp p).draining = false)
    (hvalid : wnValid (hostEntry hp offset p) = true) : hostTurnsAway hp offset p = false := by
  simp [hostTurnsAway, hpool, hdrain, hvalid]

theorem poolRead_reads {n : Nat} (hopen : windowOpen hp p = true) (hin : inFourKib offset n = true)
    (hturn : hostTurnsAway hp offset p = false) :
    poolRead hp offset n p =
      windowRead (hostAgent hp) (hostGallery hp p) (hostEntry hp offset p) (wnAddr (hostEntry hp offset p) offset) n p :=
  (if_neg (by simp [hopen, hin])).trans (if_neg (by simp [hturn]))

theorem poolRead_turnedAway {n : Nat} (hopen : windowOpen hp p = true) (hin : inFourKib offset n = true)
    (hturn : hostTurnsAway hp offset p = true) : poolRead hp offset n p = unsupportedRequest hp p :=
  (if_neg (by simp [hopen, hin])).trans (if_pos hturn)

theorem poolWrite_writes {data : List Byte} {en : List Bool} (hopen : windowOpen hp p = true)
    (hin : inFourKib offset data.length = true) (hturn : hostTurnsAway hp offset p = false) :
    poolWrite hp offset data en p =
      windowStores (hostAgent hp) (hostGallery hp p) (hostEntry hp offset p) 33 (wnAddr (hostEntry hp offset p) offset)
        (data.mapIdx fun i b => if en.getD i false then some b else none) p :=
  (if_neg (by simp [hopen, hin])).trans (if_neg (by simp [hturn]))

/-- FetchAdd and CAS of 4 or 8 aligned bytes are performed. -/
theorem poolAtomic_performs {k width : Nat} {data : List Byte} (hopen : windowOpen hp p = true)
    (hkind : k = 0 ∧ width = data.length ∨ k = 2 ∧ width = data.length / 2) (hwidth : width = 4 ∨ width = 8)
    (halign : offset % width = 0) (hin : inFourKib offset width = true) (hturn : hostTurnsAway hp offset p = false) :
    poolAtomic hp k offset data p =
      windowAtomic (hostAgent hp) (hostGallery hp p) (hostEntry hp offset p) (k = 2) (wnAddr (hostEntry hp offset p) offset)
        width data p := by
  have hw : (if k = 2 then data.length / 2 else data.length) = width := by split <;> omega
  have hmem : width ∈ [4, 8, 16] := by rcases hwidth with rfl | rfl <;> decide
  rw [poolAtomic, hw]
  refine (if_neg (by simp [hopen, hmem, halign, hin])).trans (if_neg ?_)
  simp only [hturn, Bool.false_or, Bool.or_eq_true, decide_eq_true_eq]
  omega

/-- A Swap of 16 bytes is turned away. -/
theorem poolAtomic_swap {data : List Byte} (hopen : windowOpen hp p = true) (halign : offset % 16 = 0)
    (hin : inFourKib offset 16 = true) (hlen : data.length = 16) : poolAtomic hp 1 offset data p = unsupportedRequest hp p := by
  simp only [poolAtomic, Nat.reduceEqDiff, if_false, hlen]
  exact (if_neg (by simp [hopen, halign, hin])).trans (if_pos (by simp))

end

section
variable {offset : Nat} {data : List Byte} {p : Part}

theorem accessOk_loadStore {k : CoreAccess} (hk : k = .load ∨ k = .store) (hpos : 0 < data.length)
    (hline : offset % 128 + data.length ≤ 128) : accessOk k offset data = true := by
  rcases hk with rfl | rfl <;> simp [accessOk, accessWidth, hline] <;> omega

theorem accessOk_add (hpos : 0 < data.length) (hline : offset % 128 + data.length ≤ 128)
    (hwidth : data.length = 4 ∨ data.length = 8) (halign : offset % data.length = 0) : accessOk .add offset data = true := by
  simp [accessOk, accessWidth, hline, halign, hwidth]
  omega

theorem corePoolAccess_fence (hrun : coresRun p = true) : corePoolAccess .fence offset data p = coreFence p :=
  (if_neg (by simp [hrun, accessOk])).trans (if_pos rfl)

/-- An access to the working region is made there. -/
theorem corePoolAccess_region {k : CoreAccess} (hrun : coresRun p = true) (hok : accessOk k (2 ^ 36 + offset) data = true)
    (hk : k ≠ .fence) (hoff : offset < 2 ^ 36) : corePoolAccess k (2 ^ 36 + offset) data p = coreRegion k offset data p := by
  rw [corePoolAccess, if_neg (by rw [hrun, hok]; decide), if_neg hk, if_pos (by simp; omega),
    (by omega : 2 ^ 36 + offset - 0x0010_0000_0000 = offset)]

/-- An access to the pool window is made at its offset there. -/
theorem corePoolAccess_window {k : CoreAccess} (hrun : coresRun p = true) (hok : accessOk k (2 ^ 40 + offset) data = true)
    (hk : k ≠ .fence) (hoff : offset < 2 ^ 40) : corePoolAccess k (2 ^ 40 + offset) data p = coreWindow k offset data p := by
  rw [corePoolAccess, if_neg (by rw [hrun, hok]; decide), if_neg hk, if_neg (by simp; omega), if_neg (by simp; omega),
    if_neg (by simp; omega), if_pos (by simp; omega),
    (by omega : 2 ^ 40 + offset - 0x0100_0000_0000 = offset)]

theorem coreWindow_uncached {k : CoreAccess} (hvalid : wnValid (apcWord (offset / 2 ^ 28 % 4096) 0 p) = true)
    (hcache : bitAt (apcWord (offset / 2 ^ 28 % 4096) 1 p) 3 = false) :
    coreWindow k offset data p =
      coreUncached k (field (apcWord (offset / 2 ^ 28 % 4096) 1 p) 2 0) (apcWord (offset / 2 ^ 28 % 4096) 0 p)
        (wnAddr (apcWord (offset / 2 ^ 28 % 4096) 0 p) offset) data p :=
  (if_neg (by rw [hvalid]; decide)).trans (if_pos (by rw [hcache]; decide))

theorem coreWindow_cached {k : CoreAccess} (hk : k ≠ .writeBack)
    (hvalid : wnValid (apcWord (offset / 2 ^ 28 % 4096) 0 p) = true)
    (hcache : bitAt (apcWord (offset / 2 ^ 28 % 4096) 1 p) 3 = true) :
    coreWindow k offset data p =
      let w := apcWord (offset / 2 ^ 28 % 4096) 0 p
      let w1 := apcWord (offset / 2 ^ 28 % 4096) 1 p
      coreTry { tag := 0, op := 0, line := wnAddr w offset / 128, catalogue := coreCatalogue (wnAddr w offset) p,
                gallery := field w1 2 0, epoch := wnEpoch w, handle := wnHandle w, kind := k,
                offset := wnAddr w offset % 128, data := data } p :=
  (if_neg (by rw [hvalid]; decide)).trans ((if_neg (by rw [hcache]; decide)).trans (if_neg hk))

theorem coreWindow_writeBack (hvalid : wnValid (apcWord (offset / 2 ^ 28 % 4096) 0 p) = true)
    (hcache : bitAt (apcWord (offset / 2 ^ 28 % 4096) 1 p) 3 = true) :
    coreWindow .writeBack offset data p = coreWriteBack (wnAddr (apcWord (offset / 2 ^ 28 % 4096) 0 p) offset / 128) p :=
  (if_neg (by rw [hvalid]; decide)).trans ((if_neg (by rw [hcache]; decide)).trans (if_pos rfl))

end

/-- The part as it has recorded and raised an uncorrectable error of the cores' caches (R500, R504). -/
def cacheErrorNoted (unit line : Nat) (dirty : Bool) (p : Part) : Part :=
  raiseCore 63 (count 18 0 64 1 (onManagement (fun m =>
    { m with apcError := BitVec.ofNat 64 (line * 128 % 2 ^ 58 + bitOf dirty * 2 ^ 58 + unit * 2 ^ 59) }) p))

section
variable {unit line : Nat} {p : Part}

/-- What follows the record of the error depends on whether the caches hold the line. -/
theorem coreCacheUe_noted (d : Bool) (hon : p.mgmt.coresOn = true) (hlow : 1 ≤ unit) (hhigh : unit ≤ 17) :
    coreCacheUe unit line d p =
      match coreLine line (cacheErrorNoted unit line d p) with
      | none => if d then corePoison line none (cacheErrorNoted unit line d p) else cacheErrorNoted unit line d p
      | some x =>
        if d then corePoison line (some x) (cacheErrorNoted unit line d p)
        else
          coreTry
            { tag := 0, op := 0, line := line, catalogue := x.catalogue, gallery := x.gallery, epoch := x.epoch, handle := x.handle,
              kind := .load, offset := 0, data := [] } (dropCoreLine line (cacheErrorNoted unit line d p)) :=
  if_neg (by simp [hon]; omega)

theorem coreCacheUe_notHeld (d : Bool) (hon : p.mgmt.coresOn = true) (hlow : 1 ≤ unit) (hhigh : unit ≤ 17)
    (hline : coreLine line (cacheErrorNoted unit line d p) = none) :
    coreCacheUe unit line d p =
      if d then corePoison line none (cacheErrorNoted unit line d p) else cacheErrorNoted unit line d p := by
  rw [coreCacheUe_noted d hon hlow hhigh, hline]

theorem coreCacheUe_dirty {x : CoreLine} (hon : p.mgmt.coresOn = true) (hlow : 1 ≤ unit) (hhigh : unit ≤ 17)
    (hline : coreLine line (cacheErrorNoted unit line true p) = some x) :
    coreCacheUe unit line true p = corePoison line (some x) (cacheErrorNoted unit line true p) := by
  rw [coreCacheUe_noted true hon hlow hhigh, hline]
  exact if_pos rfl

/-- A clean line that is held is fetched again. -/
theorem coreCacheUe_clean {x : CoreLine} (hon : p.mgmt.coresOn = true) (hlow : 1 ≤ unit) (hhigh : unit ≤ 17)
    (hline : coreLine line (cacheErrorNoted unit line false p) = some x) :
    coreCacheUe unit line false p =
      coreTry
        { tag := 0, op := 0, line := line, catalogue := x.catalogue, gallery := x.gallery, epoch := x.epoch, handle := x.handle,
          kind := .load, offset := 0, data := [] } (dropCoreLine line (cacheErrorNoted unit line false p)) := by
  rw [coreCacheUe_noted false hon hlow hhigh, hline]
  exact if_neg Bool.false_ne_true

end

/-- Settles O56: function 1 of a host port, the cores' accesses by where they go, and the errors of their caches. -/
theorem windowsReachThePool : Obligations.WindowsReachThePool := by
  intro s hp offset p
  refine ⟨?hostAccess, fun hopen halign hin data hlen => onPart_of_eq (poolAtomic_swap hopen halign hin hlen),
    fun hopen hturn n hin => onPart_of_eq (poolRead_turnedAway hopen hin hturn), ?coreAccess, ?cacheErrors⟩
  case hostAccess =>
    intro hopen hpool hdrain hvalid w
    have hturn := hostTurnsAway_not hpool hdrain hvalid
    exact ⟨fun n hin => onPart_of_eq (poolRead_reads hopen hin hturn),
      fun data en hin => onPart_of_eq (poolWrite_writes hopen hin hturn),
      fun k width data hkind hwidth halign hin =>
        onPart_of_eq (poolAtomic_performs hopen hkind hwidth halign hin hturn)⟩
  case coreAccess =>
    intro hrun
    refine ⟨onPart_of_eq (corePoolAccess_fence hrun), fun data hpos hline => ⟨?region, ?window⟩⟩
    case region =>
      intro hoff k hk
      have hok : accessOk k (2 ^ 36 + offset) data = true := accessOk_loadStore hk hpos (by omega)
      exact onPart_of_eq (corePoolAccess_region hrun hok (by rcases hk with rfl | rfl <;> simp) hoff)
    case window =>
      intro w w1 at_ hoff hvalid
      have hline' : (2 ^ 40 + offset) % 128 + data.length ≤ 128 := by omega
      have reach {k : CoreAccess} {q : Part} (hok : accessOk k (2 ^ 40 + offset) data = true) (hk : k ≠ .fence)
          (h : coreWindow k offset data p = q) : exec (.corePoolAccess k at_ data) s = .next (settled s q) :=
        onPart_of_eq ((corePoolAccess_window hrun hok hk hoff).trans h)
      refine ⟨fun hcache => ⟨?_, ?_, fun hwidth halign => ?_⟩, fun hcache => ⟨fun k hk => ?_, ?_⟩⟩
      · exact reach (accessOk_loadStore (.inl rfl) hpos hline') (by simp) (coreWindow_uncached hvalid hcache)
      · exact reach (accessOk_loadStore (.inr rfl) hpos hline') (by simp) (coreWindow_uncached hvalid hcache)
      · have halign' : (2 ^ 40 + offset) % data.length = 0 := by rcases hwidth with h | h <;> rw [h] at halign ⊢ <;> omega
        exact reach (accessOk_add hpos hline' hwidth halign') (by simp) (coreWindow_uncached hvalid hcache)
      · exact reach (accessOk_loadStore hk hpos hline') (by rcases hk with rfl | rfl <;> simp)
          (coreWindow_cached (by rcases hk with rfl | rfl <;> simp) hvalid hcache)
      · exact reach (by simp [accessOk]) (by simp) (coreWindow_writeBack hvalid hcache)
  case cacheErrors =>
    intro hon unit line hlow hhigh q
    exact ⟨fun d hline => onPart_of_eq (coreCacheUe_notHeld d hon hlow hhigh hline),
      fun x hline => onPart_of_eq (coreCacheUe_dirty hon hlow hhigh hline),
      fun x hline => onPart_of_eq (coreCacheUe_clean hon hlow hhigh hline)⟩

end Sys2Proof.Machine

/-!
PROOFS. The board's rails, clocks and resets (R545, R547, R550 to R553), and the obligations O57 and O60.
-/

namespace Sys2Proof.Machine

/-- The blocks as the core die goes dark, before the part's own state follows (R545). -/
def blocksDarkened (p : Part) : Part :=
  onGalleries (fun b => { b with vitrine := p.gals.vitrine, fromRecord := p.gals.fromRecord })
    (coldBlocks (darkManagement p.mgmt).record (drivesSeen (onManagement darkManagement p)) (onManagement darkManagement p))

section
variable {p : Part}

/-- Part loss of a running core die. -/
theorem coreDown_runs {cause : Nat} (hon : p.cur.power = .coreOn) :
    coreDown cause p = note 255 3 none .partLoss [cause] (onCurator (fun c =>
      { c with
        power := .islandOnly, phase := 13, haltCause := cause, fastPending := false, waitVin := false }) (blocksDarkened p)) :=
  if_neg (not_not_intro hon)

theorem coreDown_off {cause : Nat} (hon : p.cur.power ≠ .coreOn) : coreDown cause p = p := if_pos hon

theorem vinHigh_runs {mv : Nat} (hhigh : 62000 < mv) (hon : p.cur.power = .coreOn) :
    vinHigh mv p = note 255 3 none .partLoss [0x11] (onCurator (fun c =>
      { c with
        power := .islandOnly, phase := 13, haltCause := 0x11, fastPending := false, waitVin := false }) (blocksDarkened p)) :=
  (if_pos hhigh).trans (coreDown_runs hon)

theorem vinHigh_nothing {mv : Nat} (h : mv ≤ 62000 ∨ p.cur.power ≠ .coreOn) : vinHigh mv p = p := by
  by_cases hhigh : 62000 < mv
  · exact (if_pos hhigh).trans (coreDown_off (h.resolve_left (by omega)))
  · exact if_neg hhigh

theorem pwrgdRise_rises (env : BootEnv) (hpow : p.cur.power ≠ .off) (hlow : p.cur.pwrgd = false) :
    pwrgdRise env p =
      let q := onCurator (fun c => { c with pwrgd := true }) p
      if env.resetN then coldBoot env q else q :=
  if_neg (by simp [hpow, hlow])

theorem resetPulse_boots (env : BootEnv) (hpow : p.cur.power ≠ .off) (hgood : p.cur.pwrgd = true) :
    resetPulse env p = coldBoot env p :=
  if_pos (by simp [hpow, hgood])

theorem pwrgdFall_falls (hpow : p.cur.power ≠ .off) (hgood : p.cur.pwrgd = true) :
    pwrgdFall p =
      let q := onCurator (fun c => { c with pwrgd := false }) p
      let q := if p.cur.power = .coreOn then coreDown 0x13 q
        else onCurator (fun c => { c with waitVin := false, phase := if c.phase = 4 then 0 else c.phase }) q
      flushDaybook (fun e => decide (2 ≤ e.severity)) q :=
  if_neg (by simp [hpow, hgood])

theorem aonLoss_lost (hpow : p.cur.power ≠ .off) (hclk : p.cur.aonExternal = true) :
    aonLoss p = note 255 1 none .clockLost [0, 0] (onCurator (fun c => { c with aonExternal := false }) p) :=
  if_neg (by simp [hpow, hclk])

/-- A chiplet's reference lost takes each of its ports down by the state of its link. -/
theorem sdsLoss_lost {n : Nat} (hon : p.cur.power = .coreOn) (hn : n < 4) :
    sdsLoss n p = note 255 1 none .clockLost [1, n]
      (((List.range 64).map fun i => 64 * n + i).foldl (fun q k =>
        if (lport k q).link = .down then q
        else if (lport k q).link = .active then portGoesDown k .portDown true q else bringUpFails k .train q) p) := by
  have hstep (q : Part) (k : Nat) :
      (match (lport k q).link with
        | .down => q
        | .active => portGoesDown k .portDown true q
        | _ => bringUpFails k .train q) =
      if (lport k q).link = .down then q
      else if (lport k q).link = .active then portGoesDown k .portDown true q else bringUpFails k .train q := by
    cases (lport k q).link <;> rfl
  refine (if_neg (by simp [hon, hn])).trans ?_
  exact congrArg (fun f => note 255 1 none .clockLost [1, n] (((List.range 64).map fun i => 64 * n + i).foldl f p))
    (funext fun q => funext fun k => hstep q k)

theorem vinReaches_boots (env : BootEnv) (hisland : p.cur.power = .islandOnly) (hgood : p.cur.pwrgd = true)
    (hwait : p.cur.waitVin = true) : vinReaches env p = coldBoot { env with vin48 := max env.vin48 39000 } p :=
  if_pos (by simp [hisland, hgood, hwait])

theorem pllRetries_goesOn (env : BootEnv) (hisland : p.cur.power = .islandOnly) (hgood : p.cur.pwrgd = true)
    (hphase : p.cur.phase = 4) : pllRetries env p = bootStep5 env p :=
  if_pos (by simp [hisland, hgood, hphase])

/-- A host port's reference lost is a link-down of the port, which resets the functions of a part that runs. -/
theorem hostClockLost_lost {n : Nat} (hn : n < 2) :
    hostClockLost n p = onHost n (fun h => { h with refclk := false, link := false })
      (if p.cur.power = .coreOn then function0Reset n (functionReset n p) else p) := by
  refine (if_neg (Nat.not_le.mpr hn)).trans ?_
  by_cases hon : p.cur.power = .coreOn
  · rw [hostPortReset_link n p hn hon 2 (.inr rfl), if_pos hon]
  · rw [if_neg hon, hostPortReset, if_pos (by simp [hon])]

end

/-- Settles O57: the rails, the clocks and the resets, each in the power state in which it acts. -/
theorem boardEventsAct : Obligations.BoardEventsAct := by
  intro s env n p dark
  refine ⟨fun hoff => onPart_of_eq (if_neg (not_not_intro hoff)), fun hpow => ?powered, fun hon => ?running,
    fun hisland hgood => ⟨fun hwait => onPart_of_eq (vinReaches_boots env hisland hgood hwait),
      fun hphase => onPart_of_eq (pllRetries_goesOn env hisland hgood hphase)⟩,
    onPart_of_eq rfl, onPart_of_eq rfl, onPart_of_eq rfl,
    fun hn => ⟨onPart_of_eq (hostClockLost_lost hn), onPart_of_eq (if_neg (Nat.not_le.mpr hn))⟩⟩
  case powered =>
    exact ⟨fun hlow => onPart_of_eq (pwrgdRise_rises env hpow hlow),
      fun hgood => ⟨onPart_of_eq (resetPulse_boots env hpow hgood), onPart_of_eq (pwrgdFall_falls hpow hgood)⟩,
      fun hclk => onPart_of_eq (aonLoss_lost hpow hclk), onPart_of_eq (if_neg hpow), onPart_of_eq (if_neg hpow)⟩
  case running =>
    refine ⟨onPart_of_eq (coreDown_runs hon), fun hhigh hrated => ?_, fun hn => onPart_of_eq (sdsLoss_lost hon hn)⟩
    exact (exec_vinOvervoltage_endured n s fun h => Nat.not_lt.mpr hrated h.1).trans
      (congrArg (fun q => Host.Outcome.next (settled s q)) (vinHigh_runs hhigh hon))

/-- Settles O60: within the transient rating or without power the command completes, and stops a core die that runs. -/
theorem overvoltageStopsTheCoreDie : Obligations.OvervoltageStopsTheCoreDie := by
  intro s mv hrated
  have hexec := exec_vinOvervoltage_endured mv s fun ⟨hbeyond, hpow⟩ => hrated.elim (Nat.not_le.mpr hbeyond) hpow
  exact ⟨fun hhigh hon => hexec.trans (congrArg (fun q => Host.Outcome.next (settled s q)) (vinHigh_runs hhigh hon)),
    fun h => hexec.trans (congrArg (fun q => Host.Outcome.next (settled s q)) (vinHigh_nothing h))⟩

end Sys2Proof.Machine

/-!
PROOFS. Resets of the island and of the core die (R319, R403, R415, R460, R469, R482, R493, R496), and the obligation O58.
-/

namespace Sys2Proof.Machine

section
variable {p : Part}

/-- An error of the island with the power on begins a cold boot, but for a core die that part loss keeps off (R469, R545). -/
theorem islandError_powered (cause : Nat) (env : BootEnv) (hpow : p.cur.power ≠ .off) :
    islandError cause env p =
      let q := onCurator (fun c => { c with latchedCause := cause }) p
      if p.cur.pwrgd = true ∧ ¬ (p.cur.power = .islandOnly ∧ p.cur.phase = 13) then coldBoot env q
      else onManagement (fun m => { m with daybook := [], debugSeen := false, extends7 := [] }) q := by
  refine (if_neg hpow).trans (if_congr ?_ rfl rfl)
  rw [onCurator_cur, Bool.and_eq_true, Bool.not_eq_true', ← Bool.not_eq_true, Bool.and_eq_true, decide_eq_true_iff,
    decide_eq_true_iff]

theorem mayReset_iff : mayReset p = true ↔ p.cur.power = .coreOn ∧ p.cur.fastPending = false := by
  simp [mayReset]

theorem heartbeatLost_resets (clock : Bool) (h : mayReset p = true) :
    heartbeatLost clock p = fastReset 3 (onCurator (fun c => { c with coreRefclk := clock }) p) :=
  if_pos h

theorem internalUe_cellMetadata (h : mayReset p = true) : internalUe .cellMetadata p = fastReset 1 (loseWaiting p) := if_pos h

theorem internalUe_retention_outside (table : SpineTable) (h : p.cur.fastPending = false) :
    internalUe (.retention table) p = fastReset 1 p :=
  if_pos (by simp [h])

/-- A table that leaves retention bad, of a spine in its fast reset, is emptied. -/
theorem internalUe_retention_inside (table : SpineTable) (h : p.cur.fastPending = true) (hspine : isTray p = false) :
    internalUe (.retention table) p = emptyTable table p :=
  (if_neg (by simp [h])).trans (if_neg (by simp [hspine]))

theorem jtagInstruction_answered {code : Nat} (hpow : p.cur.power ≠ .off) (hcode : code < 2) :
    jtagInstruction code p = onManagement (fun m => { m with jtagLast := code }) p :=
  (if_neg hpow).trans (if_pos hcode)

/-- Any other instruction is noted, and answered outside Vitrine mode alone (R403). -/
theorem jtagInstruction_debug {code : Nat} (hpow : p.cur.power ≠ .off) (hcode : 2 ≤ code) :
    jtagInstruction code p =
      onManagement (fun m => { m with debugSeen := true, jtagLast := if p.gals.vitrine then m.jtagLast else code }) p := by
  refine (if_neg hpow).trans ((if_neg (Nat.not_lt.mpr hcode)).trans ?_)
  cases h : p.gals.vitrine <;> rfl

theorem thermalTrip_trips (hon : p.cur.power = .coreOn) (hhot : 420 ≤ p.power.tempMax) :
    thermalTrip p = coreDown 0x12 (note 255 3 none .thermal [p.power.tempMax] p) :=
  if_pos (by simp [hon, hhot])

end

/-- Settles O58: each reset and error in the power state in which it acts. -/
theorem islandEventsAct : Obligations.IslandEventsAct := by
  intro s env n p
  refine ⟨?island, ?resets,
    fun table hpending hspine => onPart_of_eq (internalUe_retention_inside table hpending hspine),
    fun port vc => onPart_of_eq rfl, fun hpending => onPart_of_eq (if_pos hpending), fun hrun => onPart_of_eq (if_pos hrun),
    fun hpending => onPart_of_eq (if_pos hpending),
    fun hpow => ⟨onPart_of_eq (if_neg hpow), fun hcode => onPart_of_eq (jtagInstruction_answered hpow hcode),
      fun hcode => onPart_of_eq (jtagInstruction_debug hpow hcode)⟩,
    fun hon hhot => onPart_of_eq (thermalTrip_trips hon hhot)⟩
  case island =>
    intro cause hpow q after
    refine ⟨?_, ?_⟩ <;> rintro rfl <;> exact onPart_of_eq (islandError_powered _ env hpow)
  case resets =>
    intro hon hpending reset
    have hmay : mayReset p = true := mayReset_iff.mpr ⟨hon, hpending⟩
    refine ⟨fun clock => ?_, fun mem hmem => ?_, ?_⟩
    · exact onPart_of_eq ((heartbeatLost_resets clock hmay).trans
        (fastReset_allowed _ 3 (mayReset_iff.mpr ⟨hon, hpending⟩)))
    · rcases hmem with rfl | ⟨table, rfl⟩
      · exact onPart_of_eq (fastReset_allowed p 1 hmay)
      · exact onPart_of_eq ((internalUe_retention_outside table hpending).trans (fastReset_allowed p 1 hmay))
    · have hlost : mayReset (loseWaiting p) = true := by rw [mayReset, loseWaiting_cur]; exact hmay
      exact onPart_of_eq ((internalUe_cellMetadata hmay).trans (fastReset_allowed _ 1 hlost))

end Sys2Proof.Machine

/-!
PROOFS. Sampling, throttling and the work scheduler (R449 to R467), and the obligation O59.
-/

namespace Sys2Proof.Machine

section
variable {p : Part}

theorem sampleVin_power (mv : Nat) (p : Part) : (sampleVin mv p).cur.power = p.cur.power := by
  rw [sampleVin]
  split <;> simp

/-- The timer as a sample advances it, and every reading but those that heat what they read (R459, R460). -/
def sampleTaken (r : Sensors) (p : Part) : Part :=
  let q := onTelemetry (fun b =>
    { b with
      temps := (List.range 64).map (tempWord r)
      volts := (List.range 32).map fun n => r.volts.getD n 0 % 2 ^ 16 })
    (creditWait 1000 (onCurator (fun c => { c with timer := c.timer + 1000 }) p))
  sampleVin r.vin48 (onPower (fun b => { b with inputW := r.inputW % 2 ^ 11, draw := some (r.inputW * 100000) }) q)

theorem sampleTaken_power (r : Sensors) (p : Part) : (sampleTaken r p).cur.power = p.cur.power := by
  simp [sampleTaken, sampleVin_power]

theorem sensorSample_runs (r : Sensors) (hon : p.cur.power = .coreOn) :
    sensorSample r p = sampleHeat r (onDram (fun d => { d with waiting := [] }) (sampleModules r (sampleTaken r p))) := by
  refine (if_neg (by simp [hon])).trans ?_
  exact congrArg (fun q => sampleHeat r (onDram (fun d => { d with waiting := [] }) q))
    (if_pos ((sampleTaken_power r p).trans hon))

/-- The part at the next boundary, before the throttle level is looked at (R461). -/
def boundaryCome (p : Part) : Part :=
  let k := p.cur.boundaries + 1
  let next := max p.cur.timer (k * 100000)
  creditWait (next - p.cur.timer) (onCurator (fun c => { c with timer := next, boundaries := k }) p)

theorem throttleBoundary_runs (hon : p.cur.power = .coreOn) :
    throttleBoundary p =
      let new := nextLevel p.power.tempMax p.power.level
      if new = p.power.level then boundaryCome p
      else pwrEvent 1 0 new (setLevel new (p.cur.boundaries + 1) (boundaryCome p)) := by
  have hcur : (boundaryCome p).cur.power = .coreOn := by simp [boundaryCome, hon]
  have hpow : (boundaryCome p).power = p.power := by simp [boundaryCome]
  refine (if_neg (by simp [hon])).trans ((if_neg (not_not_intro hcur)).trans ?_)
  change (if nextLevel (boundaryCome p).power.tempMax (boundaryCome p).power.level = (boundaryCome p).power.level then _
    else pwrEvent 1 0 (nextLevel (boundaryCome p).power.tempMax (boundaryCome p).power.level)
      (setLevel (nextLevel (boundaryCome p).power.tempMax (boundaryCome p).power.level) _ _)) = _
  rw [hpow]
  rfl

/-- A fold over the sixteen classes that leaves out the two that the scheduler does not serve. -/
theorem foldl_servedClasses (f : Nat → Part → Part) (q : Part) :
    (List.range 16).foldl (fun s c => if c = 6 || c = 7 then s else f c s) q =
      [0, 1, 2, 3, 4, 5, 8, 9, 10, 11, 12, 13, 14, 15].foldl (fun s c => f c s) q := rfl

/-- The division of a tick: to every class that the scheduler serves its share, scaled by the throttle level, and the rest spare (R454). -/
theorem divideTick_divides (p : Part) :
    divideTick p =
      (let demand := (List.range 16).map fun c => demandOf c p
       let e := chargeExpedited (countBallast p)
       let q := e.2
       let budget := tickBudget q
       let shares := tickShares budget (budget - e.1 - q.power.owed) (fun k => demand.getD k 0) q
       let t := [0, 1, 2, 3, 4, 5, 8, 9, 10, 11, 12, 13, 14, 15].foldl
         (fun t k => tickClass k (throttled q (shareOf k shares.1)) (demand.getD k 0) t) q
       onPower (fun b => { b with spare := throttled q shares.2, owed := 0 }) t) := by
  rw [divideTick]
  generalize (List.range 16).map (fun c => demandOf c p) = demand
  obtain ⟨charged, q⟩ := chargeExpedited (countBallast p)
  dsimp only
  obtain ⟨shares, rest⟩ := tickShares (tickBudget q) (tickBudget q - charged - q.power.owed) (fun k => demand.getD k 0) q
  exact congrArg (fun t => onPower (fun b => { b with spare := throttled q rest, owed := 0 }) t)
    (foldl_servedClasses (fun k t => tickClass k (throttled q (shareOf k shares)) (demand.getD k 0) t) q)

theorem schedulerTick_runs (mw : Nat) (hrun : running p = true) :
    schedulerTick mw p =
      resendUps (divideTick (tickSample mw
        (onPower (fun b => { b with ecoNow := if b.modeNow = 2 then b.eco.toNat else 0 }) (rampStep (ageNotices p))))) :=
  if_neg (by simp [hrun])

theorem floorRecompute_runs (w : Nat) (hrun : running p = true) :
    floorRecompute w p =
      let f := floorNow w p
      let q := onPower (fun b =>
        { b with floorPj := f, budgetW := wholeWatts (targetNow p * 90 - f), unreachable := outOfReach f p }) p
      if outOfReach f p && !p.power.unreachable then pwrEvent 3 0 0 q else q :=
  if_neg (by simp [hrun])

theorem ironShortfall_noted (hrun : running p = true) (hmode : p.power.modeNow = 1) :
    ironShortfall p = pwrEvent 4 0 0 (onPower (fun b => { b with under := true }) p) :=
  if_pos (by simp [hrun, hmode])

/-- A background class put off for its MAX_DEFER is given the energy of its next turn (R456). -/
theorem forcedRun_given {c : Nat} (excess : Nat) (hrun : running p = true) (hback : 8 ≤ c) (hdefer : cwDefer (classWord c p) ≠ 0)
    (hlate : 100 * cwDefer (classWord c p) ≤ (pwrClass c p).deferred) (hturn : turnEnergy c p ≠ 0) :
    forcedRun c excess p =
      let e := turnEnergy c p
      let q := onPower (fun b =>
        { b with
          owed := b.owed + e
          overrun := if b.modeNow = 1 then min (b.overrun + excess) (2 ^ 26 - 1) else b.overrun
          classes := b.classes.mapIdx fun i x =>
            if i = c then { x with held := some (x.held.getD 0 + e), granted := x.granted + e, deferred := 0 } else x }) p
      pwrEvent 5 c 0 (count 15 c 64 1 q) :=
  if_neg (by simp [hrun, Nat.not_lt.mpr hback, hdefer, Nat.not_lt.mpr hlate, hturn])

end

/-- Settles O59: each event of power and heat on a part that runs. -/
theorem powerEventsAct : Obligations.PowerEventsAct := by
  intro s c w p
  refine ⟨fun hon => ⟨fun r => onPart_of_eq (sensorSample_runs r hon), onPart_of_eq (throttleBoundary_runs hon)⟩, fun hrun => ?_⟩
  refine ⟨fun mw => ?tick, onPart_of_eq (floorRecompute_runs w hrun), fun hmode => onPart_of_eq (ironShortfall_noted hrun hmode),
    fun hback hdefer hlate hturn excess => onPart_of_eq (forcedRun_given excess hrun hback hdefer hlate hturn)⟩
  case tick =>
    exact onPart_of_eq ((schedulerTick_runs mw hrun).trans (congrArg resendUps (divideTick_divides _)))

end Sys2Proof.Machine
